-- ==== Sys2Proof/Word.lean ====
section
/-!
DEFINITION. The machine's word types. A register is 64 bits (spec/00_scope.md, Registers and access types); every
multi-byte value is stored little-endian (R3).
-/

namespace Sys2Proof

/-- One register of the register space. -/
abbrev Word := BitVec 64
/-- One byte of a tier, a packet or a record. -/
abbrev Byte := BitVec 8
/-- A region of the die, 0-15 (R10). -/
abbrev Rgn := Fin 16
/-- A block of a region, 0-8 (R10). -/
abbrev Blk := Fin 9
/-- A cell of a region: b*64 + y*8 + x (R89). -/
abbrev CellIx := Fin 576
/-- A context slot, 0-3. -/
abbrev Slot := Fin 4
/-- A hardware partition, 0-15 (R17). -/
abbrev Part := Fin 16

end Sys2Proof
end

