-- ==== Sys2Proof/Syntax.lean ====
section
/-!
DEFINITION. The commands of the block: one constructor of `Instr` per row of spec/opcode_table.json, in the table's
order, with the operands that say which instance of the step happens (the region, cell, ring, circuit), what arrives
with it from outside (a written value, a message, a pin, a sensor reading), and, in an operand named `ch`, `dst`,
`table`, `phys` or `variant`, the choice that the spec leaves to firmware.
-/

namespace Sys2Proof

/-- Who makes a register access (Table 19.4; processors of Table 17.7). -/
inductive Requester where
  | companion
  | eland (i : Fin 2)
  | tahr
  | host (n : Rgn)
  | service (n : Rgn)
  deriving DecidableEq, Repr

/-- A submission ring (R278): ring 0 or 1 of a partition, or the management ring. -/
inductive Ring where
  | part (p : Part) (k : Fin 2)
  | mgmt
  deriving DecidableEq, Repr

/-- The owner of a ring set: the command block of a region, or the management rings (R278). -/
inductive RingOwner where
  | rgn (n : Rgn)
  | mgmt
  deriving DecidableEq, Repr

/-- The three planes of the router (Table 2.2). -/
inductive Plane where
  | vector | scalar | control
  deriving DecidableEq, Repr

/-- One link hop (Table 2.3): out of a cell's output register, or one of the block switch's links
(02_array.md, Block switch and region bridges). Ports are numbered N E S W XN XE XS XW L on the vector plane and
N E S W L on the others (R90, R91). -/
inductive Link where
  | cell (c : CellIx) (pl : Plane) (out : Fin 9)
  | inject (b : Blk) (y : Fin 8)
  | injectScalar (b : Blk)
  | injectControl (b : Blk)
  | eject (b : Blk) (y : Fin 8)
  deriving DecidableEq, Repr

/-- Why the service core fences a block (R50). -/
inductive FenceCause where
  | store | linkErrors | switchFault | completionCheck
  deriving DecidableEq, Repr

/-- How a read of a tier ends (R176 to R180): `corrected` is a read whose line the controller corrected. -/
inductive ReadOutcome where
  | ok | corrected | uncorrectable | timeout
  deriving DecidableEq, Repr

/-- What a sequencer fetch reads (R126). -/
inductive FetchKind where
  | entries | branchRows | controlRows | descriptors
  deriving DecidableEq, Repr

/-- What patrol scrub finds in a line (R176 to R178). -/
inductive ScrubOutcome where
  | clean | corrected | uncorrectable
  deriving DecidableEq, Repr

/-- Where a codeword read ends (R206): at the default levels, at retry level `k`, at soft decode, or nowhere. -/
inductive DecodeOutcome where
  | hard | retry (k : Nat) | soft | fail
  deriving DecidableEq, Repr

/-- Message credits returned in a received Taith header (R331): class 0 P, 1 R, 2 C, 3 none. -/
structure Credit where
  cls : Fin 4
  count : BitVec 16
  deriving DecidableEq, Repr

/-- An Axium message as it arrives at a port: the circuit and peer it came from, the header of Table 14.4, and the
tile and byte-enable block that follow it (R350). -/
structure AxMsg where
  circuit : Fin 4096
  fromChip : BitVec 18
  fromPart : Part
  cause : Byte
  reqId : BitVec 16
  tag : BitVec 16
  arg : Word
  gta : BitVec 128
  data : List Byte
  enables : List Byte
  deriving DecidableEq, Repr

/-- The fields of a flit header that a port reads (Table 14.2). -/
structure FlitHdr where
  seq : BitVec 12
  ack : BitVec 12
  circuit : Fin 4096
  credits : Byte
  creditVc : Bool
  deriving DecidableEq, Repr

/-- Why a flit is discarded (R341). -/
inductive FlitError where
  | fec | crc | sequence
  deriving DecidableEq, Repr

/-- Why a port declares its link down (R343). -/
inductive LinkDown where
  | lockLost | silence | replays
  deriving DecidableEq, Repr

/-- How a region's herd step ends (R372 step 2, R376): the DIMM found, or the reason. -/
inductive HerdResult where
  | trained (speed : Fin 3) (ranks2 : Bool) (stack : Fin 3) (sizeGib : Fin 257) (failedBlocks : BitVec 9)
  | outside
  | failed
  deriving DecidableEq, Repr

/-- How a region's fold start ends (R372 step 3, R376): the geometry read, or the reason. `geom` is FOLD_GEOM,
`rawGib` the raw capacity, `clean` whether the previous power-down was flushed. An unformatted channel shows the geometry,
raw capacity and rated cycles that its targets report, when they report any. -/
inductive FoldResult where
  | started (geom : Word) (rawGib : Fin 4097) (ratedPe : BitVec 16) (clean : Bool)
  | unformatted (chan : Option (Word × Fin 4097 × BitVec 16))
  | unreadable
  deriving DecidableEq, Repr

/-- What the power manager measures in a window of 10,000 ticks (R386, R396): package power, VDD_CORE's 1 us mean,
per-region power in 0.1 W, and the sensors in 0.1 degree C (regions, chip, HBM stacks). -/
structure PowerSample where
  packageW : Nat
  coreW : Nat
  rgnPower : List Nat
  rgnTemp : List Nat
  chipTemp : Nat
  hbmTemp : List Nat
  deriving DecidableEq, Repr

/-- What a fault report says beyond its source (Table 17.4): the command it names, ADDR and DETAIL. -/
structure FaultInfo where
  cmd : Option Nat
  addr : BitVec 128
  detail : BitVec 128
  deriving DecidableEq, Repr

/-- The binding an MCTP message arrives on (R443). -/
inductive MctpBus where
  | i3c | smbus
  deriving DecidableEq, Repr

/-- Firmware's placement for one session row in one layer group: the new page table's first tile and the page blocks'
first tiles (R227, R237). -/
structure RowChoice where
  table : Nat
  blocks : List Nat
  deriving DecidableEq, Repr

/-- One layer group of a package (R227): its region, the tiles of a page block, the walk-list tile (R231), and the
placement of each session row. -/
structure GroupChoice where
  rgn : Rgn
  pb : Nat
  list : Nat
  rows : List RowChoice
  deriving DecidableEq, Repr

/-- Firmware's placement of one position of a package (R259, R115): the near tile where its package space begins,
the space's extents (first tile, tiles), the first tile of each copied section that is not WEIGHTS, and the directory
entries and context-store tiles of the selected variant's contexts. -/
structure Placement where
  base : Nat
  space : List (Nat × Nat)
  sect : List Nat
  dirs : List Nat
  dirTiles : List Nat
  deriving DecidableEq, Repr

/-- The choices the spec leaves to firmware when a command runs: a handle (R296), a first tile or lot, an adapter slot
(R275), cache placement and package placement. The rules check every one. `herd` says how the read of an argument block
or buffer in herd memory ends (R290). -/
structure Choice where
  handle : BitVec 32
  first : Nat
  slot : Nat
  groups : List GroupChoice
  places : List Placement
  herd : ReadOutcome
  deriving DecidableEq, Repr

/-- Firmware's moves of the units of a fold block, in the order of their pages: the new page of each, and the tiles of each
that could not be decoded (R205). -/
structure UnitMoves where
  pages : List Nat
  lost : List (BitVec 4)
  deriving DecidableEq, Repr

/-- Static levelling's move into a free block (R203): the block, and the tiles of each unit that could not be decoded. -/
structure LevelMove where
  blk : Nat
  lost : List (BitVec 4)
  deriving DecidableEq, Repr

/-- The reads of a region's route job (R254): how the one at `place` among them ends. -/
structure JobEvent where
  rgn : Rgn
  out : ReadOutcome
  place : Nat
  deriving DecidableEq, Repr

/-- The fetch of an entry of a ring, and how its read ends where the ring lies in herd memory (R281). -/
structure EntryRead where
  ring : Ring
  out : ReadOutcome
  deriving DecidableEq, Repr

/-- The commands and events of the block. -/
inductive Instr where
  /-- REGISTER_WRITE (R446): A write to a register that has no row of its own applies every writable field in one step. -/
  | registerWrite (who : Requester) (addr width : Nat) (v : Word)
  /-- RC_READ (R447): A read of a register that holds RC fields returns the value and clears those fields. -/
  | rcRead (who : Requester) (addr width : Nat)
  /-- LINK_TRANSFER (R26): One flit or token crosses one link hop by request and acknowledge, and is routed by its slot's route entry. -/
  | linkTransfer (n : Rgn) (l : Link) (parityError : Bool)
  /-- RATE_WINDOW (R33): Each window of 1,000 ticks ends, and RGN_RATE takes the rate monitor's step count. -/
  | rateWindow (n : Rgn) (steps : BitVec 32)
  /-- STALL (R44): RGN_STALL_LIMIT ticks pass without a cell step while a command is active, and the region stall fault source is raised. -/
  | stall (n : Rgn)
  /-- GRANULE_RETIRE (R48): The service core retires a cell-store granule after an uncorrectable or repeated corrected error, and adds it to the field defect list. -/
  | granuleRetire (n : Rgn) (c : CellIx) (g : Fin 96)
  /-- VARIANT_RESELECT (R265): Firmware selects a fitting placement variant again, rewrites the directory and SEQ_TABLE_BASE, and re-runs the affected command. -/
  | variantReselect (n : Rgn) (id : Nat) (variant : Fin 16)
  /-- BLOCK_FENCE (R50): The service core fences a block: it closes the block's links, switches its domain off and marks it failed. -/
  | blockFence (n : Rgn) (b : Blk) (cause : FenceCause)
  /-- NOP_MICRO_OP (R64): Micro-op NOP does nothing for one step. -/
  | nopMicroOp (n : Rgn) (c : CellIx) (sl : Slot)
  /-- MMA (R68): Micro-op MMA accumulates A·B over K into an accumulator bank, rounding once per step to FP32. -/
  | mma (n : Rgn) (c : CellIx) (sl : Slot)
  /-- MMA_COMPLETE (R69): An MMA writes its last sum and releases its accumulator bank to waiting micro-ops. -/
  | mmaComplete (n : Rgn) (c : CellIx) (sl : Slot)
  /-- MOV (R70): Micro-op MOV copies A to D. -/
  | mov (n : Rgn) (c : CellIx) (sl : Slot)
  /-- CVT (R80): Micro-op CVT converts A to the destination format, with rounding and saturation. -/
  | cvt (n : Rgn) (c : CellIx) (sl : Slot)
  /-- MXSCALE (R81): Micro-op MXSCALE computes the E8M0 block scales of an FP32 panel. -/
  | mxscale (n : Rgn) (c : CellIx) (sl : Slot)
  /-- SETP (R57): Micro-op SETP sets the base and stride of a stream pointer. -/
  | setp (n : Rgn) (c : CellIx) (sl : Slot)
  /-- SEED (R79): Micro-op SEED loads the cell's LFSR, with a zero seed loading 1. -/
  | seed (n : Rgn) (c : CellIx) (sl : Slot)
  /-- FLAGS (R85): Micro-op FLAGS sends the sticky flag word as a scalar token, and optionally clears the flags it read. -/
  | flags (n : Rgn) (c : CellIx) (sl : Slot)
  /-- ADD (R71): Micro-op ADD adds A and B element by element. -/
  | add (n : Rgn) (c : CellIx) (sl : Slot)
  /-- SUB (R71): Micro-op SUB subtracts B from A element by element. -/
  | sub (n : Rgn) (c : CellIx) (sl : Slot)
  /-- MUL (R71): Micro-op MUL multiplies A and B element by element. -/
  | mul (n : Rgn) (c : CellIx) (sl : Slot)
  /-- FMA (R71): Micro-op FMA computes D = A × B + D element by element. -/
  | fma (n : Rgn) (c : CellIx) (sl : Slot)
  /-- MAX (R71): Micro-op MAX takes the element-wise maximum of A and B. -/
  | max (n : Rgn) (c : CellIx) (sl : Slot)
  /-- MIN (R71): Micro-op MIN takes the element-wise minimum of A and B. -/
  | min (n : Rgn) (c : CellIx) (sl : Slot)
  /-- NEG (R71): Micro-op NEG negates A element by element. -/
  | neg (n : Rgn) (c : CellIx) (sl : Slot)
  /-- ABS (R71): Micro-op ABS takes the absolute value of A element by element. -/
  | abs (n : Rgn) (c : CellIx) (sl : Slot)
  /-- CMP (R72): Micro-op CMP writes mask bits from an element-wise comparison of A and B. -/
  | cmp (n : Rgn) (c : CellIx) (sl : Slot)
  /-- SEL (R72): Micro-op SEL selects A or B per element under a mask register. -/
  | sel (n : Rgn) (c : CellIx) (sl : Slot)
  /-- EXP2 (R82): Micro-op EXP2 computes 2 to the power A from a table and a polynomial. -/
  | exp2 (n : Rgn) (c : CellIx) (sl : Slot)
  /-- LOG2 (R82): Micro-op LOG2 computes the base-2 logarithm of A. -/
  | log2 (n : Rgn) (c : CellIx) (sl : Slot)
  /-- RCP (R82): Micro-op RCP computes the reciprocal of A. -/
  | rcp (n : Rgn) (c : CellIx) (sl : Slot)
  /-- RSQRT (R82): Micro-op RSQRT computes the reciprocal square root of A. -/
  | rsqrt (n : Rgn) (c : CellIx) (sl : Slot)
  /-- SILU (R82): Micro-op SILU computes A × sigmoid(A). -/
  | silu (n : Rgn) (c : CellIx) (sl : Slot)
  /-- GELU (R82): Micro-op GELU computes A × Φ(A). -/
  | gelu (n : Rgn) (c : CellIx) (sl : Slot)
  /-- SUBEXP (R82): Micro-op SUBEXP computes exp2((A − B) × log2 e). -/
  | subexp (n : Rgn) (c : CellIx) (sl : Slot)
  /-- RED_ROW (R74): Micro-op RED_ROW reduces each group of eight elements to one result. -/
  | redRow (n : Rgn) (c : CellIx) (sl : Slot)
  /-- RED_COL (R74): Micro-op RED_COL reduces the elements of each of eight columns to one result. -/
  | redCol (n : Rgn) (c : CellIx) (sl : Slot)
  /-- NSTAT (R75): Micro-op NSTAT writes normalisation statistics: sum, sum of squares and count. -/
  | nstat (n : Rgn) (c : CellIx) (sl : Slot)
  /-- NFIN (R75): Micro-op NFIN turns statistics sets into a mean and a reciprocal deviation. -/
  | nfin (n : Rgn) (c : CellIx) (sl : Slot)
  /-- SUMMARY (R74): Micro-op SUMMARY sends one scalar token that summarises the elements of A. -/
  | summary (n : Rgn) (c : CellIx) (sl : Slot)
  /-- RESERVED_MICRO_OP (R63): A cell meets a micro-op with a reserved or forbidden value and treats it as a micro-op parity error. -/
  | reservedMicroOp (n : Rgn) (c : CellIx) (sl : Slot)
  /-- PASS (R117): Control token pass sends the governed unit from input A out by A's route entry. -/
  | pass (n : Rgn) (c : CellIx)
  /-- SELECT (R117): Control token select sends the governed unit from input A out by an alternate output set. -/
  | select (n : Rgn) (c : CellIx)
  /-- DROP (R117): Control token drop consumes and discards the governed unit from input A. -/
  | drop (n : Rgn) (c : CellIx)
  /-- TAKE_A (R117): Control token take-A sends the governed unit from input A out by MERGE_OUT. -/
  | takeA (n : Rgn) (c : CellIx)
  /-- TAKE_B (R117): Control token take-B sends the governed unit from input B out by MERGE_OUT. -/
  | takeB (n : Rgn) (c : CellIx)
  /-- SWITCH_CONTEXT (R105): Control token switch-context sets the active slot of the one cell at whose local output it arrives. -/
  | switchContext (n : Rgn) (c : CellIx)
  /-- SIGNAL (R150): Control token signal leaves cell (0, 0) for the block switch and adds 1 to a region semaphore. -/
  | signal (n : Rgn) (b : Blk)
  /-- SWITCH_ORDER (R102): A region-local switch order is released and sets the new active slot in every cell of the region. -/
  | switchOrder (n : Rgn)
  /-- CHIP_SWITCH_ORDER (R103): A chip-wide switch order passes through the chip switch unit to every region of the partition. -/
  | chipSwitchOrder (n : Rgn)
  /-- SWEEP (R108): A credit sweep visits every holder and records which slots each holder holds or has touched. -/
  | sweep (n : Rgn)
  /-- LOAD_START (R110): A waiting load order starts once its slot is EMPTY or IDLE, and its image is checked first. -/
  | loadStart (n : Rgn) (sl : Slot)
  /-- LOAD_COMPLETE (R112): A context load ends, and the slot becomes IDLE, or EMPTY on a read failure. -/
  | loadComplete (n : Rgn) (sl : Slot) (out : ReadOutcome)
  /-- LOAD_WAIT_EXPIRY (R111): A load order's wait bound expires before it starts, and the command ends with ST_SLOT_BUSY. -/
  | loadWaitExpiry (n : Rgn) (sl : Slot)
  /-- CTX_LOAD (R111): A write of CTX_LOAD.GO issues a load order for the entry and slot it names. -/
  | ctxLoad (who : Requester) (n : Rgn) (v : Word)
  /-- CTX_FLUSH (R114): A write of CTX_FLUSH issues a flush that discards every token of the slots it names. -/
  | ctxFlush (who : Requester) (n : Rgn) (v : Word)
  /-- FREEZE (R121): Setting SCAN_CTRL.FREEZE makes every stage of the selected block stop at its next handshake boundary. -/
  | freeze (who : Requester) (n : Rgn) (v : Word)
  /-- FROZEN (R121): The selected block finishes stopping, and SCAN_STATUS.FROZEN reads 1. -/
  | frozen (n : Rgn) (b : Blk)
  /-- UNFREEZE (R121): Clearing FREEZE resumes every stage of the block, and it applies the last switch order it received. -/
  | unfreeze (who : Requester) (n : Rgn) (v : Word)
  /-- SCAN_DATA_READ (R122): A read of SCAN_DATA returns the scan word, or zero and ERROR, and advances the address under AUTO_INC. -/
  | scanDataRead (who : Requester) (n : Rgn)
  /-- SCAN_DATA_WRITE (R123): A write of SCAN_DATA stores the exact bits given into a frozen cell's state. -/
  | scanDataWrite (who : Requester) (n : Rgn) (v : Word)
  /-- SEQ_GO (R146): A write of SEQ_CTRL.GO starts a plan: it clears and initialises the semaphores and starts the start row's first entry. -/
  | seqGo (who : Requester) (n : Rgn) (v : Word)
  /-- SEQ_ABORT (R158): A write of SEQ_CTRL.ABORT makes the sequencer stop issuing at once, and the tile mover cancels the command's requests. -/
  | seqAbort (who : Requester) (n : Rgn) (v : Word)
  /-- RUN (R131): The sequencer starts a RUN entry: it issues the switch, the level-0 waits, the control tokens and the D_PRE descriptors. -/
  | run (n : Rgn)
  /-- ITERATION (R131): The sequencer visits one iteration: it takes the level waits and issues its tokens, extent token and descriptors. -/
  | iteration (n : Rgn)
  /-- LOAD (R130): A LOAD schedule entry issues a load order with its wait bound. -/
  | load (n : Rgn)
  /-- JUMP (R129): A JUMP schedule entry updates a loop counter and continues at TARGET or at the next entry. -/
  | jump (n : Rgn)
  /-- HALT (R132): A HALT schedule entry stops issuing and waits for the command's work to drain. -/
  | halt (n : Rgn)
  /-- PLAN_DONE (R132): After HALT, every descriptor, signal and load has ended, so DONE is set and the end is reported to the host. -/
  | planDone (n : Rgn)
  /-- GROUP_FETCH (R126): A near-tier fetch of schedule entries, rows or descriptors completes, or fails and ends the command. -/
  | groupFetch (n : Rgn) (what : FetchKind) (out : ReadOutcome)
  /-- BROKEN_CLEAR (R153): A W1C write of BAR_STATE.BROKEN clears it and ARRIVED. -/
  | brokenClear (who : Requester) (b : Fin 64) (v : Word)
  /-- FORCE_RELEASE (R156): A write of BAR_STATE.FORCE_RELEASE releases a chip barrier whatever ARRIVED holds. -/
  | forceRelease (who : Requester) (b : Fin 64) (v : Word)
  /-- SYNC_FORCE_GO (R156): A write of SYNC_FORCE.GO sets a semaphore to VALUE or adds VALUE to it. -/
  | syncForceGo (who : Requester) (n : Rgn) (v : Word)
  /-- SUMMARY_TOKEN (R145): A scalar token reaches the summary port and is queued; with SIG set it signals SUM_SEM. -/
  | summaryToken (n : Rgn) (b : Blk)
  /-- BRANCH (R143): At the end of a branching RUN entry the sequencer takes the oldest summary token of its slot and passes it to the host. -/
  | branch (n : Rgn)
  /-- BRANCH_ANSWER (R144): The sequencer host chooses a branch row, and the sequencer continues at its TARGET. -/
  | branchAnswer (n : Rgn)
  /-- WAIT_LIMIT_EXPIRY (R155): A semaphore or barrier wait passes WAIT_LIMIT and stops counting as progress. -/
  | waitLimitExpiry (n : Rgn)
  /-- READ (R168): A READ descriptor reads tiles once and multicasts their flits to the named block switches. -/
  | read (n : Rgn) (d : Nat)
  /-- WRITE (R169): A WRITE descriptor collects flits from the ejection links and writes the in-range bytes of each tile. -/
  | write (n : Rgn) (d : Nat)
  /-- COPY (R165): A COPY descriptor moves tiles from one tier window to another. -/
  | copy (n : Rgn) (d : Nat)
  /-- DESCRIPTOR_COMPLETE (R171): A descriptor's last write or flit is accepted, so it completes and applies its signal. -/
  | descriptorComplete (n : Rgn) (d : Nat)
  /-- TIER_RESPONSE (R179): A tier controller returns data or an acknowledgement, or an uncorrectable error that ends the command. -/
  | tierResponse (n : Rgn) (r : Nat) (out : ReadOutcome)
  /-- REQUEST_TIMEOUT (R180): A tier request passes TM_TIMEOUT, and its command ends with ST_TIER_TIMEOUT. -/
  | requestTimeout (n : Rgn) (r : Nat)
  /-- PATROL_SCRUB (R178): Patrol scrub reads a line, corrects it or marks it poisoned. -/
  | patrolScrub (n : Rgn) (near : Bool) (line : Nat) (out : ScrubOutcome)
  /-- UNIT_WRITE_ACK (R209): The fold controller acknowledges a unit write once its data and journal record are in the protected buffer. -/
  | unitWriteAck (n : Rgn) (r phys : Nat) (lost : BitVec 4)
  /-- PROGRAM_COMPLETE (R207): A NAND program completes; a failure makes the block grown bad and reprograms the data elsewhere. -/
  | programComplete (n : Rgn) (u : Nat) (ok : Bool) (phys : Nat)
  /-- ERASE_COMPLETE (R207): A NAND erase completes; a failure retires the block at once. -/
  | eraseComplete (n : Rgn) (blk : Nat) (ok : Bool)
  /-- CODEWORD_READ (R206): A codeword read proceeds through hard, retry and soft decoding until it decodes or is uncorrectable. -/
  | codewordRead (n : Rgn) (r : Nat) (out : DecodeOutcome)
  /-- FOLD_FLUSH_DONE (R212): The power-fail flush programs the last buffered unit and journal tail, and DURABLE is set to ACKED. -/
  | foldFlushDone (n : Rgn)
  /-- FOLD_READY (R216): Mapping recovery completes and FOLD_STATUS.READY is set, so held fold commands may be accepted. -/
  | foldReady (n : Rgn)
  /-- PERIODIC_CHECKPOINT (R214): The journal reaches 64 MiB or 10 minutes pass, and the mapping table and counters are checkpointed. -/
  | periodicCheckpoint (n : Rgn)
  /-- RETENTION_SCRUB (R205): The retention scrub reads a block within SCRUB_DAYS and queues it for refresh if needed. -/
  | retentionScrub (n : Rgn) (blk : Nat) (out : DecodeOutcome)
  /-- REFRESH_RELOCATION (R204): A block queued for refresh has its valid units relocated and is erased. -/
  | refreshRelocation (n : Rgn) (blk : Nat) (dst : UnitMoves)
  /-- GARBAGE_COLLECTION (R215): Garbage collection takes a program slot to reclaim blocks. -/
  | garbageCollection (n : Rgn) (blk : Nat) (dst : UnitMoves)
  /-- STATIC_WEAR_LEVELLING (R203): The erase-count spread exceeds WL_DELTA, and a block's data moves to the most-worn free block. -/
  | staticWearLevelling (n : Rgn) (src : Nat) (dst : LevelMove)
  /-- BLOCK_INFO (R217): Mailbox operation BLOCK_INFO returns a block's erase count, read counter and state. -/
  | blockInfo (who : Requester) (n : Rgn) (v : Word)
  /-- CHECKPOINT (R217): Mailbox operation CHECKPOINT writes a checkpoint of the mapping. -/
  | checkpoint (who : Requester) (n : Rgn) (v : Word)
  /-- FORMAT (R217): Mailbox operation FORMAT erases every non-factory-bad block when the partition's fold usage is zero. -/
  | format (who : Requester) (n : Rgn) (v : Word)
  /-- BAD_LIST (R217): Mailbox operation BAD_LIST returns one entry of the bad-block list. -/
  | badList (who : Requester) (n : Rgn) (v : Word)
  /-- FOLD_MAILBOX_DONE (R217): A mailbox operation ends, so BUSY clears and RESULT is set. -/
  | foldMailboxDone (n : Rgn) (ok : Bool)
  /-- PAGE_BLOCK_RELOCATION (R237): Firmware relocates an immutable page block for compaction or errors by a table edit. -/
  | pageBlockRelocation (p : Part) (h : BitVec 32) (grp page dst table : Nat)
  /-- TTL_EXPIRY (R241): A parked session's time to live expires, so its tiles are freed and it becomes expired. -/
  | ttlExpiry (p : Part) (h : BitVec 32)
  /-- DISPATCH (R248): A DISPATCH route job ranks the candidates, places tokens in seats, and writes the map, the panels and the counters. -/
  | dispatch (r : JobEvent)
  /-- COMBINE (R252): A COMBINE route job copies the expert output lines into the rank panels and writes the weights. -/
  | combine (r : JobEvent)
  /-- SIGNATURE_VERIFY (R262): Tahr verifies both signatures of a package header and records the digest. -/
  | signatureVerify (id : Nat)
  /-- DOORBELL (R280): A write of a submission ring's TAIL makes entries pending, or is dropped with DB_ERR. -/
  | doorbell (who : Requester) (r : Ring) (v : Word)
  /-- ENTRY_FETCH (R280): The ring owner fetches pending entries when the completion ring has room, and advances HEAD. -/
  | entryFetch (f : EntryRead)
  /-- HELD_ENTRY_RELEASE (R286): An entry held at a ring's head becomes acceptable once its stage, fold readiness or fence condition is met. -/
  | heldEntryRelease (r : Ring)
  /-- CMD_RING_CFG (R285): A write of CMD_RING_CFG enables or disables a ring, resetting its pointers or setting CFG_ERR. -/
  | cmdRingCfg (who : Requester) (r : RingOwner) (k : Fin 3) (v : Word)
  /-- RESERVED_OPCODE (R292): A packet with a reserved opcode, or one not allowed on the ring, is rejected with ST_BAD_OPCODE. -/
  | reservedOpcode (r : Ring)
  /-- NOP (R296): Command NOP commits at acceptance with ST_OK. -/
  | nop (r : Ring) (ch : Choice)
  /-- QUERY (R297): Command QUERY writes one page of chip, partition, defect, package or client state to a buffer. -/
  | query (r : Ring) (ch : Choice)
  /-- PARTITION_SET (R308): Command PARTITION_SET changes a partition's policy, or resets the partition and gives it a new region mask. -/
  | partitionSet (r : Ring) (ch : Choice)
  /-- PKG_STAGE (R268): Command PKG_STAGE copies, checks and installs a package into its target regions. -/
  | pkgStage (r : Ring) (ch : Choice)
  /-- PKG_ACTIVATE (R271): Command PKG_ACTIVATE makes a staged version active at the batch boundary. -/
  | pkgActivate (r : Ring) (ch : Choice)
  /-- PKG_RETIRE (R272): Command PKG_RETIRE frees an idle version or marks a bound version retiring. -/
  | pkgRetire (r : Ring) (ch : Choice)
  /-- ADAPTER_LOAD (R275): Command ADAPTER_LOAD checks an adapter image and places it in a free slot of each target region. -/
  | adapterLoad (r : Ring) (ch : Choice)
  /-- ADAPTER_DROP (R276): Command ADAPTER_DROP frees an adapter slot once its bound commands retire. -/
  | adapterDrop (r : Ring) (ch : Choice)
  /-- SESSION_OPEN (R296): Command SESSION_OPEN creates a session record and returns a new handle. -/
  | sessionOpen (r : Ring) (ch : Choice)
  /-- SESSION_PREFILL (R314): Command SESSION_PREFILL runs a prefill chunk of up to 512 positions for one session. -/
  | sessionPrefill (r : Ring) (ch : Choice)
  /-- SESSION_DECODE (R314): Command SESSION_DECODE runs a decode batch for up to 64 sessions. -/
  | sessionDecode (r : Ring) (ch : Choice)
  /-- SESSION_ACCEPT (R235): Command SESSION_ACCEPT sets L and W to L′ and discards the speculative entries beyond it. -/
  | sessionAccept (r : Ring) (ch : Choice)
  /-- SESSION_PARK (R240): Command SESSION_PARK copies a session's cache to herd or fold with a time to live. -/
  | sessionPark (r : Ring) (ch : Choice)
  /-- SESSION_RESUME (R242): Command SESSION_RESUME copies a parked cache back into the near tier under a new table generation. -/
  | sessionResume (r : Ring) (ch : Choice)
  /-- SESSION_CLOSE (R296): Command SESSION_CLOSE frees a session's tiles and forgets its handle. -/
  | sessionClose (r : Ring) (ch : Choice)
  /-- JOB_RUN (R300): Command JOB_RUN runs a package plan with no session. -/
  | jobRun (r : Ring) (ch : Choice)
  /-- JOB_ABORT (R303): Command JOB_ABORT sends an abort request for an unretired command of the same client, or ends with ST_ABORT_LATE. -/
  | jobAbort (r : Ring) (ch : Choice)
  /-- TIER_ALLOC (R184): Command TIER_ALLOC allocates a contiguous range of tiles under the quota. -/
  | tierAlloc (r : Ring) (ch : Choice)
  /-- TIER_FREE (R296): Command TIER_FREE frees tiles that were obtained through TIER_ALLOC. -/
  | tierFree (r : Ring) (ch : Choice)
  /-- TIER_COPY (R296): Command TIER_COPY copies tiles between tiers within one region, or from companion memory. -/
  | tierCopy (r : Ring) (ch : Choice)
  /-- QUOTA_SET (R186): Command QUOTA_SET replaces a quota and, with RECLAIM, evicts parked sessions. -/
  | quotaSet (r : Ring) (ch : Choice)
  /-- SYNC_FORCE (R156): Command SYNC_FORCE sets or adds to a semaphore, or releases a chip barrier. -/
  | syncForce (r : Ring) (ch : Choice)
  /-- FAB_CIRCUIT_BIND (R348): Command FAB_CIRCUIT_BIND sets an entry BINDING and probes the circuit until the peer answers. -/
  | fabCircuitBind (r : Ring) (ch : Choice)
  /-- FAB_CIRCUIT_UNBIND (R349): Command FAB_CIRCUIT_UNBIND frees a circuit entry once no request on it is outstanding. -/
  | fabCircuitUnbind (r : Ring) (ch : Choice)
  /-- LEND_OFFER (R357): Command LEND_OFFER allocates and zeroes herd lots and returns an offer ID. -/
  | lendOffer (r : Ring) (ch : Choice)
  /-- LEND_WITHDRAW (R360): Command LEND_WITHDRAW withdraws or returns lots of an offer. -/
  | lendWithdraw (r : Ring) (ch : Choice)
  /-- LEND_BORROW (R358): Command LEND_BORROW reserves lent-tier quota and sends LEND_ASK to the lender. -/
  | lendBorrow (r : Ring) (ch : Choice)
  /-- FAULT_CONFIG (R409): Command FAULT_CONFIG sets a fault source's severity and pin bit. -/
  | faultConfig (r : Ring) (ch : Choice)
  /-- FAULT_INJECT (R410): Command FAULT_INJECT makes forced reports of a fault source. -/
  | faultInject (r : Ring) (ch : Choice)
  /-- POWER_POLICY (R388): Command POWER_POLICY reads and applies a power policy block. -/
  | powerPolicy (r : Ring) (ch : Choice)
  /-- ATTEST (R433): Command ATTEST has Tahr write a dual-signed attestation report. -/
  | attest (r : Ring) (ch : Choice)
  /-- FW_STAGE (R439): Command FW_STAGE reads and checks a boot bundle into the staging store. -/
  | fwStage (r : Ring) (ch : Choice)
  /-- FW_COMMIT (R441): Command FW_COMMIT writes the staged bundle to the other flash slot, or seals the running bundle. -/
  | fwCommit (r : Ring) (ch : Choice)
  /-- ABORT_REQUEST (R304): An abort or end request reaches a home commit arbiter and is ordered against the target's commit. -/
  | abortRequest (id : Nat)
  /-- COMMIT (R301): The commit arbiter applies every effect of a command in one step and queues its record. -/
  | commit (id : Nat)
  /-- COMMAND_RETIRE (R298): A command retires and its completion record is written to the completion ring. -/
  | commandRetire (id : Nat)
  /-- CQ_MOD_EXPIRY (R284): A record has waited CMD_CQ_MOD.TICKS, and the completion interrupt is raised. -/
  | cqModExpiry (o : RingOwner)
  /-- PLAN_DISPATCH (R317): A region that is free takes the first command of the partition order and starts its plan once every region of its span is held. -/
  | planDispatch (id : Nat) (ch : Choice)
  /-- DEADLINE_PASS (R325): A command's absolute deadline passes, and SRV_STATUS.MISSED rises. -/
  | deadlinePass (id : Nat)
  /-- REG_RD (R329): Taith REG_RD reads a register and answers with REG_RSP. -/
  | regRd (tag : BitVec 16) (addr : Nat) (cr : Credit)
  /-- REG_WR (R329): Taith REG_WR carries a companion register write. -/
  | regWr (addr : Nat) (v : Word) (cr : Credit)
  /-- HERD_RD (R330): Taith HERD_RD reads 64 bytes of a herd tile that a partition holds. -/
  | herdRd (tag : BitVec 16) (n : Rgn) (off : Nat) (cr : Credit)
  /-- HERD_WR (R330): Taith HERD_WR writes 64 bytes of a herd tile that a partition holds. -/
  | herdWr (tag : BitVec 16) (n : Rgn) (off : Nat) (data : List Byte) (cr : Credit)
  /-- SNP_INV (R333): Taith SNP_INV invalidates a window line in the queue cache and is acknowledged. -/
  | snpInv (tag : BitVec 16) (addr : Nat) (cr : Credit)
  /-- DATA (R329): Taith DATA returns read data for a WIN_RD or MEM_RD of the device. -/
  | data (tag : BitVec 16) (err : Bool) (data : List Byte) (cr : Credit)
  /-- TAITH_ACK (R333): Taith ACK completes a write or snoop, and makes a completion record visible. -/
  | taithAck (tag : BitVec 16) (err : Bool) (cr : Credit)
  /-- RESERVED_TAITH_MESSAGE (R330): A Taith message with a reserved TYPE or field is dropped, and a class-R one is answered with ARG 1. -/
  | reservedTaithMessage (type : BitVec 8) (tag : BitVec 16) (cr : Credit)
  /-- KEEPALIVE (R334): A received Taith KEEPALIVE restarts the silence timer. -/
  | keepalive (cr : Credit)
  /-- KEEPALIVE_TIMER (R334): PERIOD passes with nothing sent, and the device sends KEEPALIVE. -/
  | keepaliveTimer
  /-- TAITH_LINK_LOSS (R335): Taith link-down or silence for TIMEOUT declares the link lost: fetching stops and records go to the shadow ring. -/
  | taithLinkLoss (down : Bool)
  /-- LOSS_PARK_TIMEOUT (R336): A loss lasts PARK_TICKS, and firmware parks every OPEN session to the herd tier. -/
  | lossParkTimeout
  /-- TAITH_LINK_UP (R328): Taith training completes and the link is up, degraded or not. -/
  | taithLinkUp (width : Fin 4) (fast : Bool)
  /-- TAITH_RESUME (R337): A write of TAITH_RESUME replays a partition's shadow records with REPLAYED set and resumes fetching. -/
  | taithResume (who : Requester) (v : Word)
  /-- AXIUM_LINK_TRAINED (R345): An Axium port finishes training and FEC alignment, becomes LINKED and sends HELLO. -/
  | axiumLinkTrained (n : Rgn) (ok : Bool)
  /-- HELLO_SIGNED (R345): Tahr finishes signing the HELLO, and the port sends it. -/
  | helloSigned (n : Rgn)
  /-- HELLO (R346): A switch HELLO with a nonce is received and answered with a signed HELLO. -/
  | hello (n : Rgn) (nonce : List Byte) (short : Bool)
  /-- AXIUM_ACK (R352): An Axium ACK completes a request, binds a circuit or joins the port after a HELLO. -/
  | axiumAck (n : Rgn) (m : AxMsg)
  /-- NAK (R354): An Axium NAK ends the requesting command with the status of its cause, or fails a HELLO. -/
  | nak (n : Rgn) (m : AxMsg)
  /-- TILE_GET (R353): A received TILE_GET is served from an I/O window or a lent lot, or refused with NAK. -/
  | tileGet (n : Rgn) (m : AxMsg)
  /-- TILE_PUT (R353): A received TILE_PUT is written to an I/O window or a lent lot and acknowledged, or refused with NAK. -/
  | tilePut (n : Rgn) (m : AxMsg)
  /-- TILE_DATA (R355): A TILE_DATA answers the device's TILE_GET with a tile. -/
  | tileData (n : Rgn) (m : AxMsg)
  /-- SYNC_SIGNAL (R354): A received SYNC_SIGNAL is applied to a semaphore for the running command, or discarded as stale. -/
  | syncSignal (n : Rgn) (m : AxMsg)
  /-- LEND_ASK (R358): A received LEND_ASK is granted from the offer, or refused with NAK. -/
  | lendAsk (n : Rgn) (m : AxMsg)
  /-- LEND_GRANT (R358): A received LEND_GRANT commits the borrow and enters the lots into the lent tier. -/
  | lendGrant (n : Rgn) (m : AxMsg)
  /-- LEND_RECALL (R361): A received LEND_RECALL raises the lot-recall source and starts the notice count. -/
  | lendRecall (n : Rgn) (m : AxMsg)
  /-- LEND_RETURN (R360): A received LEND_RETURN frees returned lots at the lender. -/
  | lendReturn (n : Rgn) (m : AxMsg)
  /-- PROBE (R352): A received PROBE is answered with ACK on a BOUND entry, or with NAK UNBOUND. -/
  | probe (n : Rgn) (m : AxMsg)
  /-- REPLAY_REQUEST (R341): A received replay request makes the sender replay flits from the last good SEQ. -/
  | replayRequest (n : Rgn) (h : FlitHdr)
  /-- IDLE_FLIT (R340): A received idle flit returns credits and acknowledgements. -/
  | idleFlit (n : Rgn) (h : FlitHdr)
  /-- FLIT_ERROR (R341): A flit that fails FEC or CRC, or is out of sequence, is discarded, and a replay request is sent. -/
  | flitError (n : Rgn) (kind : FlitError)
  /-- PATH_DOWN (R363): A path-down flit naming a circuit arrives, and the circuit is lost. -/
  | pathDown (n : Rgn) (h : FlitHdr)
  /-- AXIUM_LINK_DOWN (R343): Lock loss, 10 µs of silence or repeated replays declare the link down, and the port retrains. -/
  | axiumLinkDown (n : Rgn) (cause : LinkDown)
  /-- PROBE_TIMER (R363): A busy circuit is silent for PROBE_TICKS, and a PROBE is sent. -/
  | probeTimer (n : Rgn) (c : Fin 4096)
  /-- CIRCUIT_TIMEOUT (R363): CIRC_TIMEOUT expires without a PROBE answer or bind, and the circuit is lost or the bind fails. -/
  | circuitTimeout (n : Rgn) (c : Fin 4096)
  /-- BIND_REPROBE (R348): 10 µs pass after NAK UNBOUND on a BINDING entry, and the port probes again. -/
  | bindReprobe (n : Rgn) (c : Fin 4096)
  /-- RECALL_NOTICE_EXPIRY (R361): The borrower's recall notice ends, and it returns the lots. -/
  | recallNoticeExpiry (n : Rgn) (offer : BitVec 32)
  /-- WITHDRAW_NOTICE_EXPIRY (R360): The lender's NOTICE_MS passes, and it refuses the recalled lots. -/
  | withdrawNoticeExpiry (n : Rgn) (offer : BitVec 32)
  /-- FAB_CHIP_ID (R344): A write of FAB_CHIP_ID sets the chip ID unless LOCKED, and makes waiting ports resend HELLO. -/
  | fabChipId (who : Requester) (v : Word)
  /-- POR_N_FALL (R366): POR_N falls and the whole device resets asynchronously. -/
  | porNFall
  /-- POR_N_RISE (R367): POR_N rises, the straps are sampled and the Tahr ROM starts at stage 0. -/
  | porNRise (strapBoot strapRecover testEn : Bool)
  /-- WARM_RST_N (R368): A fall of WARM_RST_N requests a warm reset, deferred while fold flushes run. -/
  | warmRstN
  /-- WARM (R368): A write of BOOT_CTRL.WARM with the key requests a warm reset. -/
  | warm (who : Requester) (v : Word)
  /-- CLEAR_ATTEMPTS (R378): A write of BOOT_CTRL.CLEAR_ATTEMPTS with the key clears ATTEMPTS. -/
  | clearAttempts (who : Requester) (v : Word)
  /-- BOOT_IMG_GO (R370): A write of BOOT_IMG_CTRL.GO makes the ROM read the image from companion memory. -/
  | bootImgGo (who : Requester) (v : Word)
  /-- BOOT_IMAGE_READ_DONE (R429): The image read ends and the bundle is checked, setting STATE to verified or failed. -/
  | bootImageReadDone (err : Bool) (bundle : List Byte)
  /-- TAHR_VERIFIED (R371): Tahr verifies and measures the first firmware, and the chip reaches stage 1. -/
  | tahrVerified (readErr : Bool)
  /-- COMPANION_UP (R371): The Eland firmware runs with the Taith link up, the chip reaches stage 2 and ATTEMPTS clears. -/
  | companionUp
  /-- BOOT_WDT_EXPIRY (R377): BOOT_WDT expires before stage 2, and the start fails. -/
  | bootWdtExpiry
  /-- HERD_TRAINING_DONE (R372): A region's herd training completes, or fails. -/
  | herdTrainingDone (n : Rgn) (res : HerdResult)
  /-- FOLD_START_DONE (R372): The fold metadata is read and the field defect list applied, and the region reports stage 3. -/
  | foldStartDone (n : Rgn) (res : FoldResult)
  /-- NEAR_TRAINING_DONE (R375): A region's 12 near channels finish training, and migration begins under AUTO_MIGRATE. -/
  | nearTrainingDone (n : Rgn) (failed : BitVec 12)
  /-- MIGRATE (R375): A write of BOOT_RGN_CFG.MIGRATE starts a region's migration from the stand-in. -/
  | migrate (who : Requester) (v : Word)
  /-- MIGRATION_DONE (R375): The stand-in tiles are copied to the near tier, so requests switch over and the region reports stage 4. -/
  | migrationDone (n : Rgn)
  /-- PWRFAIL_N_FALL (R394): A fall of PWRFAIL_N places the power-fail hold, cuts to EMERG_CAP_W and starts the fold flushes. -/
  | pwrfailNFall
  /-- PWRFAIL_N_RISE (R394): A rise of PWRFAIL_N releases the hold, and held fold writes are acknowledged in order. -/
  | pwrfailNRise
  /-- COOLANT_OK_FALL (R395): A fall of COOLANT_OK applies the flow-loss cap. -/
  | coolantOkFall
  /-- COOLANT_READ (R395): The 10 ms coolant sensor read applies inlet derating, flow loss or its end, or a sensor fault. -/
  | coolantRead (res : Option (BitVec 16 × BitVec 16))
  /-- POWER_WINDOW (R387): Each 100 µs window ends, and the power manager applies the caps, ramp ceiling, throttle and ballast. -/
  | powerWindow (m : PowerSample)
  /-- PEAK_LIMIT (R387): Instantaneous power passes 1,060 W, and every region drops 50 mV in one fast change. -/
  | peakLimit
  /-- VOLTAGE_STEP_DONE (R382): A block-voltage step settles, and the power manager takes the next change. -/
  | voltageStepDone (n : Rgn)
  /-- THERMAL_TRIP (R396): A sensor reads 115 °C or above, so the chip places the hold, flushes the fold channels and writes a fatal record. -/
  | thermalTrip
  /-- TRIP_SHUTDOWN (R396): When the flushes end, or 25 ms after the trip, the other domains switch off and THERMTRIP_N is driven low. -/
  | tripShutdown
  /-- BLOCK_GATING (R384): A region has run no plan for GATE_TICKS, and its blocks are gated. -/
  | blockGating (n : Rgn)
  /-- DEEP_IDLE_ENTRY (R385): DEEP_TICKS pass with no command, and the chip enters deep idle. -/
  | deepIdleEntry
  /-- BLOCK_POWER_ON (R384): A block domain comes on, its store and registers are zeroed, its slots are emptied and its LFSRs seeded. -/
  | blockPowerOn (n : Rgn) (b : Blk)
  /-- PWR_RM_KICK (R397): A write of PWR_RM_KICK with the key restarts the rack-manager watchdog. -/
  | pwrRmKick (who : Requester) (v : Word)
  /-- RM_WDT_EXPIRY (R397): The rack-manager watchdog expires, RM_LOST is set and the hold begins. -/
  | rmWdtExpiry
  /-- RM_HOLD_EXPIRY (R397): RM_HOLD_TICKS pass after expiry, and the unattended profile is applied. -/
  | rmHoldExpiry
  /-- REFCLK_LOSS (R464): REFCLK_100M is lost, the links go down and local time stops. -/
  | refclkLoss
  /-- FAULT_REPORT (R400): A fault source is raised: the report gets a serial, is counted and takes its severity's actions. -/
  | faultReport (src : Fin 1024) (info : FaultInfo)
  /-- GRACE_EXPIRY (R407): A grace timer expires while PENDING is set, and with ESC the report escalates one severity. -/
  | graceExpiry (src : Fin 1024)
  /-- FLT_ACK (R408): A write of FLT_ACK with GO acknowledges a source and stops its timer. -/
  | fltAck (who : Requester) (addr : Nat) (v : Word)
  /-- FORCE (R410): A write of FLT_SRC_SEV.FORCE makes one forced report. -/
  | force (who : Requester) (addr : Nat) (v : Word)
  /-- ERR_PULSE_END (R411): 2 µs pass since the last pin report, and ERR_N follows ERR_PIN_CTRL.MODE. -/
  | errPulseEnd
  /-- FLT_RING_CFG (R413): A write of FLT_RING_CFG enables the fault ring, or is refused. -/
  | fltRingCfg (who : Requester) (v : Word)
  /-- KEPT_DRAIN (R415): Once the ring has room, the writer drains the kept records in source order with KEPT set. -/
  | keptDrain
  /-- EVENT_DELIVERY (R418): The controller writes the event record of the highest eligible source into a processor's queue. -/
  | eventDelivery (p : Fin 36)
  /-- PROCESSOR_INTERRUPT (R420): A processor's interrupt is raised for uncovered records by count, idle or timeout. -/
  | processorInterrupt (p : Fin 36)
  /-- IRQ_MOD_EXPIRY (R420): The oldest uncovered record has waited IRQ_Q_MOD.TICKS, and the interrupt is raised. -/
  | irqModExpiry (p : Fin 36)
  /-- IRQ_EN_SET (R422): A write of IRQ_EN_SET enables sources. -/
  | irqEnSet (who : Requester) (w : Fin 20) (v : Word)
  /-- IRQ_EN_CLR (R422): A write of IRQ_EN_CLR disables sources. -/
  | irqEnClr (who : Requester) (w : Fin 20) (v : Word)
  /-- IRQ_PEND_SET (R422): A write of IRQ_PEND_SET makes sources pending with ARRIVALS 0. -/
  | irqPendSet (who : Requester) (w : Fin 20) (v : Word)
  /-- IRQ_PEND_CLR (R422): A write of IRQ_PEND_CLR clears pending sources. -/
  | irqPendClr (who : Requester) (w : Fin 20) (v : Word)
  /-- IRQ_Q_CFG (R419): A write of IRQ_Q_CFG enables or disables a processor's event queue. -/
  | irqQCfg (who : Requester) (p : Fin 36) (v : Word)
  /-- GET_CERT (R432): Mailbox operation GET_CERT writes one identity certificate to the buffer. -/
  | getCert (who : Requester) (v : Word)
  /-- MR_EXTEND (R430): Mailbox operation MR_EXTEND extends measurement register 10 to 15. -/
  | mrExtend (who : Requester) (v : Word)
  /-- UNLOCK_CHALLENGE (R436): Mailbox operation UNLOCK_CHALLENGE writes a token body with a fresh challenge. -/
  | unlockChallenge (who : Requester) (v : Word)
  /-- UNLOCK (R437): Mailbox operation UNLOCK checks a signed debug token and applies its scope. -/
  | unlock (who : Requester) (v : Word)
  /-- LOCK (R438): Mailbox operation LOCK clears the debug scope at once. -/
  | lock (who : Requester) (v : Word)
  /-- SET_ENDPOINT_ID (R443): An MCTP control message from the bus owner assigns the endpoint ID. -/
  | setEndpointId (bus : MctpBus) (eid : Byte)
  /-- PLDM_DISCOVERY (R443): A PLDM base discovery command is answered. -/
  | pldmDiscovery (bus : MctpBus) (cmd : Byte)
  /-- GET_SENSOR_READING (R443): A PLDM monitoring request returns a numeric sensor value. -/
  | getSensorReading (bus : MctpBus) (sensor : Nat)
  /-- REQUEST_UPDATE (R443): PLDM RequestUpdate takes the staging store for a firmware update. -/
  | requestUpdate (bus : MctpBus)
  /-- FIRMWARE_TRANSFER (R443): A PLDM firmware transfer moves bundle data into the staging store, where it is checked as by FW_STAGE. -/
  | firmwareTransfer (bus : MctpBus) (off : Nat) (data : List Byte) (last : Bool)
  /-- ACTIVATE_FIRMWARE (R443): PLDM ActivateFirmware has the effect of FW_COMMIT 0. -/
  | activateFirmware (bus : MctpBus)
  /-- CANCEL_UPDATE (R443): PLDM CancelUpdate empties the staging store. -/
  | cancelUpdate (bus : MctpBus)
  /-- PLDM_UPDATE_TIMEOUT (R443): 60 s pass without a transfer, and the update releases the staging store. -/
  | pldmUpdateTimeout
  /-- VENDOR_KICK (R443): Vendor-defined MCTP command 0x01 writes its argument to PWR_RM_KICK. -/
  | vendorKick (bus : MctpBus) (arg : BitVec 16)
  /-- COOLANT_OK_RISE (R395): COOLANT_OK rises and starts the 1 s count after which flow loss ends and power rises under the ramp rule. -/
  | coolantOkRise
  /-- FOLD_FLUSH_TIMEOUT (R211): 25 ms pass after PWRFAIL_N falls with a fold flush not ended, so the fold channel source is raised and a deferred warm reset is released. -/
  | foldFlushTimeout (n : Rgn)
  /-- REGULATOR_REPORT (R381): The VDD_CORE regulator reports the new value over AVSBus, and the power manager then raises the block LDO. -/
  | regulatorReport (mv : Nat)
  /-- PAD (R331): A received Taith PAD header returns message credits of its CRED_CLASS. -/
  | pad (cr : Credit)
  /-- LANE_SIGNAL (R345): Signal appears on the lanes of an enabled Axium port in state DOWN, and the port starts training. -/
  | laneSignal (n : Rgn)
  /-- TAHR_MAILBOX_DONE (R425): A Tahr mailbox operation ends after its turn in Tahr's queue, so BUSY clears and RESULT is set. -/
  | tahrMailboxDone (rnd : List Byte)
  /-- SUPPLY_FALL (R465): The device's supplies fall, announced or not, and all state is lost except the fold contents and what is durable in flash. -/
  | supplyFall
  /-- BAD_READ (R445): A core's register read of a hole, a reserved range, a forbidden block or a bad width returns zero and raises fault source 0. -/
  | badRead (who : Requester) (addr width : Nat)
  deriving DecidableEq, Repr

end Sys2Proof
end

