-- ==== Sys2Proof/Decode.lean ====
section
/-!
DEFINITION. Commands as words. spec/opcode_table.json gives no row any bits: the commands are register accesses,
messages, packets, micro-ops and events, so no word spells one. The encodings that the spec does give (packets,
micro-ops, schedule entries, flits) are read by the meanings that take them.
-/

namespace Sys2Proof

/-- The command that a word spells by the table's bits: none, for no row gives bits. -/
def decodeTableWord (_nbits _w : Nat) : Option Instr := none

end Sys2Proof
end

