-- ==== Sys2Proof/Config.lean ====
section
/-!
DEFINITION. What the spec leaves open or what one part is manufactured with, as constants without a body: nothing in
Lean can evaluate them, and a claim is true whatever they are. Each is named in a row of the assumption log.
-/

namespace Sys2Proof.Config

/-- A fresh open value; the state's counter `free` gives each use its own argument (log entry 6). -/
opaque freeWord : Nat → Word
/-- Open bytes: what a tile reads as under a key that is not its own (R181, R182), an undefined window (R302). -/
opaque freeByte : Nat → Nat → Byte
/-- AES-256-XTS over the 4,096 bytes of a tile (R181), by the number of the key and the tweak: encryption and decryption. The spec
names IEEE 1619 and does not define the cipher (log entry 142). -/
opaque xtsEnc : Nat → Nat → BitVec 32768 → BitVec 32768
opaque xtsDec : Nat → Nat → BitVec 32768 → BitVec 32768
/-- The position of a page that a byte of a page block holds, for a CACHE_SIG (R226): the layout of a page is not in the image (log entry
85). -/
opaque pagePosition : List Byte → Nat → Nat
/-- A line of a tile, or a tile of a page, that an event finds bad where the spec does not say which (log entry 52). -/
opaque freeIndex : Nat → Nat
/-- The 464 parity bytes of an LDPC codeword (R196), whose code the spec does not define (log entry 143). -/
opaque ldpcParity : List Byte → List Byte
/-- Registers and accumulator entries after the ballast context has run (R391): free counter, cell, index. -/
opaque freeReg : Nat → Nat → Nat → BitVec 128
opaque freeAcc : Nat → Nat → Nat → BitVec 32
/-- The ballast context's cell record, part of Fjozar (R391). -/
opaque ballastRecord : List Byte
/-- A region's power in 0.1 W scaled to 0.60 V from a voltage code (R389): the law of scaling is not stated. -/
opaque scalePower : Nat → Nat → Nat
/-- An open result of an operation of a cell: the cell, the operation's code and the bits of all its inputs, so that equal
inputs give equal bits (R86, log entry 28). -/
opaque tableResult : Nat → Nat → List Nat → BitVec 32
/-- LFSR seed from chip-wide block index and position in the block (R79), before the exclusion of zero. -/
opaque lfsrSeedRaw : Nat → Nat → BitVec 32
/-- The fused defect map (R47): retired granules A and B of a cell of the chip; 96 or more means none. -/
opaque fusedGranule : Nat → Bool → Nat
/-- SHA-384 (R260, R429): the digest of a byte string. The spec names the function and does not define it. -/
opaque sha384Raw : List Byte → List Byte
/-- RSASSA-PSS verification with SHA-384: key, message digest, signature (R262, R428). -/
opaque rsaVerify : List Byte → List Byte → List Byte → Bool
/-- SLH-DSA-SHA2-192s verification: key, message digest, signature (R262, R428). -/
opaque slhVerify : List Byte → List Byte → List Byte → Bool
/-- Signatures made by Tahr's identity keys (R431, R433): key number, message, the state's free counter. -/
opaque identitySign : Nat → List Byte → Nat → List Byte
/-- The identity certificates (R432), by index. -/
opaque cert : Nat → List Byte
/-- Fused values (R426): the four root hashes, the debug-signer hash and the device ID. -/
opaque rootHash : Nat → List Byte
opaque debugSignerHash : List Byte
opaque deviceId : List Byte
/-- The two identity public keys, RSA then SLH, as manufactured (R431). -/
opaque identityKeysRaw : List Byte
/-- Anti-rollback counter and revocation bits as manufactured (R426, R427). -/
opaque fusedCounter : Nat
opaque fusedRevoke : BitVec 4
/-- The bundle that the flash holds in slot A (0) or B (1) when the board is first powered (R369). -/
opaque flashImage : Nat → List Byte

/-- The SHA-384 of Tahr's ROM and of the recovery firmware in it (R430). -/
opaque romHash : List Byte
opaque recoveryHash : List Byte

/-- The staging checks whose inputs the image format does not lay out (R149, R173, R232, R277; log entry
48): does this image pass? -/
opaque hiddenChecks : List Byte → Bool

/-- The IO layout that IO_SIG covers (R356), whose form the spec does not give: by IO_SIG, part, position and window 0 to 7, a
window's circuit, tier, first byte and limit in tiles, where it reaches another chip. -/
opaque ioWindow : List Byte → Nat → Nat → Nat → Option (Nat × Nat × Nat × Nat)

/-- Read-retry levels that the NAND's parameter page advertises (R206); at most 16 are used. -/
opaque retryLevels : Nat
/-- Blocks that carry a factory bad-block marker (R207): region, block. -/
opaque factoryBad : Nat → Nat → Bool

/-- The columns of the parity-check matrix of the SEC-DED code of a 128-bit word (Table 2.1, R45), bit 0 first. The spec gives
the code's kind and not its matrix (log entry 30). -/
opaque columnsRaw : List (BitVec 9)
/-- The direction in which the cell's LFSR shifts, and whether the first bit shifted out is the highest of the 16 fresh bits
(R78): the spec gives the polynomial and neither of these (log entry 30). -/
opaque lfsrLeft : Bool
opaque lfsrHighFirst : Bool

/-- A byte string cut or padded to `n` bytes. -/
def fit (n : Nat) (l : List Byte) : List Byte := (l ++ List.replicate n 0).take n

/-- What a tile encrypted under key `was` decrypts to under key `now`; key 0 stands for no encryption. -/
def recipher (was now tweak : Nat) (v : BitVec 32768) : BitVec 32768 :=
  let c := if was = 0 then v else xtsEnc was tweak v
  if now = 0 then c else xtsDec now tweak c

/-- SHA-384 as a function to 48 bytes. -/
def sha384 (l : List Byte) : List Byte := fit 48 (sha384Raw l)

/-- The identity public keys in the encoding of Table 10.5: 388 bytes of RSA and 48 of SLH. -/
def identityKeys : List Byte := fit 436 identityKeysRaw
/-- The identity hash (R431). -/
def identityHash : List Byte := sha384 identityKeys

/-! ### The SEC-DED code (R45) -/

def weight (v : BitVec 9) : Nat := ((List.range 9).filter v.getLsbD).length
/-- Distinct columns of odd weight, none of them a check bit's own: every single error is told apart, and a double error from
every single one. -/
def columnsOk (l : List (BitVec 9)) : Bool := l.length == 128 && decide l.Nodup && l.all fun v => weight v % 2 == 1 && decide (3 ≤ weight v)
def standardColumns : List (BitVec 9) :=
  (((List.range 512).map (BitVec.ofNat 9)).filter fun v => weight v % 2 == 1 && decide (3 ≤ weight v)).take 128
def columns : List (BitVec 9) := if columnsOk columnsRaw then columnsRaw else standardColumns

/-- The nine check bits of a word. -/
def check (v : BitVec 128) : BitVec 9 :=
  columns.zipIdx.foldl (fun k p => if v.getLsbD p.2 then k ^^^ p.1 else k) 0

/-- The word that a read with the check bits `k` corrects to: one data bit, one check bit or nothing is wrong; none where the
error cannot be corrected. -/
def checkFix (v : BitVec 128) (k : BitVec 9) : Option (BitVec 128) :=
  let syn := check v ^^^ k
  if weight syn ≤ 1 then some v
  else (columns.zipIdx.find? fun p => p.1 == syn).map fun p => v ^^^ BitVec.twoPow 128 p.2

/-! ### The LFSR of a cell (R78) -/

/-- One step of the 32-bit Galois LFSR with polynomial x^32 + x^22 + x^2 + x + 1: the bit shifted out and the state after it. -/
def lfsrStep (v : BitVec 32) : Bool × BitVec 32 :=
  if lfsrLeft then (v.msb, if v.msb then (v <<< 1) ^^^ 0x00400007#32 else v <<< 1)
  else (v.getLsbD 0, if v.getLsbD 0 then (v >>> 1) ^^^ 0x80200003#32 else v >>> 1)

/-- `n` bits shifted out, first bit first, and the state after them. -/
def lfsrRun : Nat → BitVec 32 → List Bool × BitVec 32
  | 0, v => ([], v)
  | n + 1, v =>
    let r := lfsrRun n (lfsrStep v).2
    ((lfsrStep v).1 :: r.1, r.2)

/-- The 16 fresh bits of a draw, and the LFSR after it. -/
def lfsrBits (v : BitVec 32) : Nat :=
  let bs := (lfsrRun 16 v).1
  (if lfsrHighFirst then bs else bs.reverse).foldl (fun n b => 2 * n + b.toNat) 0
def lfsrNext (v : BitVec 32) : BitVec 32 := (lfsrRun 16 v).2

/-- The LFSR seed of a cell (R79): never zero. -/
def lfsrSeed (blk pos : Nat) : BitVec 32 := if lfsrSeedRaw blk pos = 0 then 1 else lfsrSeedRaw blk pos

end Sys2Proof.Config
end

