-- ==== Sys2Proof/Machine/Fields.lean ====
section
/-!
DEFINITION. Register fields and their access types (R5, Table 0.1; R6), and reading and writing one field of a
64-bit register.
-/

namespace Sys2Proof.Machine

/-- Access types of Table 0.1. -/
inductive Acc where
  | ro | rw | wo | w1s | w1c | rc
  deriving DecidableEq, Repr

/-- One field of a register: its lowest bit, width, access type and reset value. -/
structure Fld where
  lo : Nat
  w : Nat
  acc : Acc
  reset : Nat
  deriving DecidableEq, Repr

/-- One row of the register index: `count` registers `stride` bytes apart. -/
structure RegDesc where
  name : String
  base : Nat
  stride : Nat
  count : Nat
  fields : List Fld
  deriving DecidableEq, Repr

/-- Base address of region `n` (Table 19.1). -/
def rgnBase (n : Fin 16) : Nat := 0x01000000 + n.val * 0x00100000

/-- The bits of a field, in place. -/
def Fld.mask (f : Fld) : Word := (BitVec.ofNat 64 (2 ^ f.w - 1)) <<< f.lo

/-- The value a register holds in a field. -/
def Fld.get (f : Fld) (v : Word) : Nat := (v.toNat >>> f.lo) % 2 ^ f.w

/-- The register with a field replaced (the value is cut to the field's width). -/
def Fld.put (f : Fld) (v : Word) (x : Nat) : Word :=
  (v &&& ~~~ f.mask) ||| (BitVec.ofNat 64 (x % 2 ^ f.w) <<< f.lo)

/-- The union of the masks of the fields of one access type. -/
def accMask (a : Acc) : List Fld → Word
  | [] => 0
  | f :: fs => if f.acc = a then f.mask ||| accMask a fs else accMask a fs

/-- The reset value of a register from its fields. -/
def fieldsReset : List Fld → Word
  | [] => 0
  | f :: fs => (BitVec.ofNat 64 f.reset <<< f.lo) ||| fieldsReset fs

/-- One write of `v` to a register holding `old` (R5, R446): RW fields take the value, W1S and W1C act on their 1
bits, RO, RC and WO fields and reserved bits ignore it (R6). -/
def writeFields (fs : List Fld) (old v : Word) : Word :=
  let rw := accMask .rw fs
  let keep := old &&& ~~~ rw
  ((keep ||| (v &&& rw)) ||| (v &&& accMask .w1s fs)) &&& ~~~ (v &&& accMask .w1c fs)

/-- What a read of RC fields leaves behind (R447). -/
def clearRc (fs : List Fld) (old : Word) : Word := old &&& ~~~ accMask .rc fs

end Sys2Proof.Machine
end

