-- ==== Sys2Proof/Machine/Regs.lean ====
section
/-!
DEFINITION. The register map of spec/19_registers.md (Tables 19.11 and 19.12) with the fields of every register's
own table: one constant per field (bits, access type, reset value) and one address function per register.
A reset value the spec marks x, or makes depend on the index, is 0 here; `regReset` in Machine/RegMap.lean adds
the index-dependent ones. Reserved bits are no field: they read as zero (R6).
-/

namespace Sys2Proof.Machine.Reg

/-! CHIP_PART: Table 19.7, 19_registers.md -/
def CHIP_PART : Nat := 0x0
def CHIP_PART_PART : Fld := ⟨0, 16, .ro, 0x1016⟩
def CHIP_PART_STEPPING : Fld := ⟨16, 8, .ro, 0xa1⟩
def CHIP_PART_NEAR_GIB : Fld := ⟨32, 16, .ro, 0x180⟩
/-! CHIP_VENDOR: Table 19.8, 19_registers.md -/
def CHIP_VENDOR : Nat := 0x8
def CHIP_VENDOR_ENTERPRISE : Fld := ⟨0, 32, .ro, 0x13634⟩
/-! CHIP_TIME: Table 19.9, 19_registers.md -/
def CHIP_TIME : Nat := 0x10
def CHIP_TIME_TICKS : Fld := ⟨0, 64, .ro, 0⟩
/-! FAB_CHIP_ID: Table 14.7, 14_axium.md -/
def FAB_CHIP_ID : Nat := 0x100
def FAB_CHIP_ID_ID : Fld := ⟨0, 18, .rw, 0⟩
def FAB_CHIP_ID_VALID : Fld := ⟨18, 1, .rw, 0⟩
def FAB_CHIP_ID_LOCKED : Fld := ⟨19, 1, .ro, 0⟩
/-! PWR_STATUS: Table 16.7, 16_power.md -/
def PWR_STATUS : Nat := 0x10000
def PWR_STATUS_PROFILE : Fld := ⟨0, 16, .ro, 0⟩
def PWR_STATUS_UNATTENDED : Fld := ⟨16, 1, .ro, 0⟩
def PWR_STATUS_RM_LOST : Fld := ⟨17, 1, .ro, 0⟩
def PWR_STATUS_DEEP_IDLE : Fld := ⟨18, 1, .ro, 0⟩
def PWR_STATUS_HOLD : Fld := ⟨19, 1, .ro, 0⟩
def PWR_STATUS_LIMITS : Fld := ⟨20, 8, .ro, 0⟩
def PWR_STATUS_PWRFAIL : Fld := ⟨28, 1, .ro, 0⟩
def PWR_STATUS_COOLANT_OK : Fld := ⟨29, 1, .ro, 0⟩
def PWR_STATUS_SENSOR_ERR : Fld := ⟨30, 1, .w1c, 0⟩
/-! PWR_MEAS: Table 16.8, 16_power.md -/
def PWR_MEAS : Nat := 0x10008
def PWR_MEAS_WINDOW_W : Fld := ⟨0, 16, .ro, 0⟩
def PWR_MEAS_MEAN10_W : Fld := ⟨16, 16, .ro, 0⟩
def PWR_MEAS_CEILING_W : Fld := ⟨32, 16, .ro, 0⟩
def PWR_MEAS_FLOOR_W : Fld := ⟨48, 16, .ro, 0⟩
/-! PWR_COOLANT: Table 16.9, 16_power.md -/
def PWR_COOLANT : Nat := 0x10010
def PWR_COOLANT_INLET : Fld := ⟨0, 16, .ro, 0⟩
def PWR_COOLANT_FLOW : Fld := ⟨16, 16, .ro, 0⟩
def PWR_COOLANT_FLOW_LOSS : Fld := ⟨32, 1, .ro, 0⟩
def PWR_COOLANT_STALE : Fld := ⟨33, 1, .ro, 0⟩
/-! PWR_COOL_CFG: Table 16.10, 16_power.md -/
def PWR_COOL_CFG : Nat := 0x10018
def PWR_COOL_CFG_ADDR : Fld := ⟨0, 7, .rw, 0x2a⟩
def PWR_COOL_CFG_ENABLE : Fld := ⟨7, 1, .rw, 1⟩
/-! PWR_RM_KICK: Table 16.11, 16_power.md -/
def PWR_RM_KICK : Nat := 0x10020
def PWR_RM_KICK_KEY : Fld := ⟨0, 16, .wo, 0⟩
/-! PWR_RM_WDT: Table 16.12, 16_power.md -/
def PWR_RM_WDT : Nat := 0x10028
def PWR_RM_WDT_REMAIN : Fld := ⟨0, 32, .ro, 0⟩
def PWR_RM_WDT_RUNNING : Fld := ⟨32, 1, .ro, 0⟩
/-! PWR_EVENTS: Table 16.13, 16_power.md -/
def PWR_EVENTS : Nat := 0x10030
def PWR_EVENTS_PWRFAIL : Fld := ⟨0, 16, .rc, 0⟩
def PWR_EVENTS_FLOW_LOSS : Fld := ⟨16, 16, .rc, 0⟩
def PWR_EVENTS_THROTTLE : Fld := ⟨32, 16, .rc, 0⟩
def PWR_EVENTS_PEAK : Fld := ⟨48, 16, .rc, 0⟩
/-! PWR_RGN: Table 16.14, 16_power.md -/
def PWR_RGN (i : Nat) : Nat := 0x10100 + 8 * i
def PWR_RGN_V_SET : Fld := ⟨0, 6, .ro, 0x19⟩
def PWR_RGN_V_ACT : Fld := ⟨6, 6, .ro, 0x19⟩
def PWR_RGN_POWER : Fld := ⟨12, 12, .ro, 0⟩
def PWR_RGN_TEMP : Fld := ⟨24, 12, .ro, 0⟩
def PWR_RGN_THROTTLED : Fld := ⟨36, 1, .ro, 0⟩
def PWR_RGN_SERVICE_ON : Fld := ⟨37, 1, .ro, 1⟩
/-! PWR_CHIP_TEMP: Table 16.15, 16_power.md -/
def PWR_CHIP_TEMP : Nat := 0x10180
def PWR_CHIP_TEMP_CHIP : Fld := ⟨0, 12, .ro, 0⟩
def PWR_CHIP_TEMP_HBM : Fld := ⟨12, 12, .ro, 0⟩
def PWR_CHIP_TEMP_HOTTEST : Fld := ⟨24, 12, .ro, 0⟩
/-! IRQ_EN_SET: Table 17.20, 17_faults.md -/
def IRQ_EN_SET (i : Nat) : Nat := 0x20100 + 8 * i
def IRQ_EN_SET_BITS : Fld := ⟨0, 64, .w1s, 0⟩
/-! IRQ_EN_CLR: Table 17.20, 17_faults.md -/
def IRQ_EN_CLR (i : Nat) : Nat := 0x20200 + 8 * i
def IRQ_EN_CLR_BITS : Fld := ⟨0, 64, .w1c, 0⟩
/-! IRQ_PEND_SET: Table 17.20, 17_faults.md -/
def IRQ_PEND_SET (i : Nat) : Nat := 0x20300 + 8 * i
def IRQ_PEND_SET_BITS : Fld := ⟨0, 64, .w1s, 0⟩
/-! IRQ_PEND_CLR: Table 17.20, 17_faults.md -/
def IRQ_PEND_CLR (i : Nat) : Nat := 0x20400 + 8 * i
def IRQ_PEND_CLR_BITS : Fld := ⟨0, 64, .w1c, 0⟩
/-! IRQ_Q_CFG: Table 17.23, 17_faults.md -/
def IRQ_Q_CFG (i : Nat) : Nat := 0x20800 + 32 * i
def IRQ_Q_CFG_SIZE : Fld := ⟨0, 4, .rw, 4⟩
def IRQ_Q_CFG_BASE : Fld := ⟨12, 36, .rw, 0⟩
def IRQ_Q_CFG_ENABLE : Fld := ⟨63, 1, .rw, 0⟩
/-! IRQ_Q_PTR: Table 17.24, 17_faults.md -/
def IRQ_Q_PTR (i : Nat) : Nat := 0x20808 + 32 * i
def IRQ_Q_PTR_HEAD : Fld := ⟨0, 12, .rw, 0⟩
def IRQ_Q_PTR_TAIL : Fld := ⟨16, 12, .ro, 0⟩
def IRQ_Q_PTR_PHASE : Fld := ⟨28, 1, .ro, 1⟩
/-! IRQ_Q_CTRL: Table 17.25, 17_faults.md -/
def IRQ_Q_CTRL (i : Nat) : Nat := 0x20810 + 32 * i
def IRQ_Q_CTRL_THRESHOLD : Fld := ⟨0, 4, .rw, 0⟩
def IRQ_Q_CTRL_LEVEL : Fld := ⟨4, 4, .rw, 0⟩
def IRQ_Q_CTRL_IDLE : Fld := ⟨8, 1, .rw, 0⟩
def IRQ_Q_CTRL_VECTOR : Fld := ⟨16, 8, .rw, 0⟩
/-! IRQ_Q_MOD: Table 17.26, 17_faults.md -/
def IRQ_Q_MOD (i : Nat) : Nat := 0x20818 + 32 * i
def IRQ_Q_MOD_COUNT : Fld := ⟨0, 16, .rw, 1⟩
def IRQ_Q_MOD_TICKS : Fld := ⟨16, 32, .rw, 0x3e8⟩
/-! IRQ_SRC_CFG: Table 17.21, 17_faults.md -/
def IRQ_SRC_CFG (i : Nat) : Nat := 0x21000 + 8 * i
def IRQ_SRC_CFG_PRIO : Fld := ⟨0, 4, .rw, 8⟩
def IRQ_SRC_CFG_TARGET : Fld := ⟨4, 6, .rw, 0⟩
/-! IRQ_SRC_CNT: Table 17.22, 17_faults.md -/
def IRQ_SRC_CNT (i : Nat) : Nat := 0x24000 + 8 * i
def IRQ_SRC_CNT_COUNT : Fld := ⟨0, 8, .rc, 0⟩
def IRQ_SRC_CNT_LATCHED : Fld := ⟨8, 1, .ro, 0⟩
/-! FLT_STATUS: Table 17.9, 17_faults.md -/
def FLT_STATUS : Nat := 0x30000
def FLT_STATUS_NEXT_SERIAL : Fld := ⟨0, 32, .ro, 0⟩
def FLT_STATUS_ANY_PENDING : Fld := ⟨32, 1, .ro, 0⟩
def FLT_STATUS_FATAL : Fld := ⟨33, 1, .ro, 0⟩
/-! FLT_RING_CFG: Table 17.10, 17_faults.md -/
def FLT_RING_CFG : Nat := 0x30008
def FLT_RING_CFG_REGION : Fld := ⟨0, 4, .rw, 0⟩
def FLT_RING_CFG_SIZE : Fld := ⟨4, 5, .rw, 8⟩
def FLT_RING_CFG_BASE : Fld := ⟨12, 36, .rw, 0⟩
def FLT_RING_CFG_ENABLE : Fld := ⟨63, 1, .rw, 0⟩
/-! FLT_RING_PTR: Table 17.11, 17_faults.md -/
def FLT_RING_PTR : Nat := 0x30010
def FLT_RING_PTR_HEAD : Fld := ⟨0, 16, .rw, 0⟩
def FLT_RING_PTR_TAIL : Fld := ⟨16, 16, .ro, 0⟩
def FLT_RING_PTR_PHASE : Fld := ⟨32, 1, .ro, 1⟩
def FLT_RING_PTR_THRESH : Fld := ⟨48, 16, .rw, 0x40⟩
/-! FLT_RING_STAT: Table 17.12, 17_faults.md -/
def FLT_RING_STAT : Nat := 0x30018
def FLT_RING_STAT_OVERFLOW : Fld := ⟨0, 32, .rc, 0⟩
def FLT_RING_STAT_KEPT_SRCS : Fld := ⟨32, 11, .ro, 0⟩
/-! FLT_ACK: Table 17.13, 17_faults.md -/
def FLT_ACK : Nat := 0x30020
def FLT_ACK_SOURCE : Fld := ⟨0, 10, .wo, 0⟩
def FLT_ACK_GO : Fld := ⟨10, 1, .wo, 0⟩
/-! FLT_GRACE: Table 17.14, 17_faults.md -/
def FLT_GRACE (i : Nat) : Nat := 0x30040 + 8 * i
def FLT_GRACE_TICKS : Fld := ⟨0, 32, .rw, 0⟩
def FLT_GRACE_ESC : Fld := ⟨32, 1, .rw, 0⟩
/-! ERR_PIN_CTRL: Table 17.15, 17_faults.md -/
def ERR_PIN_CTRL : Nat := 0x30060
def ERR_PIN_CTRL_MODE : Fld := ⟨0, 2, .rw, 0⟩
def ERR_PIN_CTRL_LEVEL : Fld := ⟨2, 1, .rw, 1⟩
def ERR_PIN_CTRL_PULSE : Fld := ⟨3, 1, .ro, 0⟩
def ERR_PIN_CTRL_PIN : Fld := ⟨4, 1, .ro, 1⟩
/-! FLT_FATAL: Table 17.16, 17_faults.md -/
def FLT_FATAL (i : Nat) : Nat := 0x30100 + 8 * i
def FLT_FATAL_RECORD : Fld := ⟨0, 64, .ro, 0⟩
/-! FLT_SRC_SEV: Table 17.17, 17_faults.md -/
def FLT_SRC_SEV (i : Nat) : Nat := 0x31000 + 8 * i
def FLT_SRC_SEV_SEV : Fld := ⟨0, 3, .rw, 0⟩
def FLT_SRC_SEV_PIN : Fld := ⟨3, 1, .rw, 0⟩
def FLT_SRC_SEV_FIXED : Fld := ⟨4, 1, .ro, 0⟩
def FLT_SRC_SEV_FORCE : Fld := ⟨5, 1, .wo, 0⟩
/-! FLT_SRC_STAT: Table 17.18, 17_faults.md -/
def FLT_SRC_STAT (i : Nat) : Nat := 0x33000 + 8 * i
def FLT_SRC_STAT_PENDING : Fld := ⟨0, 1, .ro, 0⟩
def FLT_SRC_STAT_EFF : Fld := ⟨1, 3, .ro, 0⟩
def FLT_SRC_STAT_ESCALATED : Fld := ⟨4, 1, .ro, 0⟩
def FLT_SRC_STAT_KEPT : Fld := ⟨5, 2, .ro, 0⟩
def FLT_SRC_STAT_COUNT : Fld := ⟨8, 8, .rc, 0⟩
def FLT_SRC_STAT_LOST : Fld := ⟨16, 16, .rc, 0⟩
def FLT_SRC_STAT_LAST_SERIAL : Fld := ⟨32, 32, .ro, 0⟩
/-! TAHR_STATUS: Table 18.8, 18_security.md -/
def TAHR_STATUS : Nat := 0x40000
def TAHR_STATUS_COUNTER : Fld := ⟨0, 7, .ro, 0⟩
def TAHR_STATUS_REVOKED : Fld := ⟨8, 4, .ro, 0⟩
def TAHR_STATUS_SIGNER : Fld := ⟨12, 2, .ro, 0⟩
def TAHR_STATUS_SEAL_PENDING : Fld := ⟨14, 1, .ro, 0⟩
def TAHR_STATUS_STAGED : Fld := ⟨15, 1, .ro, 0⟩
def TAHR_STATUS_PLDM_OWNED : Fld := ⟨16, 1, .ro, 0⟩
def TAHR_STATUS_UNLOCKED : Fld := ⟨17, 1, .ro, 0⟩
def TAHR_STATUS_SCOPE : Fld := ⟨18, 8, .ro, 0⟩
/-! TAHR_MBX_CMD: Table 18.9, 18_security.md -/
def TAHR_MBX_CMD : Nat := 0x40008
def TAHR_MBX_CMD_OP : Fld := ⟨0, 8, .rw, 0⟩
def TAHR_MBX_CMD_INDEX : Fld := ⟨8, 4, .rw, 0⟩
def TAHR_MBX_CMD_GO : Fld := ⟨12, 1, .wo, 0⟩
def TAHR_MBX_CMD_BUSY : Fld := ⟨13, 1, .ro, 0⟩
def TAHR_MBX_CMD_RESULT : Fld := ⟨16, 4, .ro, 0⟩
/-! TAHR_MBX_ARG: Table 18.10, 18_security.md -/
def TAHR_MBX_ARG : Nat := 0x40010
def TAHR_MBX_ARG_BUF : Fld := ⟨0, 64, .rw, 0⟩
/-! TAHR_MBX_RESP: Table 18.11, 18_security.md -/
def TAHR_MBX_RESP : Nat := 0x40018
def TAHR_MBX_RESP_LENGTH : Fld := ⟨0, 32, .ro, 0⟩
/-! TAHR_MR: Table 18.12, 18_security.md -/
def TAHR_MR (i : Nat) : Nat := 0x40100 + 8 * i
def TAHR_MR_BYTES : Fld := ⟨0, 64, .ro, 0⟩
/-! TAHR_ID_HASH: Table 18.13, 18_security.md -/
def TAHR_ID_HASH (i : Nat) : Nat := 0x40400 + 8 * i
def TAHR_ID_HASH_BYTES : Fld := ⟨0, 64, .ro, 0⟩
/-! TAHR_DEV_ID: Table 18.13, 18_security.md -/
def TAHR_DEV_ID (i : Nat) : Nat := 0x40430 + 8 * i
def TAHR_DEV_ID_BYTES : Fld := ⟨0, 64, .ro, 0⟩
/-! TAITH_STATUS: Table 13.3, 13_taith.md -/
def TAITH_STATUS : Nat := 0x50000
def TAITH_STATUS_LINK_UP : Fld := ⟨0, 1, .ro, 0⟩
def TAITH_STATUS_LOST : Fld := ⟨1, 1, .ro, 0⟩
def TAITH_STATUS_WIDTH : Fld := ⟨2, 2, .ro, 0⟩
def TAITH_STATUS_RATE : Fld := ⟨4, 1, .ro, 0⟩
def TAITH_STATUS_LOSSES : Fld := ⟨16, 16, .rc, 0⟩
def TAITH_STATUS_RETRIES : Fld := ⟨32, 32, .rc, 0⟩
/-! TAITH_WIN_BASE: Table 13.4, 13_taith.md -/
def TAITH_WIN_BASE : Nat := 0x50008
def TAITH_WIN_BASE_BASE : Fld := ⟨32, 32, .rw, 0⟩
/-! TAITH_KA: Table 13.5, 13_taith.md -/
def TAITH_KA : Nat := 0x50010
def TAITH_KA_TIMEOUT : Fld := ⟨0, 32, .rw, 0x2710⟩
def TAITH_KA_PERIOD : Fld := ⟨32, 32, .rw, 0x3e8⟩
/-! TAITH_LOSS_CFG: Table 13.6, 13_taith.md -/
def TAITH_LOSS_CFG : Nat := 0x50018
def TAITH_LOSS_CFG_PARK_TICKS : Fld := ⟨0, 32, .rw, 0xbebc200⟩
def TAITH_LOSS_CFG_TTL_MS : Fld := ⟨32, 32, .rw, 0x36ee80⟩
/-! TAITH_LOSS_STATUS: Table 13.7, 13_taith.md -/
def TAITH_LOSS_STATUS : Nat := 0x50020
def TAITH_LOSS_STATUS_PARKED : Fld := ⟨0, 19, .ro, 0⟩
def TAITH_LOSS_STATUS_PARK_FAIL : Fld := ⟨32, 19, .ro, 0⟩
/-! TAITH_RESUME: Table 13.8, 13_taith.md -/
def TAITH_RESUME : Nat := 0x50028
def TAITH_RESUME_PARTITION : Fld := ⟨0, 16, .wo, 0⟩
def TAITH_RESUME_REPLAYING : Fld := ⟨16, 16, .ro, 0⟩
/-! TAITH_SHADOW: Table 13.9, 13_taith.md -/
def TAITH_SHADOW (i : Nat) : Nat := 0x50100 + 8 * i
def TAITH_SHADOW_RECORDS : Fld := ⟨0, 14, .ro, 0⟩
/-! BOOT_STATUS: Table 15.6, 15_bringup.md -/
def BOOT_STATUS : Nat := 0x60000
def BOOT_STATUS_CHIP_STAGE : Fld := ⟨0, 3, .ro, 0⟩
def BOOT_STATUS_MINIMAL : Fld := ⟨3, 1, .ro, 0⟩
def BOOT_STATUS_SRC : Fld := ⟨4, 1, .ro, 0⟩
def BOOT_STATUS_RECOVER : Fld := ⟨5, 1, .ro, 0⟩
def BOOT_STATUS_SLOT : Fld := ⟨6, 1, .ro, 0⟩
def BOOT_STATUS_ATTEMPTS : Fld := ⟨8, 2, .ro, 0⟩
def BOOT_STATUS_REASON : Fld := ⟨16, 8, .ro, 0⟩
def BOOT_STATUS_WARM_RESETS : Fld := ⟨32, 16, .ro, 0⟩
/-! BOOT_CTRL: Table 15.7, 15_bringup.md -/
def BOOT_CTRL : Nat := 0x60008
def BOOT_CTRL_WARM : Fld := ⟨0, 1, .wo, 0⟩
def BOOT_CTRL_CLEAR_ATTEMPTS : Fld := ⟨1, 1, .wo, 0⟩
def BOOT_CTRL_KEY : Fld := ⟨8, 8, .wo, 0⟩
/-! BOOT_WDT: Table 15.8, 15_bringup.md -/
def BOOT_WDT : Nat := 0x60010
def BOOT_WDT_TICKS : Fld := ⟨0, 32, .ro, 0xbebc200⟩
def BOOT_WDT_ELAPSED : Fld := ⟨32, 32, .ro, 0⟩
/-! BOOT_IMG_ADDR: Table 15.9, 15_bringup.md -/
def BOOT_IMG_ADDR : Nat := 0x60018
def BOOT_IMG_ADDR_ADDR : Fld := ⟨12, 52, .rw, 0⟩
/-! BOOT_IMG_CTRL: Table 15.10, 15_bringup.md -/
def BOOT_IMG_CTRL : Nat := 0x60020
def BOOT_IMG_CTRL_TILES : Fld := ⟨0, 11, .rw, 0⟩
def BOOT_IMG_CTRL_GO : Fld := ⟨16, 1, .wo, 0⟩
def BOOT_IMG_CTRL_STATE : Fld := ⟨17, 2, .ro, 0⟩
/-! BOOT_RGN: Table 15.11, 15_bringup.md -/
def BOOT_RGN (i : Nat) : Nat := 0x60040 + 8 * i
def BOOT_RGN_STAGE : Fld := ⟨0, 3, .ro, 0⟩
def BOOT_RGN_HERD_OK : Fld := ⟨3, 1, .ro, 0⟩
def BOOT_RGN_NEAR_OK : Fld := ⟨4, 1, .ro, 0⟩
def BOOT_RGN_FOLD_READY : Fld := ⟨5, 1, .ro, 0⟩
def BOOT_RGN_JOINED : Fld := ⟨6, 1, .ro, 0⟩
def BOOT_RGN_FAILED : Fld := ⟨7, 1, .ro, 0⟩
def BOOT_RGN_STANDIN : Fld := ⟨8, 1, .ro, 0⟩
def BOOT_RGN_MIGRATING : Fld := ⟨9, 1, .ro, 0⟩
def BOOT_RGN_REASON : Fld := ⟨16, 8, .ro, 0⟩
def BOOT_RGN_NEAR_FAIL : Fld := ⟨24, 12, .ro, 0⟩
/-! BOOT_RGN_CFG: Table 15.12, 15_bringup.md -/
def BOOT_RGN_CFG : Nat := 0x600c0
def BOOT_RGN_CFG_STANDIN_GIB : Fld := ⟨0, 5, .rw, 8⟩
def BOOT_RGN_CFG_AUTO_MIGRATE : Fld := ⟨5, 1, .rw, 1⟩
def BOOT_RGN_CFG_MIGRATE : Fld := ⟨16, 16, .wo, 0⟩
/-! MGT_RING_CFG: Table 11.10, 11_commands.md -/
def MGT_RING_CFG (i : Nat) : Nat := 0x60100 + 32 * i
def MGT_RING_CFG_LOC : Fld := ⟨0, 2, .rw, 0⟩
def MGT_RING_CFG_SIZE : Fld := ⟨2, 4, .rw, 0⟩
def MGT_RING_CFG_BASE : Fld := ⟨12, 36, .rw, 0⟩
def MGT_RING_CFG_ENABLE : Fld := ⟨63, 1, .rw, 0⟩
/-! MGT_RING_HEAD: Table 11.11, 11_commands.md -/
def MGT_RING_HEAD (i : Nat) : Nat := 0x60108 + 32 * i
def MGT_RING_HEAD_INDEX : Fld := ⟨0, 14, .ro, 0⟩
/-! MGT_RING_TAIL: Table 11.12, 11_commands.md -/
def MGT_RING_TAIL (i : Nat) : Nat := 0x60110 + 32 * i
def MGT_RING_TAIL_INDEX : Fld := ⟨0, 14, .rw, 0⟩
def MGT_RING_TAIL_PHASE : Fld := ⟨14, 1, .ro, 0⟩
/-! MGT_RING_STAT: Table 11.13, 11_commands.md -/
def MGT_RING_STAT (i : Nat) : Nat := 0x60118 + 32 * i
def MGT_RING_STAT_HELD : Fld := ⟨0, 1, .ro, 0⟩
def MGT_RING_STAT_HOLD_REASON : Fld := ⟨1, 3, .ro, 0⟩
def MGT_RING_STAT_DB_ERR : Fld := ⟨4, 1, .w1c, 0⟩
def MGT_RING_STAT_FETCH_ERR : Fld := ⟨5, 1, .w1c, 0⟩
def MGT_RING_STAT_CFG_ERR : Fld := ⟨6, 1, .w1c, 0⟩
def MGT_RING_STAT_PENDING : Fld := ⟨16, 14, .ro, 0⟩
/-! MGT_CQ_MOD: Table 11.14, 11_commands.md -/
def MGT_CQ_MOD : Nat := 0x60160
def MGT_CQ_MOD_COUNT : Fld := ⟨0, 16, .rw, 1⟩
def MGT_CQ_MOD_TICKS : Fld := ⟨16, 32, .rw, 0x3e8⟩
/-! BAR_CFG: Table 5.17, 05_sequencer.md -/
def BAR_CFG (i : Nat) : Nat := 0x70000 + 16 * i
def BAR_CFG_MEMBERS : Fld := ⟨0, 16, .rw, 0⟩
def BAR_CFG_PARTITION : Fld := ⟨16, 4, .rw, 0⟩
def BAR_CFG_ENABLE : Fld := ⟨20, 1, .rw, 0⟩
/-! BAR_STATE: Table 5.18, 05_sequencer.md -/
def BAR_STATE (i : Nat) : Nat := 0x70008 + 16 * i
def BAR_STATE_ARRIVED : Fld := ⟨0, 16, .ro, 0⟩
def BAR_STATE_GEN : Fld := ⟨16, 16, .ro, 0⟩
def BAR_STATE_BROKEN : Fld := ⟨32, 1, .w1c, 0⟩
def BAR_STATE_FORCE_RELEASE : Fld := ⟨33, 1, .wo, 0⟩
/-! RGN_INFO: Table 19.10, 19_registers.md -/
def RGN_INFO (n : Fin 16) : Nat := rgnBase n + 0x0
def RGN_INFO_REGION : Fld := ⟨0, 4, .ro, 0⟩
def RGN_INFO_ASSIGNED : Fld := ⟨4, 1, .ro, 0⟩
def RGN_INFO_PARTITION : Fld := ⟨5, 4, .ro, 0⟩
def RGN_INFO_LEAD : Fld := ⟨9, 1, .ro, 0⟩
/-! RGN_RATE: Table 2.9, 02_array.md -/
def RGN_RATE (n : Fin 16) : Nat := rgnBase n + 0x100
def RGN_RATE_STEPS : Fld := ⟨0, 32, .ro, 0⟩
def RGN_RATE_WINDOWS : Fld := ⟨32, 16, .ro, 0⟩
/-! RGN_BLOCK_STATE: Table 2.10, 02_array.md -/
def RGN_BLOCK_STATE (n : Fin 16) : Nat := rgnBase n + 0x108
def RGN_BLOCK_STATE_STATE : Fld := ⟨0, 18, .ro, 0⟩
def RGN_BLOCK_STATE_DEGRADED : Fld := ⟨18, 1, .ro, 0⟩
def RGN_BLOCK_STATE_QUARANTINED : Fld := ⟨19, 1, .ro, 0⟩
/-! RGN_DEFECT_SEL: Table 2.11, 02_array.md -/
def RGN_DEFECT_SEL (n : Fin 16) : Nat := rgnBase n + 0x110
def RGN_DEFECT_SEL_BLOCK : Fld := ⟨0, 4, .rw, 0⟩
def RGN_DEFECT_SEL_X : Fld := ⟨4, 3, .rw, 0⟩
def RGN_DEFECT_SEL_Y : Fld := ⟨8, 3, .rw, 0⟩
/-! RGN_DEFECT_DATA: Table 2.12, 02_array.md -/
def RGN_DEFECT_DATA (n : Fin 16) : Nat := rgnBase n + 0x118
def RGN_DEFECT_DATA_USABLE_KIB : Fld := ⟨0, 7, .ro, 0⟩
def RGN_DEFECT_DATA_FIELD : Fld := ⟨7, 1, .ro, 0⟩
def RGN_DEFECT_DATA_GRAN_A : Fld := ⟨8, 7, .ro, 0⟩
def RGN_DEFECT_DATA_GRAN_B : Fld := ⟨16, 7, .ro, 0⟩
def RGN_DEFECT_DATA_POISON : Fld := ⟨23, 1, .ro, 0⟩
def RGN_DEFECT_DATA_CE_COUNT : Fld := ⟨24, 8, .ro, 0⟩
/-! RGN_STALL_LIMIT: Table 2.13, 02_array.md -/
def RGN_STALL_LIMIT (n : Fin 16) : Nat := rgnBase n + 0x120
def RGN_STALL_LIMIT_LIMIT : Fld := ⟨0, 32, .rw, 0x989680⟩
/-! RGN_BRIDGE_STATE: Table 2.14, 02_array.md -/
def RGN_BRIDGE_STATE (n : Fin 16) : Nat := rgnBase n + 0x128
def RGN_BRIDGE_STATE_NORTH_OPEN : Fld := ⟨0, 1, .ro, 0⟩
def RGN_BRIDGE_STATE_EAST_OPEN : Fld := ⟨1, 1, .ro, 0⟩
def RGN_BRIDGE_STATE_SOUTH_OPEN : Fld := ⟨2, 1, .ro, 0⟩
def RGN_BRIDGE_STATE_WEST_OPEN : Fld := ⟨3, 1, .ro, 0⟩
/-! SEQ_CTRL: Table 5.9, 05_sequencer.md -/
def SEQ_CTRL (n : Fin 16) : Nat := rgnBase n + 0x10000
def SEQ_CTRL_START_ROW : Fld := ⟨0, 4, .rw, 0⟩
def SEQ_CTRL_GO : Fld := ⟨16, 1, .wo, 0⟩
def SEQ_CTRL_ABORT : Fld := ⟨17, 1, .wo, 0⟩
/-! SEQ_STATUS: Table 5.10, 05_sequencer.md -/
def SEQ_STATUS (n : Fin 16) : Nat := rgnBase n + 0x10008
def SEQ_STATUS_PC : Fld := ⟨0, 14, .ro, 0⟩
def SEQ_STATUS_RUNNING : Fld := ⟨14, 1, .ro, 0⟩
def SEQ_STATUS_DONE : Fld := ⟨15, 1, .w1c, 0⟩
def SEQ_STATUS_WAIT_KIND : Fld := ⟨16, 3, .ro, 0⟩
def SEQ_STATUS_WAIT_OBJ : Fld := ⟨19, 8, .ro, 0⟩
def SEQ_STATUS_STALE : Fld := ⟨32, 16, .rc, 0⟩
/-! SEQ_TABLE_BASE: Table 5.11, 05_sequencer.md -/
def SEQ_TABLE_BASE (n : Fin 16) : Nat := rgnBase n + 0x10010
def SEQ_TABLE_BASE_BASE : Fld := ⟨12, 36, .rw, 0⟩
/-! SEQ_LOOP: Table 5.12, 05_sequencer.md -/
def SEQ_LOOP (n : Fin 16) : Nat := rgnBase n + 0x10018
def SEQ_LOOP_CTR : Fld := ⟨0, 64, .ro, 0⟩
/-! SEQ_SUMMARY: Table 5.13, 05_sequencer.md -/
def SEQ_SUMMARY (n : Fin 16) : Nat := rgnBase n + 0x10020
def SEQ_SUMMARY_VALUE : Fld := ⟨0, 32, .ro, 0⟩
def SEQ_SUMMARY_SLOT : Fld := ⟨32, 2, .ro, 0⟩
def SEQ_SUMMARY_QUEUED : Fld := ⟨34, 5, .ro, 0⟩
def SEQ_SUMMARY_ROW : Fld := ⟨39, 4, .ro, 0⟩
/-! SEQ_SHAPE: Table 5.14, 05_sequencer.md -/
def SEQ_SHAPE (n : Fin 16) (i : Nat) : Nat := rgnBase n + 0x10100 + 8 * i
def SEQ_SHAPE_VALUE : Fld := ⟨0, 32, .rw, 0⟩
/-! CMD_RING_CFG: Table 11.10, 11_commands.md -/
def CMD_RING_CFG (n : Fin 16) (i : Nat) : Nat := rgnBase n + 0x20000 + 32 * i
def CMD_RING_CFG_LOC : Fld := ⟨0, 2, .rw, 0⟩
def CMD_RING_CFG_SIZE : Fld := ⟨2, 4, .rw, 0⟩
def CMD_RING_CFG_BASE : Fld := ⟨12, 36, .rw, 0⟩
def CMD_RING_CFG_ENABLE : Fld := ⟨63, 1, .rw, 0⟩
/-! CMD_RING_HEAD: Table 11.11, 11_commands.md -/
def CMD_RING_HEAD (n : Fin 16) (i : Nat) : Nat := rgnBase n + 0x20008 + 32 * i
def CMD_RING_HEAD_INDEX : Fld := ⟨0, 14, .ro, 0⟩
/-! CMD_RING_TAIL: Table 11.12, 11_commands.md -/
def CMD_RING_TAIL (n : Fin 16) (i : Nat) : Nat := rgnBase n + 0x20010 + 32 * i
def CMD_RING_TAIL_INDEX : Fld := ⟨0, 14, .rw, 0⟩
def CMD_RING_TAIL_PHASE : Fld := ⟨14, 1, .ro, 0⟩
/-! CMD_RING_STAT: Table 11.13, 11_commands.md -/
def CMD_RING_STAT (n : Fin 16) (i : Nat) : Nat := rgnBase n + 0x20018 + 32 * i
def CMD_RING_STAT_HELD : Fld := ⟨0, 1, .ro, 0⟩
def CMD_RING_STAT_HOLD_REASON : Fld := ⟨1, 3, .ro, 0⟩
def CMD_RING_STAT_DB_ERR : Fld := ⟨4, 1, .w1c, 0⟩
def CMD_RING_STAT_FETCH_ERR : Fld := ⟨5, 1, .w1c, 0⟩
def CMD_RING_STAT_CFG_ERR : Fld := ⟨6, 1, .w1c, 0⟩
def CMD_RING_STAT_PENDING : Fld := ⟨16, 14, .ro, 0⟩
/-! CMD_CQ_MOD: Table 11.14, 11_commands.md -/
def CMD_CQ_MOD (n : Fin 16) : Nat := rgnBase n + 0x20060
def CMD_CQ_MOD_COUNT : Fld := ⟨0, 16, .rw, 1⟩
def CMD_CQ_MOD_TICKS : Fld := ⟨16, 32, .rw, 0x3e8⟩
/-! CMD_STATUS: Table 11.15, 11_commands.md -/
def CMD_STATUS (n : Fin 16) : Nat := rgnBase n + 0x20068
def CMD_STATUS_ASSIGNED : Fld := ⟨0, 1, .ro, 0⟩
def CMD_STATUS_LEAD : Fld := ⟨1, 1, .ro, 0⟩
def CMD_STATUS_PARTITION : Fld := ⟨2, 4, .ro, 0⟩
def CMD_STATUS_OUTSTANDING : Fld := ⟨6, 14, .ro, 0⟩
/-! SRV_CFG: Table 12.5, 12_serving.md -/
def SRV_CFG (n : Fin 16) : Nat := rgnBase n + 0x20100
def SRV_CFG_PREEMPT : Fld := ⟨0, 2, .rw, 1⟩
def SRV_CFG_MAX_KILLS : Fld := ⟨4, 6, .rw, 8⟩
def SRV_CFG_ADMIT_TIME : Fld := ⟨10, 1, .rw, 1⟩
def SRV_CFG_MARGIN : Fld := ⟨16, 8, .rw, 0xa⟩
/-! SRV_STATUS: Table 12.6, 12_serving.md -/
def SRV_STATUS (n : Fin 16) : Nat := rgnBase n + 0x20108
def SRV_STATUS_RANK : Fld := ⟨0, 3, .ro, 0⟩
def SRV_STATUS_TAG : Fld := ⟨16, 16, .ro, 0⟩
def SRV_STATUS_KILLS : Fld := ⟨32, 16, .rc, 0⟩
def SRV_STATUS_MISSED : Fld := ⟨48, 16, .rc, 0⟩
/-! SRV_SESSIONS: Table 12.7, 12_serving.md -/
def SRV_SESSIONS (n : Fin 16) : Nat := rgnBase n + 0x20110
def SRV_SESSIONS_OPEN : Fld := ⟨0, 19, .ro, 0⟩
def SRV_SESSIONS_PARKED : Fld := ⟨32, 19, .ro, 0⟩
/-! TM_STATUS: Table 6.10, 06_tiers.md -/
def TM_STATUS (n : Fin 16) : Nat := rgnBase n + 0x30000
def TM_STATUS_ACTIVE : Fld := ⟨0, 5, .ro, 0⟩
def TM_STATUS_BUSY : Fld := ⟨5, 1, .ro, 0⟩
def TM_STATUS_LATE : Fld := ⟨16, 16, .rc, 0⟩
/-! TM_ERR: Table 6.11, 06_tiers.md -/
def TM_ERR (n : Fin 16) : Nat := rgnBase n + 0x30008
def TM_ERR_DESC : Fld := ⟨0, 16, .ro, 0⟩
def TM_ERR_TIER : Fld := ⟨16, 3, .ro, 0⟩
def TM_ERR_WIN : Fld := ⟨19, 4, .ro, 0⟩
def TM_ERR_CAUSE : Fld := ⟨23, 4, .ro, 0⟩
def TM_ERR_VALID : Fld := ⟨27, 1, .w1c, 0⟩
/-! TM_ERR_ADDR: Table 6.11, 06_tiers.md -/
def TM_ERR_ADDR (n : Fin 16) : Nat := rgnBase n + 0x30010
def TM_ERR_ADDR_OFFSET : Fld := ⟨0, 64, .ro, 0⟩
/-! TM_TIMEOUT: Table 6.12, 06_tiers.md -/
def TM_TIMEOUT (n : Fin 16) (i : Nat) : Nat := rgnBase n + 0x30020 + 8 * i
def TM_TIMEOUT_TICKS : Fld := ⟨0, 32, .rw, 0⟩
/-! TM_WIN_LO: Table 6.9, 06_tiers.md -/
def TM_WIN_LO (n : Fin 16) (i : Nat) : Nat := rgnBase n + 0x30100 + 16 * i
def TM_WIN_LO_BASE : Fld := ⟨12, 52, .rw, 0⟩
/-! TM_WIN_HI: Table 6.9, 06_tiers.md -/
def TM_WIN_HI (n : Fin 16) (i : Nat) : Nat := rgnBase n + 0x30108 + 16 * i
def TM_WIN_HI_CHIP : Fld := ⟨0, 18, .rw, 0⟩
def TM_WIN_HI_REGION : Fld := ⟨18, 4, .rw, 0⟩
def TM_WIN_HI_TIER : Fld := ⟨22, 3, .rw, 0⟩
def TM_WIN_HI_PARTITION : Fld := ⟨25, 4, .rw, 0⟩
def TM_WIN_HI_VALID : Fld := ⟨29, 1, .rw, 0⟩
def TM_WIN_HI_LIMIT : Fld := ⟨32, 32, .rw, 0⟩
/-! KV_WALK_CFG: Table 8.3, 08_attention.md -/
def KV_WALK_CFG (n : Fin 16) (i : Nat) : Nat := rgnBase n + 0x30200 + 16 * i
def KV_WALK_CFG_EN : Fld := ⟨0, 1, .rw, 0⟩
def KV_WALK_CFG_PB : Fld := ⟨1, 12, .rw, 0⟩
def KV_WALK_CFG_ROWS : Fld := ⟨13, 7, .rw, 0⟩
/-! KV_WALK_LIST: Table 8.4, 08_attention.md -/
def KV_WALK_LIST (n : Fin 16) (i : Nat) : Nat := rgnBase n + 0x30208 + 16 * i
def KV_WALK_LIST_TILE : Fld := ⟨0, 32, .rw, 0⟩
/-! KV_STATUS: Table 8.5, 08_attention.md -/
def KV_STATUS (n : Fin 16) : Nat := rgnBase n + 0x30240
def KV_STATUS_DEFERRED : Fld := ⟨0, 32, .ro, 0⟩
def KV_STATUS_HOLDERS : Fld := ⟨32, 8, .ro, 0⟩
def KV_STATUS_WALK_ERR : Fld := ⟨40, 1, .w1c, 0⟩
/-! MOE_JOBS: Table 9.4, 09_experts.md -/
def MOE_JOBS (n : Fin 16) : Nat := rgnBase n + 0x30300
def MOE_JOBS_TILE : Fld := ⟨0, 32, .rw, 0⟩
def MOE_JOBS_COUNT : Fld := ⟨32, 9, .rw, 0⟩
/-! MOE_STATUS: Table 9.5, 09_experts.md -/
def MOE_STATUS (n : Fin 16) : Nat := rgnBase n + 0x30308
def MOE_STATUS_JOB : Fld := ⟨0, 8, .ro, 0⟩
def MOE_STATUS_BUSY : Fld := ⟨8, 1, .ro, 0⟩
def MOE_STATUS_WAITING : Fld := ⟨9, 1, .ro, 0⟩
def MOE_STATUS_ROUND : Fld := ⟨16, 32, .ro, 0⟩
def MOE_STATUS_DROPPED : Fld := ⟨48, 16, .ro, 0⟩
/-! MOE_CNT_SEL: Table 9.6, 09_experts.md -/
def MOE_CNT_SEL (n : Fin 16) : Nat := rgnBase n + 0x30310
def MOE_CNT_SEL_EXPERT : Fld := ⟨0, 8, .rw, 0⟩
/-! MOE_CNT_DATA: Table 9.7, 09_experts.md -/
def MOE_CNT_DATA (n : Fin 16) : Nat := rgnBase n + 0x30318
def MOE_CNT_DATA_PLACED : Fld := ⟨0, 16, .ro, 0⟩
def MOE_CNT_DATA_SPILL : Fld := ⟨16, 16, .ro, 0⟩
def MOE_CNT_DATA_REFUSED : Fld := ⟨32, 16, .ro, 0⟩
def MOE_CNT_DATA_ROUND : Fld := ⟨48, 16, .ro, 0⟩
/-! NEAR_STATUS: Table 6.13, 06_tiers.md -/
def NEAR_STATUS (n : Fin 16) : Nat := rgnBase n + 0x40000
def NEAR_STATUS_TRAINED : Fld := ⟨0, 12, .ro, 0⟩
def NEAR_STATUS_HOT : Fld := ⟨12, 1, .ro, 0⟩
/-! NEAR_ECC: Table 6.14, 06_tiers.md -/
def NEAR_ECC (n : Fin 16) : Nat := rgnBase n + 0x40008
def NEAR_ECC_CE : Fld := ⟨0, 32, .rc, 0⟩
def NEAR_ECC_UE : Fld := ⟨32, 16, .rc, 0⟩
/-! NEAR_SCRUB: Table 6.15, 06_tiers.md -/
def NEAR_SCRUB (n : Fin 16) : Nat := rgnBase n + 0x40010
def NEAR_SCRUB_PERIOD_H : Fld := ⟨0, 8, .rw, 0x18⟩
def NEAR_SCRUB_ENABLE : Fld := ⟨8, 1, .rw, 1⟩
def NEAR_SCRUB_PASSES : Fld := ⟨32, 32, .ro, 0⟩
/-! HERD_CFG: Table 6.16, 06_tiers.md -/
def HERD_CFG (n : Fin 16) : Nat := rgnBase n + 0x50000
def HERD_CFG_SPEED : Fld := ⟨0, 2, .ro, 0⟩
def HERD_CFG_RANKS : Fld := ⟨2, 1, .ro, 0⟩
def HERD_CFG_STACK : Fld := ⟨3, 2, .ro, 0⟩
def HERD_CFG_SIZE_GIB : Fld := ⟨5, 9, .ro, 0⟩
def HERD_CFG_ENC : Fld := ⟨14, 1, .ro, 0⟩
/-! HERD_ECC: Table 6.14, 06_tiers.md -/
def HERD_ECC (n : Fin 16) : Nat := rgnBase n + 0x50008
def HERD_ECC_CE : Fld := ⟨0, 32, .rc, 0⟩
def HERD_ECC_UE : Fld := ⟨32, 16, .rc, 0⟩
/-! HERD_SCRUB: Table 6.15, 06_tiers.md -/
def HERD_SCRUB (n : Fin 16) : Nat := rgnBase n + 0x50010
def HERD_SCRUB_PERIOD_H : Fld := ⟨0, 8, .rw, 0x18⟩
def HERD_SCRUB_ENABLE : Fld := ⟨8, 1, .rw, 1⟩
def HERD_SCRUB_PASSES : Fld := ⟨32, 32, .ro, 0⟩
/-! FOLD_STATUS: Table 7.5, 07_fold.md -/
def FOLD_STATUS (n : Fin 16) : Nat := rgnBase n + 0x60000
def FOLD_STATUS_READY : Fld := ⟨0, 1, .ro, 0⟩
def FOLD_STATUS_READ_ONLY : Fld := ⟨1, 1, .ro, 0⟩
def FOLD_STATUS_FLUSHING : Fld := ⟨2, 1, .ro, 0⟩
def FOLD_STATUS_LAST_CLEAN : Fld := ⟨3, 1, .ro, 0⟩
def FOLD_STATUS_UNFORMATTED : Fld := ⟨4, 1, .ro, 0⟩
def FOLD_STATUS_WBUF_UNITS : Fld := ⟨16, 9, .ro, 0⟩
def FOLD_STATUS_FREE_PCT : Fld := ⟨32, 8, .ro, 0⟩
/-! FOLD_GEOM: Table 7.6, 07_fold.md -/
def FOLD_GEOM (n : Fin 16) : Nat := rgnBase n + 0x60008
def FOLD_GEOM_TARGETS : Fld := ⟨0, 4, .ro, 0⟩
def FOLD_GEOM_LUNS : Fld := ⟨4, 2, .ro, 0⟩
def FOLD_GEOM_PLANES : Fld := ⟨6, 1, .ro, 0⟩
def FOLD_GEOM_BPC : Fld := ⟨7, 1, .ro, 0⟩
def FOLD_GEOM_BLOCKS : Fld := ⟨8, 16, .ro, 0⟩
def FOLD_GEOM_PAGES : Fld := ⟨24, 12, .ro, 0⟩
def FOLD_GEOM_TPROG_MAX : Fld := ⟨44, 12, .ro, 0⟩
def FOLD_GEOM_TBERS_MAX : Fld := ⟨56, 8, .ro, 0⟩
/-! FOLD_CAP: Table 7.7, 07_fold.md -/
def FOLD_CAP (n : Fin 16) : Nat := rgnBase n + 0x60010
def FOLD_CAP_UNITS : Fld := ⟨0, 32, .ro, 0⟩
def FOLD_CAP_RAW_GIB : Fld := ⟨32, 13, .ro, 0⟩
/-! FOLD_LIMITS: Table 7.8, 07_fold.md -/
def FOLD_LIMITS (n : Fin 16) : Nat := rgnBase n + 0x60018
def FOLD_LIMITS_RD_LIMIT : Fld := ⟨0, 24, .rw, 0x186a0⟩
def FOLD_LIMITS_WL_DELTA : Fld := ⟨24, 12, .rw, 0xc8⟩
def FOLD_LIMITS_RETRY_RELOC : Fld := ⟨36, 4, .rw, 3⟩
def FOLD_LIMITS_SCRUB_DAYS : Fld := ⟨40, 8, .rw, 7⟩
/-! FOLD_SEQ: Table 7.9, 07_fold.md -/
def FOLD_SEQ (n : Fin 16) : Nat := rgnBase n + 0x60020
def FOLD_SEQ_ACKED : Fld := ⟨0, 32, .ro, 0⟩
def FOLD_SEQ_DURABLE : Fld := ⟨32, 32, .ro, 0⟩
/-! FOLD_ECC: Table 7.10, 07_fold.md -/
def FOLD_ECC (n : Fin 16) : Nat := rgnBase n + 0x60028
def FOLD_ECC_RETRIED : Fld := ⟨0, 32, .rc, 0⟩
def FOLD_ECC_SOFT : Fld := ⟨32, 16, .rc, 0⟩
def FOLD_ECC_UNCORR : Fld := ⟨48, 16, .rc, 0⟩
/-! FOLD_WEAR: Table 7.11, 07_fold.md -/
def FOLD_WEAR (n : Fin 16) : Nat := rgnBase n + 0x60030
def FOLD_WEAR_MAX_PE : Fld := ⟨0, 16, .ro, 0⟩
def FOLD_WEAR_MEAN_PE : Fld := ⟨16, 16, .ro, 0⟩
def FOLD_WEAR_RATED_PE : Fld := ⟨32, 16, .ro, 0⟩
def FOLD_WEAR_GROWN_BAD : Fld := ⟨48, 16, .ro, 0⟩
/-! FOLD_MBX_CMD: Table 7.12, 07_fold.md -/
def FOLD_MBX_CMD (n : Fin 16) : Nat := rgnBase n + 0x60100
def FOLD_MBX_CMD_OP : Fld := ⟨0, 8, .rw, 0⟩
def FOLD_MBX_CMD_GO : Fld := ⟨8, 1, .wo, 0⟩
def FOLD_MBX_CMD_BUSY : Fld := ⟨9, 1, .ro, 0⟩
def FOLD_MBX_CMD_RESULT : Fld := ⟨12, 4, .ro, 0⟩
/-! FOLD_MBX_ARG: Table 7.13, 07_fold.md -/
def FOLD_MBX_ARG (n : Fin 16) : Nat := rgnBase n + 0x60108
def FOLD_MBX_ARG_TARGET : Fld := ⟨0, 3, .rw, 0⟩
def FOLD_MBX_ARG_LUN : Fld := ⟨3, 2, .rw, 0⟩
def FOLD_MBX_ARG_BLOCK : Fld := ⟨5, 16, .rw, 0⟩
/-! FOLD_MBX_RESP: Table 7.13, 07_fold.md -/
def FOLD_MBX_RESP (n : Fin 16) : Nat := rgnBase n + 0x60110
def FOLD_MBX_RESP_PE : Fld := ⟨0, 16, .ro, 0⟩
def FOLD_MBX_RESP_READS : Fld := ⟨16, 24, .ro, 0⟩
def FOLD_MBX_RESP_STATE : Fld := ⟨40, 3, .ro, 0⟩
/-! FAB_PORT_STATUS: Table 14.8, 14_axium.md -/
def FAB_PORT_STATUS (n : Fin 16) : Nat := rgnBase n + 0x70000
def FAB_PORT_STATUS_STATE : Fld := ⟨0, 3, .ro, 0⟩
def FAB_PORT_STATUS_ID_WAIT : Fld := ⟨3, 1, .ro, 0⟩
def FAB_PORT_STATUS_BOUND : Fld := ⟨16, 13, .ro, 0⟩
def FAB_PORT_STATUS_DOWNS : Fld := ⟨32, 16, .rc, 0⟩
def FAB_PORT_STATUS_LOST : Fld := ⟨48, 16, .rc, 0⟩
/-! FAB_PORT_CFG: Table 14.9, 14_axium.md -/
def FAB_PORT_CFG (n : Fin 16) : Nat := rgnBase n + 0x70008
def FAB_PORT_CFG_ENABLE : Fld := ⟨0, 1, .rw, 1⟩
def FAB_PORT_CFG_PROBE_TICKS : Fld := ⟨16, 16, .rw, 0x3e8⟩
def FAB_PORT_CFG_CIRC_TIMEOUT : Fld := ⟨32, 32, .rw, 0x2710⟩
/-! FAB_LINK_ERR: Table 14.10, 14_axium.md -/
def FAB_LINK_ERR (n : Fin 16) : Nat := rgnBase n + 0x70010
def FAB_LINK_ERR_CRC : Fld := ⟨0, 16, .rc, 0⟩
def FAB_LINK_ERR_REPLAYS : Fld := ⟨16, 16, .rc, 0⟩
def FAB_LINK_ERR_FEC_UNCORR : Fld := ⟨32, 16, .rc, 0⟩
/-! FAB_FEC_CE: Table 14.11, 14_axium.md -/
def FAB_FEC_CE (n : Fin 16) : Nat := rgnBase n + 0x70018
def FAB_FEC_CE_SYMBOLS : Fld := ⟨0, 32, .rc, 0⟩
/-! FAB_RX_DROP: Table 14.12, 14_axium.md -/
def FAB_RX_DROP (n : Fin 16) : Nat := rgnBase n + 0x70020
def FAB_RX_DROP_UNBOUND : Fld := ⟨0, 16, .rc, 0⟩
def FAB_RX_DROP_REFUSED : Fld := ⟨16, 16, .rc, 0⟩
def FAB_RX_DROP_STALE : Fld := ⟨32, 16, .rc, 0⟩
/-! FAB_LEND_STATUS: Table 14.13, 14_axium.md -/
def FAB_LEND_STATUS (n : Fin 16) : Nat := rgnBase n + 0x70028
def FAB_LEND_STATUS_OFFERED : Fld := ⟨0, 9, .ro, 0⟩
def FAB_LEND_STATUS_LENT : Fld := ⟨9, 9, .ro, 0⟩
def FAB_LEND_STATUS_BORROWED : Fld := ⟨18, 9, .ro, 0⟩
def FAB_LEND_STATUS_RECALLED : Fld := ⟨27, 1, .ro, 0⟩
/-! FAB_CIRC: Table 14.14, 14_axium.md -/
def FAB_CIRC (n : Fin 16) (i : Nat) : Nat := rgnBase n + 0x78000 + 8 * i
def FAB_CIRC_PEER_CHIP : Fld := ⟨0, 18, .ro, 0⟩
def FAB_CIRC_PEER_PARTITION : Fld := ⟨18, 4, .ro, 0⟩
def FAB_CIRC_STATE : Fld := ⟨22, 3, .ro, 0⟩
def FAB_CIRC_LOTS : Fld := ⟨25, 1, .ro, 0⟩
def FAB_CIRC_OUTSTANDING : Fld := ⟨26, 9, .ro, 0⟩
/-! FLT_RGN_STATUS: Table 17.19, 17_faults.md -/
def FLT_RGN_STATUS (n : Fin 16) : Nat := rgnBase n + 0x80000
def FLT_RGN_STATUS_CONTAINED : Fld := ⟨0, 1, .ro, 0⟩
def FLT_RGN_STATUS_CAUSE : Fld := ⟨1, 10, .ro, 0⟩
/-! SYNC_SEM: Table 5.15, 05_sequencer.md -/
def SYNC_SEM (n : Fin 16) (i : Nat) : Nat := rgnBase n + 0x90000 + 8 * i
def SYNC_SEM_VALUE : Fld := ⟨0, 32, .ro, 0⟩
/-! SYNC_FORCE: Table 5.16, 05_sequencer.md -/
def SYNC_FORCE (n : Fin 16) : Nat := rgnBase n + 0x90800
def SYNC_FORCE_SEM : Fld := ⟨0, 8, .rw, 0⟩
def SYNC_FORCE_MODE : Fld := ⟨8, 1, .rw, 0⟩
def SYNC_FORCE_GO : Fld := ⟨9, 1, .wo, 0⟩
def SYNC_FORCE_VALUE : Fld := ⟨32, 32, .rw, 0⟩
/-! CTX_SLOT_STATE: Table 4.10, 04_contexts.md -/
def CTX_SLOT_STATE (n : Fin 16) : Nat := rgnBase n + 0xa0000
def CTX_SLOT_STATE_S0_STATE : Fld := ⟨0, 3, .ro, 0⟩
def CTX_SLOT_STATE_S1_STATE : Fld := ⟨4, 3, .ro, 0⟩
def CTX_SLOT_STATE_S2_STATE : Fld := ⟨8, 3, .ro, 0⟩
def CTX_SLOT_STATE_S3_STATE : Fld := ⟨12, 3, .ro, 0⟩
def CTX_SLOT_STATE_ACTIVE : Fld := ⟨16, 2, .ro, 0⟩
def CTX_SLOT_STATE_ENTRY : Fld := ⟨24, 24, .ro, 0⟩
/-! CTX_CREDIT: Table 4.11, 04_contexts.md -/
def CTX_CREDIT (n : Fin 16) : Nat := rgnBase n + 0xa0008
def CTX_CREDIT_COUNT : Fld := ⟨0, 64, .ro, 0⟩
/-! CTX_LOAD: Table 4.12, 04_contexts.md -/
def CTX_LOAD (n : Fin 16) : Nat := rgnBase n + 0xa0010
def CTX_LOAD_ENTRY : Fld := ⟨0, 6, .rw, 0⟩
def CTX_LOAD_SLOT : Fld := ⟨8, 2, .rw, 0⟩
def CTX_LOAD_GO : Fld := ⟨32, 1, .wo, 0⟩
def CTX_LOAD_PENDING : Fld := ⟨33, 1, .ro, 0⟩
def CTX_LOAD_RESULT : Fld := ⟨34, 2, .ro, 0⟩
/-! CTX_LOAD_WAIT: Table 4.13, 04_contexts.md -/
def CTX_LOAD_WAIT (n : Fin 16) : Nat := rgnBase n + 0xa0018
def CTX_LOAD_WAIT_TICKS : Fld := ⟨0, 32, .rw, 0x186a0⟩
/-! CTX_FLUSH: Table 4.14, 04_contexts.md -/
def CTX_FLUSH (n : Fin 16) : Nat := rgnBase n + 0xa0020
def CTX_FLUSH_FLUSH : Fld := ⟨0, 4, .wo, 0⟩
def CTX_FLUSH_FLUSHING : Fld := ⟨4, 4, .ro, 0⟩
/-! CTX_STORE_BASE: Table 4.15, 04_contexts.md -/
def CTX_STORE_BASE (n : Fin 16) : Nat := rgnBase n + 0xa0028
def CTX_STORE_BASE_BASE : Fld := ⟨12, 36, .rw, 0⟩
/-! CTX_DIR: Table 4.16, 04_contexts.md -/
def CTX_DIR (n : Fin 16) (i : Nat) : Nat := rgnBase n + 0xa0100 + 8 * i
def CTX_DIR_CTX_NUM : Fld := ⟨0, 16, .rw, 0⟩
def CTX_DIR_TILES : Fld := ⟨16, 7, .rw, 0⟩
def CTX_DIR_TILE_OFF : Fld := ⟨32, 13, .rw, 0⟩
def CTX_DIR_VALID : Fld := ⟨63, 1, .rw, 0⟩
/-! SCAN_CTRL: Table 4.17, 04_contexts.md -/
def SCAN_CTRL (n : Fin 16) : Nat := rgnBase n + 0xb0000
def SCAN_CTRL_BLOCK : Fld := ⟨0, 4, .rw, 0⟩
def SCAN_CTRL_FREEZE : Fld := ⟨4, 1, .rw, 0⟩
def SCAN_CTRL_AUTO_INC : Fld := ⟨5, 1, .rw, 0⟩
/-! SCAN_STATUS: Table 4.18, 04_contexts.md -/
def SCAN_STATUS (n : Fin 16) : Nat := rgnBase n + 0xb0008
def SCAN_STATUS_FROZEN : Fld := ⟨0, 1, .ro, 0⟩
def SCAN_STATUS_ERROR : Fld := ⟨1, 1, .w1c, 0⟩
/-! SCAN_ADDR: Table 4.19, 04_contexts.md -/
def SCAN_ADDR (n : Fin 16) : Nat := rgnBase n + 0xb0010
def SCAN_ADDR_WORD : Fld := ⟨0, 15, .rw, 0⟩
def SCAN_ADDR_CELL : Fld := ⟨15, 6, .rw, 0⟩
/-! SCAN_DATA: Table 4.20, 04_contexts.md -/
def SCAN_DATA (n : Fin 16) : Nat := rgnBase n + 0xb0018
def SCAN_DATA_DATA : Fld := ⟨0, 64, .rw, 0⟩

def chipTable0 : List RegDesc := [
  ⟨"CHIP_PART", 0x0, 8, 1, [CHIP_PART_PART, CHIP_PART_STEPPING, CHIP_PART_NEAR_GIB]⟩,
  ⟨"CHIP_VENDOR", 0x8, 8, 1, [CHIP_VENDOR_ENTERPRISE]⟩,
  ⟨"CHIP_TIME", 0x10, 8, 1, [CHIP_TIME_TICKS]⟩,
  ⟨"FAB_CHIP_ID", 0x100, 8, 1, [FAB_CHIP_ID_ID, FAB_CHIP_ID_VALID, FAB_CHIP_ID_LOCKED]⟩,
  ⟨"PWR_STATUS", 0x10000, 8, 1, [PWR_STATUS_PROFILE, PWR_STATUS_UNATTENDED, PWR_STATUS_RM_LOST, PWR_STATUS_DEEP_IDLE, PWR_STATUS_HOLD, PWR_STATUS_LIMITS, PWR_STATUS_PWRFAIL, PWR_STATUS_COOLANT_OK, PWR_STATUS_SENSOR_ERR]⟩,
  ⟨"PWR_MEAS", 0x10008, 8, 1, [PWR_MEAS_WINDOW_W, PWR_MEAS_MEAN10_W, PWR_MEAS_CEILING_W, PWR_MEAS_FLOOR_W]⟩,
  ⟨"PWR_COOLANT", 0x10010, 8, 1, [PWR_COOLANT_INLET, PWR_COOLANT_FLOW, PWR_COOLANT_FLOW_LOSS, PWR_COOLANT_STALE]⟩,
  ⟨"PWR_COOL_CFG", 0x10018, 8, 1, [PWR_COOL_CFG_ADDR, PWR_COOL_CFG_ENABLE]⟩,
  ⟨"PWR_RM_KICK", 0x10020, 8, 1, [PWR_RM_KICK_KEY]⟩,
  ⟨"PWR_RM_WDT", 0x10028, 8, 1, [PWR_RM_WDT_REMAIN, PWR_RM_WDT_RUNNING]⟩,
  ⟨"PWR_EVENTS", 0x10030, 8, 1, [PWR_EVENTS_PWRFAIL, PWR_EVENTS_FLOW_LOSS, PWR_EVENTS_THROTTLE, PWR_EVENTS_PEAK]⟩,
  ⟨"PWR_RGN", 0x10100, 8, 16, [PWR_RGN_V_SET, PWR_RGN_V_ACT, PWR_RGN_POWER, PWR_RGN_TEMP, PWR_RGN_THROTTLED, PWR_RGN_SERVICE_ON]⟩]

def chipTable1 : List RegDesc := [
  ⟨"PWR_CHIP_TEMP", 0x10180, 8, 1, [PWR_CHIP_TEMP_CHIP, PWR_CHIP_TEMP_HBM, PWR_CHIP_TEMP_HOTTEST]⟩,
  ⟨"IRQ_EN_SET", 0x20100, 8, 20, [IRQ_EN_SET_BITS]⟩,
  ⟨"IRQ_EN_CLR", 0x20200, 8, 20, [IRQ_EN_CLR_BITS]⟩,
  ⟨"IRQ_PEND_SET", 0x20300, 8, 20, [IRQ_PEND_SET_BITS]⟩,
  ⟨"IRQ_PEND_CLR", 0x20400, 8, 20, [IRQ_PEND_CLR_BITS]⟩,
  ⟨"IRQ_Q_CFG", 0x20800, 32, 36, [IRQ_Q_CFG_SIZE, IRQ_Q_CFG_BASE, IRQ_Q_CFG_ENABLE]⟩,
  ⟨"IRQ_Q_PTR", 0x20808, 32, 36, [IRQ_Q_PTR_HEAD, IRQ_Q_PTR_TAIL, IRQ_Q_PTR_PHASE]⟩,
  ⟨"IRQ_Q_CTRL", 0x20810, 32, 36, [IRQ_Q_CTRL_THRESHOLD, IRQ_Q_CTRL_LEVEL, IRQ_Q_CTRL_IDLE, IRQ_Q_CTRL_VECTOR]⟩,
  ⟨"IRQ_Q_MOD", 0x20818, 32, 36, [IRQ_Q_MOD_COUNT, IRQ_Q_MOD_TICKS]⟩,
  ⟨"IRQ_SRC_CFG", 0x21000, 8, 1280, [IRQ_SRC_CFG_PRIO, IRQ_SRC_CFG_TARGET]⟩,
  ⟨"IRQ_SRC_CNT", 0x24000, 8, 1280, [IRQ_SRC_CNT_COUNT, IRQ_SRC_CNT_LATCHED]⟩,
  ⟨"FLT_STATUS", 0x30000, 8, 1, [FLT_STATUS_NEXT_SERIAL, FLT_STATUS_ANY_PENDING, FLT_STATUS_FATAL]⟩]

def chipTable2 : List RegDesc := [
  ⟨"FLT_RING_CFG", 0x30008, 8, 1, [FLT_RING_CFG_REGION, FLT_RING_CFG_SIZE, FLT_RING_CFG_BASE, FLT_RING_CFG_ENABLE]⟩,
  ⟨"FLT_RING_PTR", 0x30010, 8, 1, [FLT_RING_PTR_HEAD, FLT_RING_PTR_TAIL, FLT_RING_PTR_PHASE, FLT_RING_PTR_THRESH]⟩,
  ⟨"FLT_RING_STAT", 0x30018, 8, 1, [FLT_RING_STAT_OVERFLOW, FLT_RING_STAT_KEPT_SRCS]⟩,
  ⟨"FLT_ACK", 0x30020, 8, 1, [FLT_ACK_SOURCE, FLT_ACK_GO]⟩,
  ⟨"FLT_GRACE", 0x30040, 8, 3, [FLT_GRACE_TICKS, FLT_GRACE_ESC]⟩,
  ⟨"ERR_PIN_CTRL", 0x30060, 8, 1, [ERR_PIN_CTRL_MODE, ERR_PIN_CTRL_LEVEL, ERR_PIN_CTRL_PULSE, ERR_PIN_CTRL_PIN]⟩,
  ⟨"FLT_FATAL", 0x30100, 8, 8, [FLT_FATAL_RECORD]⟩,
  ⟨"FLT_SRC_SEV", 0x31000, 8, 1024, [FLT_SRC_SEV_SEV, FLT_SRC_SEV_PIN, FLT_SRC_SEV_FIXED, FLT_SRC_SEV_FORCE]⟩,
  ⟨"FLT_SRC_STAT", 0x33000, 8, 1024, [FLT_SRC_STAT_PENDING, FLT_SRC_STAT_EFF, FLT_SRC_STAT_ESCALATED, FLT_SRC_STAT_KEPT, FLT_SRC_STAT_COUNT, FLT_SRC_STAT_LOST, FLT_SRC_STAT_LAST_SERIAL]⟩,
  ⟨"TAHR_STATUS", 0x40000, 8, 1, [TAHR_STATUS_COUNTER, TAHR_STATUS_REVOKED, TAHR_STATUS_SIGNER, TAHR_STATUS_SEAL_PENDING, TAHR_STATUS_STAGED, TAHR_STATUS_PLDM_OWNED, TAHR_STATUS_UNLOCKED, TAHR_STATUS_SCOPE]⟩,
  ⟨"TAHR_MBX_CMD", 0x40008, 8, 1, [TAHR_MBX_CMD_OP, TAHR_MBX_CMD_INDEX, TAHR_MBX_CMD_GO, TAHR_MBX_CMD_BUSY, TAHR_MBX_CMD_RESULT]⟩,
  ⟨"TAHR_MBX_ARG", 0x40010, 8, 1, [TAHR_MBX_ARG_BUF]⟩]

def chipTable3 : List RegDesc := [
  ⟨"TAHR_MBX_RESP", 0x40018, 8, 1, [TAHR_MBX_RESP_LENGTH]⟩,
  ⟨"TAHR_MR", 0x40100, 8, 96, [TAHR_MR_BYTES]⟩,
  ⟨"TAHR_ID_HASH", 0x40400, 8, 6, [TAHR_ID_HASH_BYTES]⟩,
  ⟨"TAHR_DEV_ID", 0x40430, 8, 2, [TAHR_DEV_ID_BYTES]⟩,
  ⟨"TAITH_STATUS", 0x50000, 8, 1, [TAITH_STATUS_LINK_UP, TAITH_STATUS_LOST, TAITH_STATUS_WIDTH, TAITH_STATUS_RATE, TAITH_STATUS_LOSSES, TAITH_STATUS_RETRIES]⟩,
  ⟨"TAITH_WIN_BASE", 0x50008, 8, 1, [TAITH_WIN_BASE_BASE]⟩,
  ⟨"TAITH_KA", 0x50010, 8, 1, [TAITH_KA_TIMEOUT, TAITH_KA_PERIOD]⟩,
  ⟨"TAITH_LOSS_CFG", 0x50018, 8, 1, [TAITH_LOSS_CFG_PARK_TICKS, TAITH_LOSS_CFG_TTL_MS]⟩,
  ⟨"TAITH_LOSS_STATUS", 0x50020, 8, 1, [TAITH_LOSS_STATUS_PARKED, TAITH_LOSS_STATUS_PARK_FAIL]⟩,
  ⟨"TAITH_RESUME", 0x50028, 8, 1, [TAITH_RESUME_PARTITION, TAITH_RESUME_REPLAYING]⟩,
  ⟨"TAITH_SHADOW", 0x50100, 8, 16, [TAITH_SHADOW_RECORDS]⟩,
  ⟨"BOOT_STATUS", 0x60000, 8, 1, [BOOT_STATUS_CHIP_STAGE, BOOT_STATUS_MINIMAL, BOOT_STATUS_SRC, BOOT_STATUS_RECOVER, BOOT_STATUS_SLOT, BOOT_STATUS_ATTEMPTS, BOOT_STATUS_REASON, BOOT_STATUS_WARM_RESETS]⟩]

def chipTable4 : List RegDesc := [
  ⟨"BOOT_CTRL", 0x60008, 8, 1, [BOOT_CTRL_WARM, BOOT_CTRL_CLEAR_ATTEMPTS, BOOT_CTRL_KEY]⟩,
  ⟨"BOOT_WDT", 0x60010, 8, 1, [BOOT_WDT_TICKS, BOOT_WDT_ELAPSED]⟩,
  ⟨"BOOT_IMG_ADDR", 0x60018, 8, 1, [BOOT_IMG_ADDR_ADDR]⟩,
  ⟨"BOOT_IMG_CTRL", 0x60020, 8, 1, [BOOT_IMG_CTRL_TILES, BOOT_IMG_CTRL_GO, BOOT_IMG_CTRL_STATE]⟩,
  ⟨"BOOT_RGN", 0x60040, 8, 16, [BOOT_RGN_STAGE, BOOT_RGN_HERD_OK, BOOT_RGN_NEAR_OK, BOOT_RGN_FOLD_READY, BOOT_RGN_JOINED, BOOT_RGN_FAILED, BOOT_RGN_STANDIN, BOOT_RGN_MIGRATING, BOOT_RGN_REASON, BOOT_RGN_NEAR_FAIL]⟩,
  ⟨"BOOT_RGN_CFG", 0x600c0, 8, 1, [BOOT_RGN_CFG_STANDIN_GIB, BOOT_RGN_CFG_AUTO_MIGRATE, BOOT_RGN_CFG_MIGRATE]⟩,
  ⟨"MGT_RING_CFG", 0x60100, 32, 3, [MGT_RING_CFG_LOC, MGT_RING_CFG_SIZE, MGT_RING_CFG_BASE, MGT_RING_CFG_ENABLE]⟩,
  ⟨"MGT_RING_HEAD", 0x60108, 32, 3, [MGT_RING_HEAD_INDEX]⟩,
  ⟨"MGT_RING_TAIL", 0x60110, 32, 3, [MGT_RING_TAIL_INDEX, MGT_RING_TAIL_PHASE]⟩,
  ⟨"MGT_RING_STAT", 0x60118, 32, 3, [MGT_RING_STAT_HELD, MGT_RING_STAT_HOLD_REASON, MGT_RING_STAT_DB_ERR, MGT_RING_STAT_FETCH_ERR, MGT_RING_STAT_CFG_ERR, MGT_RING_STAT_PENDING]⟩,
  ⟨"MGT_CQ_MOD", 0x60160, 8, 1, [MGT_CQ_MOD_COUNT, MGT_CQ_MOD_TICKS]⟩,
  ⟨"BAR_CFG", 0x70000, 16, 64, [BAR_CFG_MEMBERS, BAR_CFG_PARTITION, BAR_CFG_ENABLE]⟩]

def chipTable5 : List RegDesc := [
  ⟨"BAR_STATE", 0x70008, 16, 64, [BAR_STATE_ARRIVED, BAR_STATE_GEN, BAR_STATE_BROKEN, BAR_STATE_FORCE_RELEASE]⟩]

/-- The chip block (Table 19.11). -/
def chipTable : List RegDesc :=
  chipTable0 ++ chipTable1 ++ chipTable2 ++ chipTable3 ++ chipTable4 ++ chipTable5

def rgnTable0 : List RegDesc := [
  ⟨"RGN_INFO", 0x0, 8, 1, [RGN_INFO_REGION, RGN_INFO_ASSIGNED, RGN_INFO_PARTITION, RGN_INFO_LEAD]⟩,
  ⟨"RGN_RATE", 0x100, 8, 1, [RGN_RATE_STEPS, RGN_RATE_WINDOWS]⟩,
  ⟨"RGN_BLOCK_STATE", 0x108, 8, 1, [RGN_BLOCK_STATE_STATE, RGN_BLOCK_STATE_DEGRADED, RGN_BLOCK_STATE_QUARANTINED]⟩,
  ⟨"RGN_DEFECT_SEL", 0x110, 8, 1, [RGN_DEFECT_SEL_BLOCK, RGN_DEFECT_SEL_X, RGN_DEFECT_SEL_Y]⟩,
  ⟨"RGN_DEFECT_DATA", 0x118, 8, 1, [RGN_DEFECT_DATA_USABLE_KIB, RGN_DEFECT_DATA_FIELD, RGN_DEFECT_DATA_GRAN_A, RGN_DEFECT_DATA_GRAN_B, RGN_DEFECT_DATA_POISON, RGN_DEFECT_DATA_CE_COUNT]⟩,
  ⟨"RGN_STALL_LIMIT", 0x120, 8, 1, [RGN_STALL_LIMIT_LIMIT]⟩,
  ⟨"RGN_BRIDGE_STATE", 0x128, 8, 1, [RGN_BRIDGE_STATE_NORTH_OPEN, RGN_BRIDGE_STATE_EAST_OPEN, RGN_BRIDGE_STATE_SOUTH_OPEN, RGN_BRIDGE_STATE_WEST_OPEN]⟩,
  ⟨"SEQ_CTRL", 0x10000, 8, 1, [SEQ_CTRL_START_ROW, SEQ_CTRL_GO, SEQ_CTRL_ABORT]⟩,
  ⟨"SEQ_STATUS", 0x10008, 8, 1, [SEQ_STATUS_PC, SEQ_STATUS_RUNNING, SEQ_STATUS_DONE, SEQ_STATUS_WAIT_KIND, SEQ_STATUS_WAIT_OBJ, SEQ_STATUS_STALE]⟩,
  ⟨"SEQ_TABLE_BASE", 0x10010, 8, 1, [SEQ_TABLE_BASE_BASE]⟩,
  ⟨"SEQ_LOOP", 0x10018, 8, 1, [SEQ_LOOP_CTR]⟩,
  ⟨"SEQ_SUMMARY", 0x10020, 8, 1, [SEQ_SUMMARY_VALUE, SEQ_SUMMARY_SLOT, SEQ_SUMMARY_QUEUED, SEQ_SUMMARY_ROW]⟩]

def rgnTable1 : List RegDesc := [
  ⟨"SEQ_SHAPE", 0x10100, 8, 8, [SEQ_SHAPE_VALUE]⟩,
  ⟨"CMD_RING_CFG", 0x20000, 32, 3, [CMD_RING_CFG_LOC, CMD_RING_CFG_SIZE, CMD_RING_CFG_BASE, CMD_RING_CFG_ENABLE]⟩,
  ⟨"CMD_RING_HEAD", 0x20008, 32, 3, [CMD_RING_HEAD_INDEX]⟩,
  ⟨"CMD_RING_TAIL", 0x20010, 32, 3, [CMD_RING_TAIL_INDEX, CMD_RING_TAIL_PHASE]⟩,
  ⟨"CMD_RING_STAT", 0x20018, 32, 3, [CMD_RING_STAT_HELD, CMD_RING_STAT_HOLD_REASON, CMD_RING_STAT_DB_ERR, CMD_RING_STAT_FETCH_ERR, CMD_RING_STAT_CFG_ERR, CMD_RING_STAT_PENDING]⟩,
  ⟨"CMD_CQ_MOD", 0x20060, 8, 1, [CMD_CQ_MOD_COUNT, CMD_CQ_MOD_TICKS]⟩,
  ⟨"CMD_STATUS", 0x20068, 8, 1, [CMD_STATUS_ASSIGNED, CMD_STATUS_LEAD, CMD_STATUS_PARTITION, CMD_STATUS_OUTSTANDING]⟩,
  ⟨"SRV_CFG", 0x20100, 8, 1, [SRV_CFG_PREEMPT, SRV_CFG_MAX_KILLS, SRV_CFG_ADMIT_TIME, SRV_CFG_MARGIN]⟩,
  ⟨"SRV_STATUS", 0x20108, 8, 1, [SRV_STATUS_RANK, SRV_STATUS_TAG, SRV_STATUS_KILLS, SRV_STATUS_MISSED]⟩,
  ⟨"SRV_SESSIONS", 0x20110, 8, 1, [SRV_SESSIONS_OPEN, SRV_SESSIONS_PARKED]⟩,
  ⟨"TM_STATUS", 0x30000, 8, 1, [TM_STATUS_ACTIVE, TM_STATUS_BUSY, TM_STATUS_LATE]⟩,
  ⟨"TM_ERR", 0x30008, 8, 1, [TM_ERR_DESC, TM_ERR_TIER, TM_ERR_WIN, TM_ERR_CAUSE, TM_ERR_VALID]⟩]

def rgnTable2 : List RegDesc := [
  ⟨"TM_ERR_ADDR", 0x30010, 8, 1, [TM_ERR_ADDR_OFFSET]⟩,
  ⟨"TM_TIMEOUT", 0x30020, 8, 4, [TM_TIMEOUT_TICKS]⟩,
  ⟨"TM_WIN_LO", 0x30100, 16, 16, [TM_WIN_LO_BASE]⟩,
  ⟨"TM_WIN_HI", 0x30108, 16, 16, [TM_WIN_HI_CHIP, TM_WIN_HI_REGION, TM_WIN_HI_TIER, TM_WIN_HI_PARTITION, TM_WIN_HI_VALID, TM_WIN_HI_LIMIT]⟩,
  ⟨"KV_WALK_CFG", 0x30200, 16, 4, [KV_WALK_CFG_EN, KV_WALK_CFG_PB, KV_WALK_CFG_ROWS]⟩,
  ⟨"KV_WALK_LIST", 0x30208, 16, 4, [KV_WALK_LIST_TILE]⟩,
  ⟨"KV_STATUS", 0x30240, 8, 1, [KV_STATUS_DEFERRED, KV_STATUS_HOLDERS, KV_STATUS_WALK_ERR]⟩,
  ⟨"MOE_JOBS", 0x30300, 8, 1, [MOE_JOBS_TILE, MOE_JOBS_COUNT]⟩,
  ⟨"MOE_STATUS", 0x30308, 8, 1, [MOE_STATUS_JOB, MOE_STATUS_BUSY, MOE_STATUS_WAITING, MOE_STATUS_ROUND, MOE_STATUS_DROPPED]⟩,
  ⟨"MOE_CNT_SEL", 0x30310, 8, 1, [MOE_CNT_SEL_EXPERT]⟩,
  ⟨"MOE_CNT_DATA", 0x30318, 8, 1, [MOE_CNT_DATA_PLACED, MOE_CNT_DATA_SPILL, MOE_CNT_DATA_REFUSED, MOE_CNT_DATA_ROUND]⟩,
  ⟨"NEAR_STATUS", 0x40000, 8, 1, [NEAR_STATUS_TRAINED, NEAR_STATUS_HOT]⟩]

def rgnTable3 : List RegDesc := [
  ⟨"NEAR_ECC", 0x40008, 8, 1, [NEAR_ECC_CE, NEAR_ECC_UE]⟩,
  ⟨"NEAR_SCRUB", 0x40010, 8, 1, [NEAR_SCRUB_PERIOD_H, NEAR_SCRUB_ENABLE, NEAR_SCRUB_PASSES]⟩,
  ⟨"HERD_CFG", 0x50000, 8, 1, [HERD_CFG_SPEED, HERD_CFG_RANKS, HERD_CFG_STACK, HERD_CFG_SIZE_GIB, HERD_CFG_ENC]⟩,
  ⟨"HERD_ECC", 0x50008, 8, 1, [HERD_ECC_CE, HERD_ECC_UE]⟩,
  ⟨"HERD_SCRUB", 0x50010, 8, 1, [HERD_SCRUB_PERIOD_H, HERD_SCRUB_ENABLE, HERD_SCRUB_PASSES]⟩,
  ⟨"FOLD_STATUS", 0x60000, 8, 1, [FOLD_STATUS_READY, FOLD_STATUS_READ_ONLY, FOLD_STATUS_FLUSHING, FOLD_STATUS_LAST_CLEAN, FOLD_STATUS_UNFORMATTED, FOLD_STATUS_WBUF_UNITS, FOLD_STATUS_FREE_PCT]⟩,
  ⟨"FOLD_GEOM", 0x60008, 8, 1, [FOLD_GEOM_TARGETS, FOLD_GEOM_LUNS, FOLD_GEOM_PLANES, FOLD_GEOM_BPC, FOLD_GEOM_BLOCKS, FOLD_GEOM_PAGES, FOLD_GEOM_TPROG_MAX, FOLD_GEOM_TBERS_MAX]⟩,
  ⟨"FOLD_CAP", 0x60010, 8, 1, [FOLD_CAP_UNITS, FOLD_CAP_RAW_GIB]⟩,
  ⟨"FOLD_LIMITS", 0x60018, 8, 1, [FOLD_LIMITS_RD_LIMIT, FOLD_LIMITS_WL_DELTA, FOLD_LIMITS_RETRY_RELOC, FOLD_LIMITS_SCRUB_DAYS]⟩,
  ⟨"FOLD_SEQ", 0x60020, 8, 1, [FOLD_SEQ_ACKED, FOLD_SEQ_DURABLE]⟩,
  ⟨"FOLD_ECC", 0x60028, 8, 1, [FOLD_ECC_RETRIED, FOLD_ECC_SOFT, FOLD_ECC_UNCORR]⟩,
  ⟨"FOLD_WEAR", 0x60030, 8, 1, [FOLD_WEAR_MAX_PE, FOLD_WEAR_MEAN_PE, FOLD_WEAR_RATED_PE, FOLD_WEAR_GROWN_BAD]⟩]

def rgnTable4 : List RegDesc := [
  ⟨"FOLD_MBX_CMD", 0x60100, 8, 1, [FOLD_MBX_CMD_OP, FOLD_MBX_CMD_GO, FOLD_MBX_CMD_BUSY, FOLD_MBX_CMD_RESULT]⟩,
  ⟨"FOLD_MBX_ARG", 0x60108, 8, 1, [FOLD_MBX_ARG_TARGET, FOLD_MBX_ARG_LUN, FOLD_MBX_ARG_BLOCK]⟩,
  ⟨"FOLD_MBX_RESP", 0x60110, 8, 1, [FOLD_MBX_RESP_PE, FOLD_MBX_RESP_READS, FOLD_MBX_RESP_STATE]⟩,
  ⟨"FAB_PORT_STATUS", 0x70000, 8, 1, [FAB_PORT_STATUS_STATE, FAB_PORT_STATUS_ID_WAIT, FAB_PORT_STATUS_BOUND, FAB_PORT_STATUS_DOWNS, FAB_PORT_STATUS_LOST]⟩,
  ⟨"FAB_PORT_CFG", 0x70008, 8, 1, [FAB_PORT_CFG_ENABLE, FAB_PORT_CFG_PROBE_TICKS, FAB_PORT_CFG_CIRC_TIMEOUT]⟩,
  ⟨"FAB_LINK_ERR", 0x70010, 8, 1, [FAB_LINK_ERR_CRC, FAB_LINK_ERR_REPLAYS, FAB_LINK_ERR_FEC_UNCORR]⟩,
  ⟨"FAB_FEC_CE", 0x70018, 8, 1, [FAB_FEC_CE_SYMBOLS]⟩,
  ⟨"FAB_RX_DROP", 0x70020, 8, 1, [FAB_RX_DROP_UNBOUND, FAB_RX_DROP_REFUSED, FAB_RX_DROP_STALE]⟩,
  ⟨"FAB_LEND_STATUS", 0x70028, 8, 1, [FAB_LEND_STATUS_OFFERED, FAB_LEND_STATUS_LENT, FAB_LEND_STATUS_BORROWED, FAB_LEND_STATUS_RECALLED]⟩,
  ⟨"FAB_CIRC", 0x78000, 8, 4096, [FAB_CIRC_PEER_CHIP, FAB_CIRC_PEER_PARTITION, FAB_CIRC_STATE, FAB_CIRC_LOTS, FAB_CIRC_OUTSTANDING]⟩,
  ⟨"FLT_RGN_STATUS", 0x80000, 8, 1, [FLT_RGN_STATUS_CONTAINED, FLT_RGN_STATUS_CAUSE]⟩,
  ⟨"SYNC_SEM", 0x90000, 8, 256, [SYNC_SEM_VALUE]⟩]

def rgnTable5 : List RegDesc := [
  ⟨"SYNC_FORCE", 0x90800, 8, 1, [SYNC_FORCE_SEM, SYNC_FORCE_MODE, SYNC_FORCE_GO, SYNC_FORCE_VALUE]⟩,
  ⟨"CTX_SLOT_STATE", 0xa0000, 8, 1, [CTX_SLOT_STATE_S0_STATE, CTX_SLOT_STATE_S1_STATE, CTX_SLOT_STATE_S2_STATE, CTX_SLOT_STATE_S3_STATE, CTX_SLOT_STATE_ACTIVE, CTX_SLOT_STATE_ENTRY]⟩,
  ⟨"CTX_CREDIT", 0xa0008, 8, 1, [CTX_CREDIT_COUNT]⟩,
  ⟨"CTX_LOAD", 0xa0010, 8, 1, [CTX_LOAD_ENTRY, CTX_LOAD_SLOT, CTX_LOAD_GO, CTX_LOAD_PENDING, CTX_LOAD_RESULT]⟩,
  ⟨"CTX_LOAD_WAIT", 0xa0018, 8, 1, [CTX_LOAD_WAIT_TICKS]⟩,
  ⟨"CTX_FLUSH", 0xa0020, 8, 1, [CTX_FLUSH_FLUSH, CTX_FLUSH_FLUSHING]⟩,
  ⟨"CTX_STORE_BASE", 0xa0028, 8, 1, [CTX_STORE_BASE_BASE]⟩,
  ⟨"CTX_DIR", 0xa0100, 8, 64, [CTX_DIR_CTX_NUM, CTX_DIR_TILES, CTX_DIR_TILE_OFF, CTX_DIR_VALID]⟩,
  ⟨"SCAN_CTRL", 0xb0000, 8, 1, [SCAN_CTRL_BLOCK, SCAN_CTRL_FREEZE, SCAN_CTRL_AUTO_INC]⟩,
  ⟨"SCAN_STATUS", 0xb0008, 8, 1, [SCAN_STATUS_FROZEN, SCAN_STATUS_ERROR]⟩,
  ⟨"SCAN_ADDR", 0xb0010, 8, 1, [SCAN_ADDR_WORD, SCAN_ADDR_CELL]⟩,
  ⟨"SCAN_DATA", 0xb0018, 8, 1, [SCAN_DATA_DATA]⟩]

/-- One region block, offsets from the region base (Table 19.12). -/
def rgnTable : List RegDesc :=
  rgnTable0 ++ rgnTable1 ++ rgnTable2 ++ rgnTable3 ++ rgnTable4 ++ rgnTable5

end Sys2Proof.Machine.Reg
end

