-- ==== Sys2Proof/Machine/RegMap.lean ====
section
/-!
DEFINITION. Decoding a register address (R444, Tables 19.1 to 19.3), the aliases of the region fault and interrupt
block (R454), and the reset value of every register (R453), the index-dependent ones of Tables 17.1, 17.2, 17.7,
17.14, 17.21, 6.12, 11.12 and 19.10 included.
-/

namespace Sys2Proof.Machine

/-- Default severity of region fault source i (Table 17.1). -/
def rgnSrcSev (i : Nat) : Nat :=
  if i < 27 then (if i % 3 = 2 then 2 else 3)
  else if i = 27 then 3 else if i = 28 then 2 else if i = 29 then 3 else if i = 30 then 2
  else if i = 31 then 1 else if i = 32 then 2 else if i = 33 then 1
  else if i = 38 then 1 else if i = 46 then 4 else if i < 48 then 2 else 0

/-- Default severity of chip fault source s (Table 17.2). -/
def chipSrcSev (s : Nat) : Nat :=
  if s = 0 then 1 else if s = 6 then 1 else if s = 7 then 5 else if s = 9 then 1 else if s = 11 then 5
  else if s = 16 then 5 else if s = 17 then 5 else if s = 18 then 1 else if s < 20 then 2 else 0

/-- Default severity of a fault source; a reserved source has none, 0 here (R398). -/
def srcSev (s : Nat) : Nat := if s < 64 then chipSrcSev s else rgnSrcSev ((s - 64) % 60)

/-- Is the source listed in Table 17.1 or Table 17.2 (R398)? -/
def srcListed (s : Nat) : Bool :=
  if s < 64 then s < 20 else s < 1024 && (s - 64) % 60 < 48

/-- Default target processor of an interrupt source (Table 17.7 and the text below it). -/
def irqTarget (s : Nat) : Nat :=
  if s < 64 then 32
  else if s < 1024 then 2 * ((s - 64) / 60) + 1
  else if s < 1044 then 35
  else if 1088 ≤ s ∧ s < 1216 then
    (if (s - 1088) % 8 ≤ 2 then 2 * ((s - 1088) / 8)
     else if (s - 1088) % 8 ≤ 5 then 2 * ((s - 1088) / 8) + 1 else 32)
  else 32

/-- Default priority of an interrupt source (Table 17.21). -/
def irqPrio (s : Nat) : Nat := if s = 7 then 15 else if s = 1042 then 4 else 8

/-- Which row of a table covers offset `a`, and which element of it. -/
def findIn : List RegDesc → Nat → Option (RegDesc × Nat)
  | [], _ => none
  | d :: ds, a =>
    if d.base ≤ a ∧ (a - d.base) % d.stride = 0 ∧ (a - d.base) / d.stride < d.count
    then some (d, (a - d.base) / d.stride) else findIn ds a

/-- The region an address lies in (Table 19.1). -/
def rgnOf (a : Nat) : Option (Fin 16) :=
  if h : 0x01000000 ≤ a ∧ a < 0x02000000 then
    some ⟨(a - 0x01000000) / 0x00100000, by omega⟩
  else none

/-- Where an alias leads: the register it names (R454); every other address is its own. -/
def unalias (a : Nat) : Nat :=
  match rgnOf a with
  | none => a
  | some n =>
    let o := a - rgnBase n
    if o = 0x80008 then Reg.FLT_ACK
    else if 0x80100 ≤ o ∧ o < 0x80140 then 0x20800 + 64 * n.val + (o - 0x80100)
    else if 0x81000 ≤ o ∧ o < 0x81000 + 480 then Reg.FLT_SRC_SEV (64 + 60 * n.val) + (o - 0x81000)
    else if 0x81400 ≤ o ∧ o < 0x81400 + 480 then Reg.FLT_SRC_STAT (64 + 60 * n.val) + (o - 0x81400)
    else a

/-- The register at an address (after the aliases), or none: a hole or a reserved range (R444). -/
def findReg (a : Nat) : Option (RegDesc × Nat) :=
  if a % 8 ≠ 0 then none
  else if a < 0x80000 then findIn Reg.chipTable a
  else match rgnOf a with
    | none => none
    | some n => findIn Reg.rgnTable (a - rgnBase n)

/-- Index-dependent reset values of the chip block: severities and FIXED (Tables 17.1, 17.2), interrupt priorities
and targets (Tables 17.7, 17.21), grace times (Table 17.14), PHASE of the management completion ring, and COOLANT_OK of
PWR_STATUS, the level of a pin that State.reset holds high (log entry 1). -/
def chipResetExtra (a : Nat) : Word :=
  if 0x31000 ≤ a ∧ a < 0x33000 then
    let i := (a - 0x31000) / 8
    BitVec.ofNat 64 (srcSev i + (if i = 7 ∨ i = 17 then 16 else 0))
  else if 0x21000 ≤ a ∧ a < 0x23800 then
    let i := (a - 0x21000) / 8
    BitVec.ofNat 64 (irqPrio i + 16 * irqTarget i)
  else if a = 0x30040 then 0x1000F4240 else if a = 0x30048 then 0x100989680
  else if a = 0x30050 then 0x5F5E100
  else if a = 0x60150 then 0x4000
  else if a = 0x10000 then 0x20000000
  else 0

/-- Index-dependent reset values of a region block: REGION of RGN_INFO, tier timeouts (Table 6.12), PHASE of the
completion ring (Table 11.12). `o` is the offset in region `n`'s block. -/
def rgnResetExtra (n : Fin 16) (o : Nat) : Word :=
  if o = 0 then BitVec.ofNat 64 n.val
  else if o = 0x30020 ∨ o = 0x30028 then 0x2710
  else if o = 0x30030 then 0x4C4B40 else if o = 0x30038 then 0x186A0
  else if o = 0x20050 then 0x4000
  else 0

/-- The part of a chip register's reset value that its field constants give; interrupt configuration words are
given whole by `chipResetExtra`. -/
def fieldPart (a : Nat) (d : RegDesc) : Word :=
  if 0x21000 ≤ a ∧ a < 0x23800 then 0 else fieldsReset d.fields

/-- The reset value of the register at an address (Reset columns; R453). An address that is no register has 0. -/
def regReset (a : Nat) : Word :=
  if a % 8 ≠ 0 then 0
  else if a < 0x80000 then
    match findIn Reg.chipTable a with
    | none => 0
    | some (d, _) => fieldPart a d ||| chipResetExtra a
  else match rgnOf a with
    | none => 0
    | some n =>
      match findIn Reg.rgnTable (a - rgnBase n) with
      | none => 0
      | some (d, _) => fieldsReset d.fields ||| rgnResetExtra n (a - rgnBase n)

end Sys2Proof.Machine
end

