-- ==== Sys2Proof/Machine/Assoc.lean ====
section
/-!
DEFINITION. Sparse maps in one canonical form: a list of (key, value) pairs with strictly rising keys that lists no
key whose value is the key's default. Memory, the register file and the cell array are such maps, so that equal
contents are equal lists.
-/

namespace Sys2Proof.Machine.Assoc

/-- The value at `k`: the listed one, else the default of `k`. -/
def get {α : Type} (d : Nat → α) : List (Nat × α) → Nat → α
  | [], k => d k
  | (k', v) :: m, k => if k = k' then v else get d m k

/-- Insert or replace `k`, keeping the keys rising. -/
def insert {α : Type} (k : Nat) (v : α) : List (Nat × α) → List (Nat × α)
  | [] => [(k, v)]
  | (k', v') :: m =>
    if k = k' then (k, v) :: m
    else if k < k' then (k, v) :: (k', v') :: m
    else (k', v') :: insert k v m

/-- Drop `k` from the list. -/
def remove {α : Type} (k : Nat) : List (Nat × α) → List (Nat × α)
  | [] => []
  | (k', v') :: m => if k = k' then remove k m else (k', v') :: remove k m

/-- Write `v` at `k`; writing the default removes the entry. -/
def put {α : Type} [DecidableEq α] (d : Nat → α) (k : Nat) (v : α) (m : List (Nat × α)) :
    List (Nat × α) :=
  if v = d k then remove k m else insert k v m

/-- Every key of the list is above `lo`. -/
def above {α : Type} (lo : Nat) : List (Nat × α) → Bool
  | [] => true
  | (k, _) :: _ => decide (lo < k)

/-- The canonical form. -/
def wf {α : Type} [DecidableEq α] (d : Nat → α) : List (Nat × α) → Bool
  | [] => true
  | (k, v) :: m => above k m && decide (v ≠ d k) && wf d m

end Sys2Proof.Machine.Assoc
end

