-- ==== Sys2Proof/Machine/State.lean ====
section
/-!
DEFINITION. The state of the block as plain data (INVENTORY.md, State), the reasons a command can stop for, and the
state after reset. Every register of spec/19_registers.md lives in `regs`, keyed by its address; the structures here
hold the state that the spec gives the machine outside the register map.
-/

namespace Sys2Proof.Machine

/-! ### Faults and interrupts (17_faults.md) -/

/-- One report, with the fields of its record (R400, Table 17.4). -/
structure Report where
  serial : BitVec 32
  source : Nat
  sev : Nat
  eff : Nat
  escalated : Bool
  forced : Bool
  latched : Bool
  tick : Nat
  region : Option Nat
  part : Option Nat
  cmd : Option (BitVec 16 × BitVec 16 × BitVec 32)
  count : Nat
  /-- Reports of the source lost immediately before this one (R414). -/
  lost : Nat
  addr : BitVec 128
  detail : BitVec 128
  deriving DecidableEq, Repr

/-- A source's entry in the kept store of chip domain 0 (R414). -/
structure Kept where
  source : Nat
  first : Report
  last : Option Report
  deriving DecidableEq, Repr

/-- A running grace timer (R407): its source, class and start, and the command its report named. -/
structure Grace where
  source : Nat
  cls : Nat
  start : Nat
  cmd : Option Nat
  info : FaultInfo
  deriving DecidableEq, Repr

/-- What a pending interrupt source will put in its record (R418). -/
structure Raise where
  source : Nat
  arrivals : Nat
  tick : Nat
  data : Word
  deriving DecidableEq, Repr

/-- A processor's event queue beyond its registers: arrival ticks of the records no interrupt has covered, oldest
first, and the interrupts raised so far (R420). -/
structure EventQ where
  uncovered : List Nat
  raised : Nat
  deriving DecidableEq, Repr

structure Faults where
  kept : List Kept
  grace : List Grace
  /-- Reports of a source since its previous record (Table 17.4, COUNT); absent means none. -/
  since : List (Nat × Nat)
  /-- Raises held in the capture latches (R421). -/
  latched : List (Nat × FaultInfo)
  /-- End of the ERR_N pulse in progress (R411). -/
  pulseEnd : Option Nat
  /-- Source 1,042 has been raised and the count has not fallen below THRESH since (R413). -/
  thresh : Bool
  raises : List Raise
  queues : Vector EventQ 36
  deriving DecidableEq, Repr

/-! ### Commands (11_commands.md, 12_serving.md) -/

/-- Where an entry fetched from a ring stands (R292, R300 to R304, R320). -/
inductive Phase where
  /-- Fetched and not yet checked. -/
  | fetched
  /-- Accepted, its plan or work not yet started. -/
  | accepted
  | running
  /-- Killed or poisoned, waiting for its re-run. -/
  | rerun
  /-- Ended without commit; its record waits for retirement. -/
  | ended
  | committed
  deriving DecidableEq, Repr

/-- Tiles in one region and tier: a reservation or an allocated range (R184, R185). -/
structure Extent where
  rgn : Nat
  tier : Nat
  first : Nat
  tiles : Nat
  deriving DecidableEq, Repr

/-- One command, from its fetch until its record is written. -/
structure Cmd where
  id : Nat
  ring : Ring
  part : Option Part
  pkt : List Byte
  phase : Phase
  status : Nat
  detail : Nat
  result : List Byte
  /-- Acceptance order number and tick (R305, R298). -/
  seq : Nat
  tick : Nat
  span : List Nat
  /-- Regions of the span whose plan has ended (R132, R300). -/
  done : List Nat
  /-- Plan ticks times RGN_RATE.STEPS of each region whose plan has ended (R322). -/
  ends : List (Nat × Nat)
  /-- The visited iterations of its plan in each region, fixed at acceptance (R322). -/
  iters : List (Nat × Option Nat)
  /-- The version bound at acceptance (R270) and the adapter slot (R275, R276). -/
  pkg : Option (Word × BitVec 32)
  adapter : Option (Word × BitVec 32 × Nat)
  slot : Nat
  startRow : Nat
  /-- Session rows: handle, NEW_POS (Table 11.2), and the page-table generation the command holds (R236). -/
  rows : List (BitVec 32 × Nat × Nat)
  shapes : List (BitVec 32)
  windows : List (Nat × List Byte)
  argBlock : List Byte
  /-- Reserved tiles not yet used: region, tier, count (R185). -/
  resv : List (Nat × Nat × Nat)
  /-- Reserved or allocated extents that its commit keeps and its end frees. -/
  extents : List Extent
  reruns : Nat
  kills : Nat
  poisonRerun : Bool
  poisoned : Bool
  remote : Bool
  missed : Bool
  planStart : Nat
  /-- Firmware's choices given with the command (handles, placements). -/
  ch : Choice
  /-- A companion read made for the command has failed with this status. -/
  rdErr : Option Nat
  /-- Directory entries and context-store tiles that a stage has reserved: region, entry, first tile and tiles (Table 10.6). -/
  holds : List (Nat × Nat × (Nat × Nat))
  /-- A JOB_ABORT or a waiting stage that follows this command's end (R269, R304). -/
  waits : List Nat
  /-- Bytes the command's work has read or written so far, as its rule lays them out. -/
  work : List Byte
  stepNo : Nat
  deriving DecidableEq, Repr

/-- A record on its way to a completion ring or in a shadow ring (R298, R335). -/
structure Rec where
  bytes : List Byte
  irq : Bool
  deriving DecidableEq, Repr

/-- A completion ring beyond its registers: arrival ticks of the records that no interrupt has followed (R284), and
the WIN_WR tags not yet acknowledged with their records and whether each is a replay (R333, R335, R337). -/
structure CqState where
  waiting : List Nat
  unacked : List (BitVec 16 × Rec × Bool)
  /-- The shadow ring (R335). -/
  shadow : List Rec
  deriving DecidableEq, Repr

inductive SessState where
  | opened | parked
  deriving DecidableEq, Repr

/-- One page table of a session: its region, layer group, generation and page tiles (R228, R236). -/
structure PageTable where
  rgn : Nat
  grp : Nat
  gen : BitVec 32
  /-- Edits the session had seen when this generation became current. -/
  edit : Nat
  /-- Tiles of a page block (R227). -/
  pb : Nat
  /-- First tile of the page block of each page index. -/
  pages : List Nat
  tableTile : Nat
  deriving DecidableEq, Repr

/-- A session record (R309). -/
structure Session where
  handle : BitVec 32
  client : BitVec 16
  pkg : Word
  adapter : Word
  len : Nat
  wlen : Nat
  st : SessState
  parkTier : Nat
  /-- Ticks of the time to live left, and the tick at which they began to run (none while stopped, R241). -/
  ttl : Nat
  ttlFrom : Option Nat
  tables : List PageTable
  /-- Edits made of its tables; what an edit unlinks is tagged with it (R237, R238). -/
  edits : Nat
  /-- Tiles of its park copy (R240). -/
  parkTiles : List Extent
  /-- The edit that takes out the blocks an ended command left unused still waits for a free table tile (R185, R235). -/
  trim : Bool
  deriving DecidableEq, Repr

/-- What an allocation is for: it decides what frees it. -/
inductive Owner where
  | alloc
  | pkg (id : Word) (ver : BitVec 32)
  | adapter (base id : Word) (ver : BitVec 32) (slot : Nat)
  | session (h : BitVec 32)
  | park (h : BitVec 32)
  | deferred (h : BitVec 32) (gen : Nat)
  | lots (offer : BitVec 32)
  | fold
  deriving DecidableEq, Repr

structure Alloc where
  ext : Extent
  owner : Owner
  deriving DecidableEq, Repr

/-- One section in a position's package space (R259): its TYPE, VAR, first near tile and tiles. -/
structure Placed where
  type : Nat
  var : Nat
  first : Nat
  tiles : Nat
  deriving DecidableEq, Repr

/-- A staged version of a package (R270 to R272). -/
structure Version where
  pkg : Word
  ver : BitVec 32
  targets : List Nat
  /-- The variant selected for each position (R264). -/
  variants : List Nat
  /-- The manifest tiles and the variant records (R263). -/
  manifest : List Byte
  records : List (List Byte)
  /-- Directory entries and context-store tiles of each position (R115). -/
  dirs : List (List Nat)
  dirTiles : List (List Nat)
  placed : List (List Placed)
  retiring : Bool
  /-- The tile where the package space of each position begins (R259). -/
  bases : List Nat
  /-- Its layer groups in order: region and PB (R227). -/
  groups : List (Nat × Nat)
  /-- Plans that copy to or from the region's fold tier: region and variant (R216). -/
  folds : List (Nat × Nat)
  deriving DecidableEq, Repr

/-- A loaded adapter version (R274 to R276). -/
structure Adapter where
  base : Word
  id : Word
  ver : BitVec 32
  slot : Nat
  dropped : Bool
  deriving DecidableEq, Repr

/-- A client counter slot (R326, R327). -/
structure Client where
  client : BitVec 16
  submitted : BitVec 24
  completed : BitVec 24
  aborted : BitVec 24
  rejected : BitVec 24
  deriving DecidableEq, Repr

/-- The cost of a start row of a version in a region: the last 64 committed runs, latest first (R322). -/
structure Cost where
  pkg : Word
  ver : BitVec 32
  row : Nat
  rgn : Nat
  /-- Steps and iterations of each run: plan ticks times RGN_RATE.STEPS, and 1,000 N. -/
  runs : List (Nat × Nat)
  deriving DecidableEq, Repr

/-- A hardware partition (R17, R308). -/
structure Partition where
  mask : BitVec 16
  encHerd : Bool
  encFold : Bool
  /-- Numbers of the keys in force for the herd and the fold tier; keys are never reused (R182). -/
  keyHerd : Nat
  keyFold : Nat
  requireSig : Bool
  signers : List (List Byte)
  digests : List (List Byte)
  /-- Quotas of tiers 1 to 4 (R183), and which of them QUOTA_SET has set (R374). -/
  quota : Vector Nat 4
  quotaSet : Vector Bool 4
  allocs : List Alloc
  sessions : List Session
  expired : List (BitVec 32)
  versions : List Version
  active : List (Word × BitVec 32)
  pkgOrder : List Word
  adapters : List Adapter
  clients : List Client
  overflow : Option Client
  costs : List Cost
  replay : Bool
  stopped : Bool
  /-- Fetching stopped by a failed fetch until the next write of TAIL, per ring (R281). -/
  fetchStop : BitVec 2
  consec0 : Nat
  cq : CqState
  deriving DecidableEq, Repr

/-! ### Regions (02_array.md to 09_experts.md) -/

/-- A token on the vector, scalar or control plane with its sideband (R93 to R95): the low bits of `data` hold it on
the narrower planes. `perr` holds the parity bits that do not fit the data, and `sub` is true once a port has put zero in place
of a value with a parity error (R46). `desc` is the READ whose flit it is (R131). -/
structure Flit where
  data : BitVec 128
  slot : Fin 4
  eot : Bool
  eos : Bool
  sig : Bool
  vlc : BitVec 6
  perr : BitVec 5
  sub : Bool
  desc : Option Nat
  deriving DecidableEq, Repr

/-- Does the token carry a parity error? -/
def Flit.bad (f : Flit) : Bool := f.perr != 0

/-- A stream pointer (R57): base, current address and signed stride. -/
structure Ptr where
  base : BitVec 13
  cur : BitVec 13
  stride : BitVec 13
  deriving DecidableEq, Repr

/-- One context slot of a cell: the configuration part of its record (Table 4.2), its 64 micro-ops, its program
counter and the steering state (Table 4.9). `unit` says where a governed unit with UNIT = 1 is going: 0 nowhere,
otherwise the OP of its control token plus 1, with the alternate set from bit 8 up (R117, R119). `loaded` is true where the
context has a record in the cell, and `own` is a state that a scan has put into the cell's copy (R123). -/
structure SlotSt where
  loaded : Bool
  own : Option (BitVec 3)
  pc : BitVec 6
  elem : BitVec 12
  busy : Bool
  config : List Byte
  prog : List (BitVec 64)
  ptrs : Vector Ptr 8
  unit : BitVec 16
  /-- Operand tokens that the micro-op at the program counter has taken so far (R25), oldest first. -/
  vtok : List Flit
  stok : Option Flit
  deriving DecidableEq, Repr

/-- One cell (Table 2.1, Table 4.9). Queues list the oldest token first; registers, masks and cell store are sparse
(unlisted is zero). `chk` lists words whose stored check bits are not those of their data (R45, R46, R123). -/
structure Cell where
  vin : Vector (List Flit) 9
  sin : Vector (List Flit) 5
  cin : Vector (List Flit) 5
  vout : Vector (Option Flit) 9
  sout : Vector (Option Flit) 5
  cout : Vector (Option Flit) 5
  /-- Output tokens of the micro-ops that wait for room at the local inputs: true for the scalar plane. -/
  outPend : List (Bool × Flit)
  /-- Last granted input of each output: vector 0-8, scalar 9-13, control 14-18 (R41). -/
  grant : List (Nat × Nat)
  /-- Outputs held by a tile-atomic route: output, input, slot (R41, R119). -/
  hold : List (Nat × Nat × Nat)
  active : Fin 4
  regs : List (Nat × BitVec 128)
  acc : List (Nat × BitVec 32)
  /-- Accumulator banks whose MMA has not completed, with the slot of that MMA (R69). -/
  bank : List (Nat × Nat)
  /-- The micro-op that each unit has issued and not completed, with its slot (R61, R64): the MAC array's MMA, and the vector
  micro-op whose outputs `outPend` holds. -/
  mac : Option (Nat × BitVec 64)
  vec : Option (Nat × BitVec 64)
  /-- The slot that each unit served last (R64). -/
  turnMac : Fin 4
  turnVec : Fin 4
  /-- In cell (0, 0): the block switch entered the shared scalar input last (R142). -/
  sclTurn : Bool
  masks : List (Nat × BitVec 32)
  store : List (Nat × BitVec 128)
  chk : List (Nat × BitVec 9)
  lfsr : Option (BitVec 32)
  flags : BitVec 6
  poison : Bool
  ce : Nat
  slots : Vector SlotSt 4
  pair : Option (BitVec 16)
  touched : BitVec 4
  /-- Words scanned into queue places that hold no token (R123), by scan word. -/
  resid : List (Nat × BitVec 64)
  /-- Granules of the field defect list (R48). -/
  field : List Nat
  /-- Outputs that have accepted a copy of the token at the head of an input (R35): input 0-8 vector, 9-13 scalar, 14-18
  control, and a bit an output. -/
  accepted : List (Nat × Nat)
  /-- Cell-store words read with errors (R48): word, and corrected errors, an uncorrectable one counting two. -/
  errs : List (Nat × Nat)
  deriving DecidableEq, Repr

def SlotSt.empty : SlotSt :=
  { loaded := false, own := none, pc := 0, elem := 0, busy := false, config := [], prog := [],
    ptrs := Vector.replicate 8 ⟨0, 0, 0⟩, unit := 0, vtok := [], stok := none }

/-- A cell as a block power-on leaves it (R384); its LFSR is seeded, `none` standing for the seed (R79). -/
def Cell.empty : Cell :=
  { vin := Vector.replicate 9 [], sin := Vector.replicate 5 [], cin := Vector.replicate 5 [],
    vout := Vector.replicate 9 none, sout := Vector.replicate 5 none, cout := Vector.replicate 5 none,
    outPend := [], grant := [], hold := [], active := 0, regs := [], acc := [], bank := [],
    mac := none, vec := none, turnMac := 3, turnVec := 3, sclTurn := false, masks := [], store := [],
    chk := [], lfsr := none, flags := 0, poison := false, ce := 0,
    slots := Vector.replicate 4 SlotSt.empty, pair := none, touched := 0, resid := [], field := [], accepted := [], errs := [] }

/-- One descriptor the sequencer has issued (R165 to R172): its row and bytes, the slot, the tile indices and in-range
extents passed with it (R138), and how far it has come. -/
structure Desc where
  id : Nat
  row : Nat
  bytes : List Byte
  cmd : Option Nat
  slot : Slot
  idx : List Nat
  ext : List Nat
  /-- Tiles whose request has been issued, tiles finished, and tiles whose write of a COPY has been issued (R172). -/
  next : Nat
  acked : Nat
  wrote : Nat
  /-- Tiles read and not yet delivered or written: tile of the transfer, bytes. -/
  buf : List (Nat × List Byte)
  /-- Flits that each link has carried (R168, R169): link 8b + y, count. -/
  cnt : List (Nat × Nat)
  /-- Flits collected, by their number in the transfer (R169). -/
  got : List (Nat × BitVec 128)
  deriving DecidableEq, Repr

/-- An outstanding tier request (R43, R180). `tile` is the tile of the transfer; `chip`, `circuit` and `tag` say where a
request to another chip went (R190, R355). -/
structure Req where
  id : Nat
  desc : Option Nat
  cmd : Option Nat
  tier : Nat
  addr : Nat
  tile : Nat
  write : Bool
  data : List Byte
  tick : Nat
  /-- The slot it was issued for (R107). -/
  slot : Option Nat
  remote : Option (Nat × Nat)
  killed : Bool
  /-- The erase block that a fold read reads (R202). -/
  blk : Option Nat
  /-- Where a copy that firmware makes writes the tile it reads: tier and tile (R163, R240, R242). -/
  dst : Option (Nat × Nat)
  deriving DecidableEq, Repr

/-- A load order for a slot (R110, R111). -/
structure LoadOrder where
  entry : Nat
  slot : Nat
  tick : Nat
  bound : Nat
  cmd : Option Nat
  started : Bool
  /-- Issued through CTX_LOAD (R111). -/
  ext : Bool
  deriving DecidableEq, Repr

/-- What the sequencer is about (R131, R132, R143): at the start of an entry, in an entry (its start, its iterations),
at a branch waiting for its descriptors and a token, for its answer, or stopped at HALT. -/
inductive SeqPhase where
  | entry | start | iterate | branch | answer | halted
  deriving DecidableEq, Repr

/-- The sequencer of a region while a plan runs (05_sequencer.md). -/
structure SeqSt where
  cmd : Option Nat
  /-- Near-tier offset of the plan image, as SEQ_TABLE_BASE stood at command start. -/
  table : Nat
  shapes : List (BitVec 32)
  phase : SeqPhase
  /-- Tile indices of DIM0 to DIM2 of the iteration being visited, and how many of its actions are done (R131). -/
  idx : List Nat
  took : Nat
  /-- Descriptors that the running entry has issued, and those of the group issued last (R131). -/
  issued : List Nat
  group : List Nat
  /-- Summary queue, oldest first (R143). -/
  summary : List Flit
  /-- Running RUN entry of each slot, with SUM_EN and SUM_SEM: slot, enable, semaphore (R145). -/
  running : List (Nat × Bool × Nat)
  /-- When the present wait began; none once it no longer counts as progress (R155). -/
  waitFrom : Option Nat
  waitLimit : Nat
  /-- Signals that wait for descriptors: the descriptor issues awaited and the semaphore and amount (R131). -/
  signals : List (List Nat × Nat × Nat)
  loads : List LoadOrder
  /-- A switch order issued and not yet released: slot, chip-wide (R102, R103, R105). -/
  order : Option (Nat × Bool)
  /-- Windows, walk windows and walk lists as they stood at command start (R166, R231), and the command's route jobs with
  the index of the next one (R244). -/
  wins : List (Word × Word)
  walks : List (Word × Nat)
  lists : List (List Byte)
  jobs : List (List Byte)
  jobIx : Nat
  /-- The plan has gone on past the last entry of the table (R127). -/
  past : Bool
  deriving DecidableEq, Repr

/-- A fold unit mapping (R196, R199, R201): logical unit, physical page, valid and poison masks, and write sequence. -/
structure FoldUnit where
  unit : Nat
  phys : Nat
  mask : BitVec 4
  poison : BitVec 4
  seq : Nat
  deriving DecidableEq, Repr

/-- An acknowledged unit write that counts as not programmed (R209, R210), with the mapping and content that it replaced (R213),
its page, and whether that page, if not yet every page of its wordline, is programmed. -/
structure FoldWrite where
  unit : Nat
  seq : Nat
  old : Option FoldUnit
  data : List Byte
  phys : Nat
  prog : Bool
  deriving DecidableEq, Repr

/-- The NAND operation that a LUN performs (R215): the read of a request, or the program of a write, by its sequence number. -/
inductive LunOp where
  | read (req : Nat)
  | program (seq : Nat)
  deriving DecidableEq, Repr

/-- An erase block of a fold channel (R203 to R207): erase count, read counter and its value at the last checkpoint, state
(Table 7.13), the retry level that last succeeded, pages programmed, whether a read of it was uncorrectable, and the period of
its last retention scrub, counted from 1 (R205). -/
structure FoldBlock where
  blk : Nat
  pe : Nat
  reads : Nat
  saved : Nat
  st : Nat
  level : Nat
  written : Nat
  ue : Bool
  scrub : Nat
  deriving DecidableEq, Repr

/-- A block never used. -/
def FoldBlock.fresh (blk : Nat) : FoldBlock := ⟨blk, 0, 0, 0, 0, 0, 0, false, 0⟩

/-- A fold channel and its translation layer (07_fold.md). A block not listed is free, with counters 0. -/
structure Fold where
  units : List FoldUnit
  wbuf : List FoldWrite
  blocks : List FoldBlock
  /-- Requests whose write the power-fail hold keeps unacknowledged, in order (R212). -/
  held : List Nat
  /-- The bad-block list: block, and whether it is grown bad (R207). -/
  badList : List (Nat × Bool)
  /-- Blocks queued for refresh, in order (R204, R205). -/
  refresh : List Nat
  /-- Journal bytes since the last checkpoint, and its tick (R214). -/
  journal : Nat
  lastCkpt : Nat
  hold : Bool
  /-- The channel has been flushed and nothing acknowledged since (R213). -/
  clean : Bool
  /-- The mailbox operation in progress: OP, ARG, and whether it was refused (R217). -/
  mbxOp : Option (Nat × Word × Bool)
  /-- Tiles recorded for a partition: first tile, tiles, partition, encrypted (R374). -/
  owners : List (Nat × Nat × Nat × Bool)
  /-- Fenced blocks that the field defect list records (R50). -/
  fences : List Nat
  /-- Pages that a unit has taken since their block was last erased (R198). -/
  spent : List Nat
  /-- The last sequence number that the flash and its journal hold (R201). -/
  lastSeq : Nat
  /-- The operation in progress on each LUN that performs one, and the program slots of each LUN since garbage collection had
  one (R215). -/
  luns : List (Nat × LunOp)
  slots : List (Nat × Nat)
  deriving DecidableEq, Repr

/-- A flit on an Axium link (R339, Tables 14.2 and 14.4): the fields of its header and the used part of its payload. -/
structure AxFlit where
  kind : Nat
  seq : BitVec 12
  ack : BitVec 12
  response : Bool
  circuit : Nat
  credits : Nat
  creditVc : Bool
  payload : List Byte
  /-- Part of a HELLO, the only message a port carries before it is JOINED (Table 14.3). -/
  hello : Bool
  deriving DecidableEq, Repr

/-- A request other than a tile that the port has sent and that is not yet answered: its REQ_ID, circuit and TYPE, the
command and descriptor it belongs to, the lots it names, and when it went out. -/
structure AxAsk where
  id : BitVec 16
  circuit : Nat
  type : Nat
  cmd : Option Nat
  desc : Option Nat
  offer : BitVec 32
  tick : Nat
  deriving DecidableEq, Repr

/-- One Axium circuit beyond its register FAB_CIRC (R348, R349, R363): the first PROBE of a bind, the arrival of the last
message, the PROBE not yet answered, the bind's wait after NAK UNBOUND, and the bind or unbind command. -/
structure Circuit where
  index : Nat
  first : Nat
  lastRx : Nat
  probed : Option Nat
  retry : Option Nat
  cmd : Option Nat
  deriving DecidableEq, Repr

/-- The Axium port of a region (14_axium.md). `sent` is what the port has put on the link, oldest first; `waiting` the
flits that wait for a credit or for room in the replay buffer. -/
structure Port where
  nextSeq : BitVec 12
  replay : List AxFlit
  waiting : List AxFlit
  sent : List AxFlit
  lastGood : BitVec 12
  discarding : Bool
  credits : Vector Nat 2
  owed : Vector Nat 2
  lastFlit : Nat
  /-- SEQ of the last replay request received and how many in a row have named it (R343). -/
  lastReq : BitVec 12
  reqRepeats : Nat
  nonce : List Byte
  peerNonce : List Byte
  /-- Tahr is signing a HELLO; the HELLO last sent carried VALID 1 (R345). -/
  signing : Bool
  helloValid : Bool
  circuits : List Circuit
  asks : List AxAsk
  deriving DecidableEq, Repr

structure Region where
  seq : SeqSt
  descs : List Desc
  reqs : List Req
  fold : Fold
  port : Port
  /-- The command whose plan the region runs (R313). -/
  plan : Option Nat
  frozen : BitVec 9
  /-- When the first of the frozen blocks stopped (R121). -/
  frozenFrom : Nat
  /-- Blocks asked to freeze (R121), and frozen blocks that have missed a switch order (R106). -/
  freezing : BitVec 9
  missed : BitVec 9
  /-- Consecutive clean sweeps of each slot (R108). -/
  clean : Vector Nat 4
  /-- Slots the tile mover or a block switch has held since the last sweep (R108). -/
  touched : BitVec 4
  /-- Control tokens and extent tokens that a block switch has still to inject at cell (0, 0): block, token (R134, R141). -/
  ctlOut : List (Nat × Flit)
  sclOut : List (Nat × Flit)
  /-- Of each block switch: grants to other classes that tile data has waited behind (R36), and the ejection link granted
  last (R37). -/
  tileAge : Vector Nat 9
  ejTurn : Vector Nat 9
  /-- A slot whose load the sequencer waits for before its next entry (R130). -/
  syncLoad : Option Nat
  /-- Parity errors of links into the region's cells within the last second: link, tick (R50). -/
  linkErrs : List (Nat × Nat)
  /-- The stall monitor (R44): tick of the last cell step or command end, and whether it has raised its source since. -/
  stepAt : Nat
  stalled : Bool
  /-- Counters of the last DISPATCH round, an entry an expert, as MOE_CNT_DATA returns them (R255). -/
  moeCnt : List Word
  /-- Slots that were loaded when the blocks went off, to be reloaded before the next plan (R384). -/
  reload : BitVec 4
  /-- The slot that runs the ballast context (R391). -/
  ballast : Option (Fin 4)
  /-- When the region's last plan ended or its services came on (R384), and when each slot was last active (R391). -/
  idleFrom : Nat
  activeAt : Vector Nat 4
  deriving DecidableEq, Repr

/-! ### Chip units -/

/-- A message the device has sent on Taith, or is to send once it holds a credit (R329, R331). -/
structure TxMsg where
  type : BitVec 8
  len : Nat
  tag : BitVec 16
  arg : Byte
  addr : Word
  data : List Byte
  /-- Credits returned in the header: class (3 none) and count (R331). -/
  credCls : Nat
  credCount : Nat
  deriving DecidableEq, Repr

/-- An outstanding class-R request of the device (R329): its tag, companion address, and who asked for it. -/
structure RdReq where
  tag : BitVec 16
  addr : Nat
  window : Bool
  cmd : Option Nat
  /-- Tags of the snoops of the line that wait for the fill (R333). -/
  snoops : List (BitVec 16)
  deriving DecidableEq, Repr

structure Taith where
  sent : List TxMsg
  waiting : List TxMsg
  credits : Vector Nat 3
  owed : Vector Nat 3
  /-- Queue-cache lines in state Shared, least recently used first: line address and its 64 bytes (R332). -/
  cache : List (Nat × List Byte)
  /-- Lines of companion memory read outside the window and not yet used. -/
  membuf : List (Nat × List Byte)
  /-- Window lines that a snoop has invalidated while they were being read, kept for the command that asked (R333). -/
  held : List (Option Nat × Nat × List Byte)
  reads : List RdReq
  /-- Tags of event-record and argument-block writes to companion memory not yet acknowledged (R333). -/
  writes : List (BitVec 16)
  nextTag : BitVec 16
  lastRx : Nat
  lastTx : Nat
  lossAt : Option Nat
  /-- Sessions that R336 has tried to park in this loss: partition and handle. -/
  parkTried : List (Nat × BitVec 32)
  /-- Width the link trained at, as TAITH_STATUS.WIDTH codes it: L0p of deep idle ends at it (R328, R385). -/
  trained : Nat
  deriving DecidableEq, Repr

/-- An offer of herd lots to other chips, or lots borrowed from one (R357 to R361). -/
structure Offer where
  part : Part
  id : BitVec 32
  rgn : Nat
  first : Nat
  lots : Nat
  /-- Lots lent: lot, borrower chip, circuit. -/
  lent : List (Nat × Nat × Nat)
  /-- Lots taken back from a borrower, whose later requests are refused (R360). -/
  gone : List (Nat × Nat × Nat)
  withdrawn : Bool
  /-- When the notice given to the borrowers ends. -/
  notice : Option Nat
  deriving DecidableEq, Repr

structure Borrow where
  part : Part
  rgn : Nat
  lot : Nat
  chip : Nat
  circuit : Nat
  lenderLot : Nat
  offer : BitVec 32
  notice : Option Nat
  recalled : Bool
  deriving DecidableEq, Repr

/-- Power, cooling and the rack (16_power.md). -/
structure Power where
  /-- Bytes 0x00-0x3F of the policy in force and its UNATTENDED profile (Table 16.5). -/
  policy : List Byte
  unattended : List Byte
  /-- The 168 domains (Table 16.2): blocks 0-143, region services 144-159, chip domains 160-167. -/
  domains : BitVec 168
  /-- Window means in W, latest first, at most 100 (R386). -/
  history : List Nat
  /-- The power-fail hold (R394, R406, R396). -/
  hold : Bool
  /-- Voltage changes in order of arrival: region and code to go to (R382). -/
  changes : List (Nat × Nat)
  vddCore : Nat
  /-- A VDD_CORE value asked of the regulator and not yet reported (R381). -/
  vddAsked : Option Nat
  flowOk : Option Nat
  badReads : Nat
  /-- Inlet derating in tenths of a watt (R395). -/
  derate : Nat
  wdtFrom : Nat
  wdtExpired : Option Nat
  tripAt : Option Nat
  /-- Regions asked to wake: a dispatched command or bring-up waits for their blocks (Table 16.3, R372). -/
  wake : BitVec 16
  lastActive : Nat
  /-- Start power in 0.1 W of the plans started since the last window (R389). -/
  started : Nat
  /-- Since when plan starts or the power-fail hold have kept the stall monitors from counting (R389). -/
  holdFrom : Option Nat
  /-- Power of each region's last plan in 0.1 W (R389). -/
  startPower : Vector Nat 16
  shut : Bool
  deriving DecidableEq, Repr

/-- A firmware bundle in the staging store (R439, R443). -/
structure Staging where
  bytes : List Byte
  checked : Bool
  pldm : Bool
  last : Nat
  deriving DecidableEq, Repr

/-- A message that the MCTP endpoint has sent in answer (R443): the binding, whether the request was served, and the value
it returns. -/
structure MctpReply where
  bus : MctpBus
  ok : Bool
  value : Option Int
  deriving DecidableEq, Repr

/-- A Tahr mailbox operation as it was started (Table 18.9). -/
structure MbxOp where
  op : Nat
  index : Nat
  buf : Nat
  failed : Bool
  deriving DecidableEq, Repr

/-- Fuses, keys, measurements and firmware (18_security.md). -/
structure Security where
  counter : Nat
  revoke : BitVec 4
  mrs : Vector (List Byte) 16
  /-- The bundle running, the flash slots A and B, and the slot the selector names (R441). -/
  running : List Byte
  flash : Vector (List Byte) 2
  current : Nat
  staging : Option Staging
  /-- Tahr's request queue: verifications and signatures asked for, oldest first (R425). -/
  queue : List (Nat × Nat)
  challenge : Option (List Byte)
  /-- The mailbox operation in progress: OP, INDEX, BUF, and whether a read of the buffer has failed. -/
  mbxOp : Option MbxOp
  eid : Byte
  /-- Answers of the MCTP endpoint, oldest first. -/
  mctpOut : List MctpReply
  deriving DecidableEq, Repr

/-- Bring-up (15_bringup.md). -/
structure Boot where
  /-- Tick of the start: the rise of POR_N or the warm reset (R377). -/
  start : Nat
  /-- Tick of stage 2, or of the link's training in minimal mode: BOOT_WDT stops there. -/
  upAt : Option Nat
  /-- A warm reset deferred while fold flushes run (R368). -/
  pendingWarm : Bool
  /-- TEST_EN was high at the rise of POR_N: the device serves nothing (R457). -/
  testHold : Bool
  /-- Reason of the companion's last image that failed its checks (R370, R379); 0 none. -/
  imageReason : Nat
  /-- Stand-in size in GiB as read at each region's step 2 (R373). -/
  standin : Vector Nat 16
  /-- The companion's image that passed its checks. -/
  image : List Byte
  deriving DecidableEq, Repr

/-- The board's pins (20_pins.md). -/
structure Pins where
  porN : Bool
  warmRstN : Bool
  pwrfailN : Bool
  coolantOk : Bool
  errN : Bool
  thermtripN : Bool
  refclkLost : Bool
  deriving DecidableEq, Repr

/-- Why the machine stops with a fault. -/
inductive Fault where
  /-- Raised by every command but POR_N_FALL, POR_N_RISE and SUPPLY_FALL once REFCLK_100M is lost: the spec leaves the
  behaviour open until POR_N (R464). Safe: the hardware may go on, the model does not. -/
  | refclkLost
  deriving DecidableEq, Repr

/-- Why the machine refuses a command. -/
inductive Refusal where
  /-- Raised by the dispatch for a command that has no meaning yet. Safe: nothing can be proved of it. -/
  | notModelled (mnemonic : String)
  deriving DecidableEq, Repr

/-- The machine. -/
structure State where
  /-- Commands waiting, first in first out. -/
  pending : List Instr
  /-- Local time in ticks (R13); CHIP_TIME reads it. -/
  now : Nat
  regs : List (Nat × Word)
  mem : List Host.Cell
  /-- Poisoned 64-byte lines, as line numbers (R178). -/
  poison : List Nat
  /-- Key number each tile was written under, by tile number of the memory (R181, R182); 0 is no encryption. -/
  keys : List (Nat × Nat)
  nextKey : Nat
  cells : List (Nat × Cell)
  rgns : Vector Region 16
  parts : Vector Partition 16
  cmds : List Cmd
  nextId : Nat
  nextSeq : Nat
  flt : Faults
  taith : Taith
  mgmtCq : CqState
  mgmtStop : Bool
  /-- Why each broken chip barrier is broken (R153): barrier and status. -/
  barCause : List (Nat × Nat)
  offers : List Offer
  borrows : List Borrow
  pwr : Power
  sec : Security
  boot : Boot
  pins : Pins
  /-- The model's own counter of free values; no claim rests on it (log entry 6). -/
  free : Nat
  deriving DecidableEq, Repr

/-! ### Reset (R366, R453) -/

def Faults.reset : Faults :=
  { kept := [], grace := [], since := [], latched := [], pulseEnd := none, thresh := false, raises := [],
    queues := Vector.replicate 36 ⟨[], 0⟩ }

def CqState.reset : CqState := ⟨[], [], []⟩

def Partition.reset : Partition :=
  { mask := 0, encHerd := false, encFold := false, keyHerd := 0, keyFold := 0, requireSig := false, signers := [], digests := [],
    quota := Vector.replicate 4 0, quotaSet := Vector.replicate 4 false, allocs := [], sessions := [],
    expired := [], versions := [], active := [], pkgOrder := [], adapters := [], clients := [], overflow := none,
    costs := [], replay := false, stopped := false, fetchStop := 0, consec0 := 0, cq := CqState.reset }

def SeqSt.reset : SeqSt :=
  { cmd := none, table := 0, shapes := [], phase := .entry, idx := [], took := 0, issued := [], group := [],
    summary := [], running := [], waitFrom := none, waitLimit := 0, signals := [], loads := [], order := none,
    wins := [], walks := [], lists := [], jobs := [], jobIx := 0, past := false }

def Fold.reset : Fold :=
  { units := [], wbuf := [], blocks := [], held := [], badList := [], refresh := [], journal := 0, lastCkpt := 0,
    hold := false, clean := true, mbxOp := none, owners := [], fences := [], spent := [], lastSeq := 0, luns := [], slots := [] }

def Port.reset : Port :=
  { nextSeq := 0, replay := [], waiting := [], sent := [], lastGood := 0, discarding := false,
    credits := Vector.replicate 2 0, owed := Vector.replicate 2 0, lastFlit := 0, lastReq := 0, reqRepeats := 0,
    nonce := [], peerNonce := [], signing := false, helloValid := false, circuits := [], asks := [] }

def Region.reset : Region :=
  { seq := SeqSt.reset, descs := [], reqs := [], fold := Fold.reset, port := Port.reset, plan := none, frozen := 0,
    frozenFrom := 0, freezing := 0, missed := 0,
    clean := Vector.replicate 4 0, touched := 0, ctlOut := [], sclOut := [],
    tileAge := Vector.replicate 9 0, ejTurn := Vector.replicate 9 7, syncLoad := none,
    linkErrs := [], stepAt := 0, stalled := false, moeCnt := [], reload := 0, ballast := none,
    idleFrom := 0, activeAt := Vector.replicate 4 0 }

def Taith.reset : Taith :=
  { sent := [], waiting := [], credits := Vector.replicate 3 0, owed := Vector.replicate 3 0, cache := [],
    membuf := [], held := [], reads := [], writes := [], nextTag := 0, lastRx := 0, lastTx := 0, lossAt := none, parkTried := [],
    trained := 0 }

/-- The reset profile (16_power.md, The power policy) in the layout of Table 16.5. -/
def resetProfile : List Byte :=
  [0x01, 0x01, 0x00, 0x00, 0xB6, 0x03, 0x32, 0x00, 0x32, 0x00, 0x00, 0x00, 0x2C, 0x01, 0xFA, 0x00,
   0x00, 0xE1, 0xF5, 0x05, 0x00, 0x00, 0x00, 0x00, 0x00, 0x00, 0x00, 0x00, 0x00, 0x00, 0x00, 0x00] ++
  List.replicate 16 0x19 ++ [0x00, 0x00, 0x64] ++ List.replicate 13 0x00

/-- Domains after reset: every chip domain but 6 (debug is locked) and every region service on, blocks off (R383). -/
def resetDomains : BitVec 168 := 0xBFFFFF#168 <<< 144

def Power.reset : Power :=
  { policy := resetProfile, unattended := resetProfile, domains := resetDomains, history := [], hold := false,
    changes := [], vddCore := 900, vddAsked := none, flowOk := none, badReads := 0, derate := 0, wdtFrom := 0,
    wdtExpired := none, tripAt := none, wake := 0, lastActive := 0, started := 0, holdFrom := none,
    startPower := Vector.replicate 16 250, shut := false }

def Security.reset : Security :=
  { counter := Config.fusedCounter, revoke := Config.fusedRevoke,
    mrs := Vector.replicate 16 (List.replicate 48 0), running := [],
    flash := ⟨#[Config.flashImage 0, Config.flashImage 1], rfl⟩, current := 0, staging := none, queue := [],
    challenge := none, mbxOp := none, eid := 0, mctpOut := [] }

def Boot.reset : Boot :=
  { start := 0, upAt := none, pendingWarm := false, testHold := false, imageReason := 0, standin := Vector.replicate 16 0, image := [] }

/-- Pin levels with the board's supplies and coolant good, POR_N high and no reset asked for. -/
def Pins.reset : Pins :=
  { porN := true, warmRstN := true, pwrfailN := true, coolantOk := true, errN := true, thermtripN := true,
    refclkLost := false }

/-- The machine right after power-on reset: POR_N has risen with both straps and TEST_EN low, chip stage 0. Every
register is at its reset value (`regs` lists none), memory lists nothing, no command waits. -/
def State.reset : State :=
  { pending := [], now := 0, regs := [], mem := [], poison := [], keys := [], nextKey := 1, cells := [],
    rgns := Vector.replicate 16 Region.reset, parts := Vector.replicate 16 Partition.reset, cmds := [],
    nextId := 0, nextSeq := 0, flt := Faults.reset, taith := Taith.reset, mgmtCq := CqState.reset, mgmtStop := false, barCause := [], offers := [],
    borrows := [], pwr := Power.reset, sec := Security.reset, boot := Boot.reset, pins := Pins.reset, free := 0 }

end Sys2Proof.Machine
end

