-- ==== Sys2Proof/Machine/Ops.lean ====
section
/-!
DEFINITION. The named operations over registers, memory, regions, partitions and commands that every meaning uses.
-/

namespace Sys2Proof.Machine

/-! ### Registers -/

/-- What the register file holds at an address. -/
def State.reg (s : State) (a : Nat) : Word := Assoc.get regReset s.regs a

/-- Store a register. -/
def State.setReg (s : State) (a : Nat) (v : Word) : State :=
  { s with regs := Assoc.put regReset a v s.regs }

/-- A field of a register. -/
def State.fld (s : State) (a : Nat) (f : Fld) : Nat := f.get (s.reg a)

/-- A one-bit field as a truth value. -/
def State.flag (s : State) (a : Nat) (f : Fld) : Bool := s.fld a f != 0

/-- Set a field of a register (the device's own update, whatever the access type). -/
def State.setFld (s : State) (a : Nat) (f : Fld) (x : Nat) : State := s.setReg a (f.put (s.reg a) x)

/-- Add to a counter field, saturating at the field's greatest value. -/
def State.bump (s : State) (a : Nat) (f : Fld) (k : Nat) : State :=
  s.setFld a f (min (s.fld a f + k) (2 ^ f.w - 1))

/-- A truth value as a field's value. -/
def bit (b : Bool) : Nat := if b then 1 else 0

/-! ### Bytes (R3) -/

/-- `n` bytes of a value, byte 0 first. -/
def leBytes : Nat → Nat → List Byte
  | 0, _ => []
  | n + 1, v => BitVec.ofNat 8 v :: leBytes n (v / 256)

/-- The value of a byte string, byte 0 lowest. -/
def leNat : List Byte → Nat
  | [] => 0
  | b :: bs => b.toNat + 256 * leNat bs

/-- `n` bytes at an offset of a byte string; bytes past its end read 0. -/
def slice (l : List Byte) (off n : Nat) : List Byte := Config.fit n (l.drop off)

/-- The value of `n` bytes at an offset. -/
def leAt (l : List Byte) (off n : Nat) : Nat := leNat (slice l off n)

/-- Replace bytes of a byte string from an offset. -/
def splice (l : List Byte) (off : Nat) (b : List Byte) : List Byte :=
  l.take off ++ b ++ l.drop (off + b.length)

/-! ### Memory: one list of cells over the near, herd and fold tiers of every region and the cores' local memories -/

/-- What an unlisted byte reads as (log entry 2). -/
def memDefault (_ : Nat) : Byte := 0

/-- Address of an offset in a space (0 near, 1 herd, 2 fold, 3 core memory) of a region or processor. -/
def spaceAddr (space n off : Nat) : Nat := space * 2 ^ 60 + n * 2 ^ 52 + off
def nearAddr (n off : Nat) : Nat := spaceAddr 0 n off
def herdAddr (n off : Nat) : Nat := spaceAddr 1 n off
def foldAddr (n off : Nat) : Nat := spaceAddr 2 n off
def coreAddr (p off : Nat) : Nat := spaceAddr 3 p off

/-- One byte. -/
def State.byte (s : State) (a : Nat) : Byte := Assoc.get memDefault s.mem a

/-- Store one byte. -/
def putByte (m : List Host.Cell) (a : Nat) (b : Byte) : List Host.Cell := Assoc.put memDefault a b m

/-- Bytes stored from an address upward. -/
def putBytes (m : List Host.Cell) : Nat → List Byte → List Host.Cell
  | _, [] => m
  | a, b :: bs => putBytes (putByte m a b) (a + 1) bs

def State.store (s : State) (a : Nat) (b : List Byte) : State := { s with mem := putBytes s.mem a b }

/-- `n` bytes from an address upward. -/
def State.load (s : State) (a : Nat) : Nat → List Byte
  | 0 => []
  | n + 1 => s.byte a :: s.load (a + 1) n

/-- The canonical form of memory. -/
def Memory.wf (m : List Host.Cell) : Bool := Assoc.wf memDefault m

/-! ### Regions, partitions, commands -/

def Vec.modify {α : Type} {k : Nat} (v : Vector α k) (i : Nat) (f : α → α) : Vector α k :=
  if h : i < k then v.set i (f v[i]) else v

def State.rgn (s : State) (n : Rgn) : Region := s.rgns[n]
def State.modRgn (s : State) (n : Nat) (f : Region → Region) : State := { s with rgns := Vec.modify s.rgns n f }
def State.part (s : State) (p : Part) : Partition := s.parts[p]
def State.modPart (s : State) (p : Part) (f : Partition → Partition) : State :=
  { s with parts := Vec.modify s.parts p.val f }

/-- A fresh free value (log entry 6). -/
def State.fresh (s : State) : Word × State := (Config.freeWord s.free, { s with free := s.free + 1 })

/-- Every region number. -/
def allRgns : List Rgn := List.finRange 16

/-- Does a partition hold a region? -/
def Partition.has (p : Partition) (n : Nat) : Bool := p.mask.getLsbD n

/-- The regions of a mask, ascending. -/
def maskRgns (m : BitVec 16) : List Rgn := allRgns.filter fun n => m.getLsbD n.val

/-- The lead region of a partition (R183): the lowest of its mask. -/
def Partition.lead (p : Partition) : Option Rgn := (maskRgns p.mask).head?

/-- The partition a region belongs to (R17), as CMD_STATUS shows it. -/
def State.partOf (s : State) (n : Rgn) : Option Part :=
  if s.flag (Reg.CMD_STATUS n) Reg.CMD_STATUS_ASSIGNED then
    some (Fin.ofNat 16 (s.fld (Reg.CMD_STATUS n) Reg.CMD_STATUS_PARTITION))
  else none

def State.cmd (s : State) (id : Nat) : Option Cmd := s.cmds.find? fun c => c.id == id

def State.modCmd (s : State) (id : Nat) (f : Cmd → Cmd) : State :=
  { s with cmds := s.cmds.map fun c => if c.id = id then f c else c }

/-- Header fields of a packet (Table 11.1). -/
def Cmd.opcode (c : Cmd) : Nat := leAt c.pkt 0 1
def Cmd.flags (c : Cmd) : Nat := leAt c.pkt 1 1
def Cmd.tag (c : Cmd) : Nat := leAt c.pkt 2 2
def Cmd.client (c : Cmd) : Nat := leAt c.pkt 4 2
def Cmd.deadline (c : Cmd) : Nat := leAt c.pkt 8 4

/-- Accepted and not yet ended or committed. -/
def Cmd.live (c : Cmd) : Bool := c.phase == .accepted || c.phase == .running || c.phase == .rerun

/-- Accepted and its record not yet written (R288, R293). -/
def Cmd.unretired (c : Cmd) : Bool := c.phase != .fetched

/-- The home region (R300): the lowest of the span. -/
def Cmd.home (c : Cmd) : Nat := c.span.foldl min 16

/-! ### The Global Tile Address (Table 6.5) -/

def mkGta (chip rgn tier part off : Nat) : BitVec 128 :=
  BitVec.ofNat 128 (chip * 2 ^ 110 + rgn % 16 * 2 ^ 106 + tier % 8 * 2 ^ 103 + part % 16 * 2 ^ 99 + off % 2 ^ 64)
def gtaChip (g : BitVec 128) : Nat := g.toNat / 2 ^ 110
def gtaRgn (g : BitVec 128) : Nat := g.toNat / 2 ^ 106 % 16
def gtaTier (g : BitVec 128) : Nat := g.toNat / 2 ^ 103 % 8
def gtaPart (g : BitVec 128) : Nat := g.toNat / 2 ^ 99 % 16
def gtaOff (g : BitVec 128) : Nat := g.toNat % 2 ^ 64
/-- Well formed (R190). -/
def gtaOk (g : BitVec 128) : Bool :=
  g.toNat / 2 ^ 64 % 2 ^ 35 == 0 && decide (gtaTier g < 5) && gtaOff g % 4096 == 0

/-- This chip's fabric identity (R344). -/
def myChip (s : State) : Nat := s.fld Reg.FAB_CHIP_ID Reg.FAB_CHIP_ID_ID

/-- The GTA of a place in a region of this chip, named in the region's partition: what a fault record's ADDR holds (Table 17.4). -/
def hereGta (s : State) (n : Rgn) (tier off : Nat) : BitVec 128 :=
  mkGta (myChip s) n.val tier (((s.partOf n).map Fin.val).getD 0) off

/-! ### Power domains (Table 16.2) -/

def blkDom (n b : Nat) : Nat := n * 9 + b
def rgnDom (n : Nat) : Nat := 144 + n
def chipDom (k : Nat) : Nat := 160 + k
def State.domOn (s : State) (d : Nat) : Bool := s.pwr.domains.getLsbD d
def State.setDom (s : State) (d : Nat) (on : Bool) : State :=
  { s with pwr := { s.pwr with
      domains := if on then s.pwr.domains ||| (1#168 <<< d) else s.pwr.domains &&& ~~~ (1#168 <<< d) } }

/-! ### Quarantine and stages -/

def State.quarantined (s : State) (n : Rgn) : Bool :=
  s.flag (Reg.RGN_BLOCK_STATE n) Reg.RGN_BLOCK_STATE_QUARANTINED

def State.stage (s : State) (n : Rgn) : Nat := s.fld (Reg.BOOT_RGN n) Reg.BOOT_RGN_STAGE
def State.chipStage (s : State) : Nat := s.fld Reg.BOOT_STATUS Reg.BOOT_STATUS_CHIP_STAGE

/-- A chip-fatal stop is in force (R406). -/
def State.fatal (s : State) : Bool := s.flag Reg.FLT_STATUS Reg.FLT_STATUS_FATAL

/-! ### Outcome of a command

A device held in reset by POR_N does nothing (R366); after REFCLK_100M is lost its behaviour is not specified until
POR_N (R464). -/

def live (s : State) (f : State → State) : Host.Outcome State Fault Refusal :=
  if !s.pins.porN || s.boot.testHold then .next s
  else if s.pins.refclkLost then .fault .refclkLost
  else .next (f s)

end Sys2Proof.Machine
end

