-- ==== Sys2Proof/Machine/Ending.lean ====
section
/-!
DEFINITION. Stopping a plan and ending a command without commit (R114, R144, R158, R302 to R304, R320): shared by
aborts, kills, contained faults, timeouts and partition resets.
-/

namespace Sys2Proof.Machine

/-! ### Cells -/

/-- Every cell not listed is as block power-on leaves it. -/
def cellDefault (_ : Nat) : Cell := Cell.empty

def cellKey (n c : Nat) : Nat := n * 576 + c

def State.cell (s : State) (n c : Nat) : Cell := Assoc.get cellDefault s.cells (cellKey n c)

def State.setCell (s : State) (n c : Nat) (x : Cell) : State :=
  { s with cells := Assoc.put cellDefault (cellKey n c) x s.cells }

/-- Update every listed cell of region `n`; an unlisted cell holds nothing to update. -/
def State.modCells (s : State) (n : Nat) (f : Nat → Cell → Cell) : State :=
  { s with
    cells := List.filter (fun p => p.2 != Cell.empty)
      (s.cells.map fun p => if p.1 / 576 = n then (p.1, f (p.1 % 576) p.2) else p) }

/-- Block of a cell index (R89). -/
def cellBlk (c : Nat) : Nat := c / 64

/-! ### Slots (Table 4.5, Table 4.10) -/

def slotEmpty : Nat := 0
def slotLoading : Nat := 1
def slotIdle : Nat := 2
def slotActive : Nat := 3
def slotDraining : Nat := 4
def slotFlushing : Nat := 5

/-- State field of a slot in CTX_SLOT_STATE. -/
def slotFld (sl : Nat) : Fld := ⟨4 * sl, 3, .ro, 0⟩
def State.slotState (s : State) (n : Rgn) (sl : Nat) : Nat := s.fld (Reg.CTX_SLOT_STATE n) (slotFld sl)
def State.setSlotState (s : State) (n : Rgn) (sl st : Nat) : State :=
  s.setFld (Reg.CTX_SLOT_STATE n) (slotFld sl) st
/-- The state that a cell keeps for its copy of a slot (R100): the sequencer's, but for one that a scan has put there (R123). -/
def cellSlotState (s : State) (n : Rgn) (c : Cell) (sl : Nat) : Nat :=
  match (c.slots.toList.getD sl SlotSt.empty).own with
  | some v => v.toNat
  | none => s.slotState n sl
def State.activeSlot (s : State) (n : Rgn) : Nat := s.fld (Reg.CTX_SLOT_STATE n) Reg.CTX_SLOT_STATE_ACTIVE

/-- One bit of CTX_FLUSH.FLUSHING. -/
def flushingFld (sl : Nat) : Fld := ⟨Reg.CTX_FLUSH_FLUSHING.lo + sl, 1, .ro, 0⟩

/-! ### Flush (R114) -/

def keepOther (sl : Nat) (l : List Flit) : List Flit := l.filter fun f => f.slot.val != sl
def dropSlot (sl : Nat) (o : Option Flit) : Option Flit := o.filter fun f => f.slot.val != sl

/-- The head of an input queue by its number over the three planes. -/
def Cell.headAt (c : Cell) (k : Nat) : Option Flit :=
  (if k < 9 then c.vin.toList.getD k [] else if k < 14 then c.sin.toList.getD (k - 9) [] else c.cin.toList.getD (k - 14) []).head?

/-- A cell discards every token of the slot, abandons its micro-op, and clears its counters and steering state. -/
def Cell.flush (sl : Nat) (c : Cell) : Cell :=
  { c with
    vin := c.vin.map (keepOther sl), sin := c.sin.map (keepOther sl), cin := c.cin.map (keepOther sl),
    vout := c.vout.map (dropSlot sl), sout := c.sout.map (dropSlot sl), cout := c.cout.map (dropSlot sl),
    outPend := c.outPend.filter fun p => p.2.slot.val != sl,
    hold := c.hold.filter fun h => h.2.2 != sl,
    accepted := c.accepted.filter fun a => (c.headAt a.1).map (fun f => f.slot.val) != some sl,
    bank := c.bank.filter fun b => b.2 != sl,
    mac := c.mac.filter fun y => y.1 != sl,
    pair := c.pair.filter fun t => t.toNat % 4 != sl,
    slots := Vec.modify c.slots sl fun x => { x with own := none, pc := 0, elem := 0, busy := false, unit := 0, vtok := [], stok := none } }

/-- A flush order of one slot: it waits behind a load (R114). -/
def flushSlot (n : Rgn) (sl : Nat) (s : State) : State :=
  let st := s.slotState n sl
  let s1 := s.setFld (Reg.CTX_FLUSH n) (flushingFld sl) 1
  let s2 := s1.modRgn n fun r => { r with clean := Vec.modify r.clean sl fun _ => 0 }
  if st = slotLoading then s2
  else
    let s3 := s2.modCells n fun _ c => c.flush sl
    let s4 := s3.modRgn n fun r => { r with
      ctlOut := r.ctlOut.filter fun p => p.2.slot.val != sl, sclOut := r.sclOut.filter fun p => p.2.slot.val != sl,
      reqs := r.reqs.map fun q => if q.slot = some sl then { q with killed := true } else q,
      descs := r.descs.map fun d => if d.slot.val = sl then { d with buf := [] } else d }
    if st = slotActive ∨ st = slotDraining then s4.setSlotState n sl slotFlushing else s4

def flushAll (n : Rgn) (s : State) : State :=
  flushSlot n 3 (flushSlot n 2 (flushSlot n 1 (flushSlot n 0 s)))

/-! ### Stopping a plan (R158) -/

/-- Cancel the requests of a command in a region: their responses will be late (R180). -/
def cancelReqs (n : Rgn) (id : Nat) (s : State) : State :=
  s.modRgn n fun r => { r with
    descs := r.descs.filter fun d => d.cmd != some id,
    reqs := r.reqs.map fun q => if q.cmd = some id then { q with killed := true } else q }

/-- The arrival of a region that waits at a barrier is withdrawn when its plan stops, so that it does not reach the next command
(R154). A broken barrier keeps what ARRIVED shows until firmware clears it (R153). -/
def dropArrival (n : Rgn) (s : State) : State :=
  let q := Reg.SEQ_STATUS n
  let a := Reg.BAR_STATE (s.fld q Reg.SEQ_STATUS_WAIT_OBJ % 64)
  let k := s.fld a Reg.BAR_STATE_ARRIVED
  if s.flag q Reg.SEQ_STATUS_RUNNING ∧ s.fld q Reg.SEQ_STATUS_WAIT_KIND = 2 ∧ ¬ s.flag a Reg.BAR_STATE_BROKEN ∧ k.testBit n.val then
    s.setFld a Reg.BAR_STATE_ARRIVED (k - 2 ^ n.val)
  else s

/-- The sequencer stops at once, the tile mover cancels the command's requests, the summary queue is emptied (R144),
and firmware flushes the command's slots. -/
def stopPlan (n : Rgn) (id : Nat) (s : State) : State :=
  let s1 := cancelReqs n id s
  if (s1.rgn n).plan = some id then
    let keep := fun (l : LoadOrder) =>
      if l.cmd = some id then (if l.started then some { l with cmd := none } else none) else some l
    let s2 := (dropArrival n s1).modRgn n fun r => { r with
      seq := { SeqSt.reset with loads := r.seq.loads.filterMap keep }, plan := none, idleFrom := s.now, syncLoad := none }
    let s3 := ((s2.setFld (Reg.SEQ_STATUS n) Reg.SEQ_STATUS_RUNNING 0).setFld (Reg.SEQ_STATUS n)
      Reg.SEQ_STATUS_WAIT_KIND 0).setFld (Reg.SEQ_SUMMARY n) Reg.SEQ_SUMMARY_QUEUED 0
    let s4 := (s3.setFld (Reg.SRV_STATUS n) Reg.SRV_STATUS_RANK 0).setFld (Reg.SRV_STATUS n) Reg.SRV_STATUS_TAG 0
    flushAll n (s4.setFld (Reg.MOE_STATUS n) Reg.MOE_STATUS_WAITING 0)
  else s1

def stopIn (id : Nat) (s : State) : List Rgn → State
  | [] => s
  | n :: ns => stopIn id (stopPlan n id s) ns

def stopEverywhere (id : Nat) (s : State) : State := stopIn id s allRgns

/-! ### Ending a command -/

/-- Status codes (Table 11.16). -/
def ST_OK : Nat := 0x00
def ST_OK_EMPTY : Nat := 0x01
def ST_ABORT_LATE : Nat := 0x02
def ST_ABORTED : Nat := 0x03
def ST_BAD_OPCODE : Nat := 0x10
def ST_BAD_PARAM : Nat := 0x11
def ST_SHAPE_EXCEEDS_PLAN : Nat := 0x12
def ST_NO_PACKAGE : Nat := 0x13
def ST_SLOT_BUSY : Nat := 0x14
def ST_SEQ_LIMIT : Nat := 0x15
def ST_QUOTA : Nat := 0x20
def ST_ADMIT_MEMORY : Nat := 0x21
def ST_ADMIT_DEADLINE : Nat := 0x22
def ST_TIER_ERROR : Nat := 0x30
def ST_TIER_TIMEOUT : Nat := 0x31
def ST_REMOTE_LOST : Nat := 0x32
def ST_NO_CIRCUIT : Nat := 0x33
def ST_REGION_QUARANTINED : Nat := 0x40
def ST_PARTITION_RESET : Nat := 0x41
def ST_AUTH_FAIL : Nat := 0x50
def ST_ROLLBACK : Nat := 0x51
def ST_SESSION_UNKNOWN : Nat := 0x60
def ST_SESSION_EXPIRED : Nat := 0x61
def ST_SESSION_BUSY : Nat := 0x62
def ST_INTERNAL : Nat := 0xFF

/-- A SESSION_RESUME that ends without commit restarts the clock with the time that remained (R241, R242). -/
def restartClock (c : Cmd) (s : State) : State :=
  match c.part with
  | none => s
  | some p =>
    if c.opcode = 0x25 then
      let f := fun (y : Session) =>
        if y.handle = BitVec.ofNat 32 (leAt c.pkt 0x10 4) ∧ y.st = .parked ∧ y.ttlFrom.isNone then { y with ttlFrom := some s.now } else y
      s.modPart p fun q => { q with sessions := q.sessions.map f }
    else s

/-- End a command without commit, if its commit has not been ordered first (R302, R304, R404): its plans stop, its
reservation is released, and its record will carry `status`. -/
def endCommand (id status detail : Nat) (s : State) : State :=
  match s.cmd id with
  | none => s
  | some c =>
    if c.live then
      (restartClock c (stopEverywhere id s)).modCmd id fun c =>
        { c with phase := .ended, status := status, detail := detail, result := [], resv := [], extents := [] }
    else s

/-- Region firmware clears the poison flags of the command's regions (R46). -/
def clearPoison (s : State) : List Nat → State
  | [] => s
  | n :: ns => clearPoison (s.modCells n fun _ c => { c with poison := false }) ns

/-- Stop a command and return it to its place in the order for a re-run (R320, R321, R46); its binding, snapshot and
reservation stay. -/
def rerunCommand (id : Nat) (kill : Bool) (s : State) : State :=
  match s.cmd id with
  | none => s
  | some c =>
    if c.phase = .running then
      (clearPoison (stopEverywhere id s) (if kill then [] else c.span)).modCmd id fun c =>
        { c with phase := .rerun, done := [], ends := [], poisoned := false, reruns := c.reruns + 1,
                 kills := c.kills + bit kill, poisonRerun := c.poisonRerun || !kill }
    else s

def endAll (status : Nat) (s : State) : List Nat → State
  | [] => s
  | id :: ids => endAll status (endCommand id status 0 s) ids

/-- The unretired commands with region `n` in their span. -/
def State.spanning (s : State) (n : Nat) : List Nat :=
  (s.cmds.filter fun c => c.live && c.span.contains n).map Cmd.id

end Sys2Proof.Machine
end

