-- ==== Sys2Proof/Machine/Resetting.lean ====
section
/-!
DEFINITION. Warm reset, failed starts and minimal mode (R368, R377, R378, Table 19.6), shared by pins, registers,
timers and chip-fatal reports.
-/

namespace Sys2Proof.Machine

/-- Is any fold flush running (R368)? -/
def anyFlushing (s : State) : Bool := allRgns.any fun n => s.flag (Reg.FOLD_STATUS n) Reg.FOLD_STATUS_FLUSHING

/-- What a region keeps of its fold channel: contents and journalled metadata (R368). -/
def Fold.kept (f : Fold) : Fold := { f with held := [], hold := false, mbxOp := none, luns := [], slots := [] }

/-- Tiles that wait to be freed are released by the bring-up (R312). -/
def deferredOwner : Owner → Bool
  | .deferred _ _ => true
  | _ => false

/-- Fold tiles the translation layer records for a partition (R374): first tile, tiles, partition, encrypted. -/
def foldOwners (s : State) (n : Nat) : List (Nat × Nat × Nat × Bool) :=
  (allRgns.flatMap fun (p : Fin 16) =>
    let q := s.part p
    (List.filter (fun (a : Alloc) => a.ext.rgn == n && a.ext.tier == 3 && !deferredOwner a.owner) q.allocs).map fun a =>
      (a.ext.first, a.ext.tiles, p.val, q.encFold)) ++ (s.rgns.toList.getD n Region.reset).fold.owners

/-- The last sequence number of the channel that is kept (R201): the last acknowledged one, once the channel has been recovered. -/
def keptSeq (s : State) (n : Rgn) : Nat :=
  if s.flag (Reg.FOLD_STATUS n) Reg.FOLD_STATUS_READY then s.fld (Reg.FOLD_SEQ n) Reg.FOLD_SEQ_ACKED else (s.rgn n).fold.lastSeq

/-- A region's fold channel through a reset: contents, journalled metadata and the tiles recorded for partitions. -/
def keptRegion (s : State) (n : Rgn) : Region :=
  { Region.reset with fold := { (s.rgn n).fold.kept with owners := foldOwners s n.val, lastSeq := keptSeq s n } }

/-- The field defect list is kept in the fold metadata (R48). -/
def keptCells (l : List (Nat × Cell)) : List (Nat × Cell) :=
  List.filter (fun p => p.2 != Cell.empty) (l.map fun p => (p.1, { Cell.empty with field := p.2.field }))

/-- Only the fold tier keeps its contents. -/
def keptMem (m : List Host.Cell) : List Host.Cell := m.filter fun p => p.1 / 2 ^ 60 == 2

/-- The key under which each fold tile was written: the keys themselves are gone, and are never used again (R182). -/
def keptKeys (k : List (Nat × Nat)) : List (Nat × Nat) := k.filter fun p => p.1 / 2 ^ 48 == 2

/-- Domains in minimal mode: no region, no chip domain 4 (R378). -/
def minimalDomains : BitVec 168 := 0xAF0000#168 <<< 144

/-- Enter minimal mode when ATTEMPTS reads 3 or STRAP_RECOVER was sampled high (R378). -/
def enterMinimal (s : State) : State :=
  let recover := s.flag Reg.BOOT_STATUS Reg.BOOT_STATUS_RECOVER
  if s.fld Reg.BOOT_STATUS Reg.BOOT_STATUS_ATTEMPTS = 3 ∨ recover then
    let s1 := s.setFld Reg.BOOT_STATUS Reg.BOOT_STATUS_MINIMAL 1
    let s2 := if recover then s1.setFld Reg.BOOT_STATUS Reg.BOOT_STATUS_REASON 0x0A else s1
    let s3 := { s2 with pwr := { s2.pwr with domains := minimalDomains } }
    allRgns.foldl (fun t (n : Rgn) => t.setFld (Reg.PWR_RGN n.val) Reg.PWR_RGN_SERVICE_ON 0) s3
  else s

/-- Pin-level fields of PWR_STATUS. -/
def showPins (s : State) : State :=
  (s.setFld Reg.PWR_STATUS Reg.PWR_STATUS_PWRFAIL (bit !s.pins.pwrfailN)).setFld Reg.PWR_STATUS
    Reg.PWR_STATUS_COOLANT_OK (bit s.pins.coolantOk)

/-- The warm reset itself (R368): everything is lost but the listed exceptions. -/
def warmReset (s : State) : State :=
  let keep := fun (f : Fld) (t : State) => t.setFld Reg.BOOT_STATUS f (s.fld Reg.BOOT_STATUS f)
  let t0 : State := { State.reset with
    pending := s.pending, now := s.now, free := s.free, nextId := s.nextId,
    mem := keptMem s.mem, keys := keptKeys s.keys, nextKey := s.nextKey, cells := keptCells s.cells, rgns := Vector.ofFn (keptRegion s),
    sec := { State.reset.sec with counter := s.sec.counter, revoke := s.sec.revoke, flash := s.sec.flash,
                                  current := s.sec.current },
    boot := { Boot.reset with start := s.now },
    pwr := { Power.reset with wdtFrom := s.now, lastActive := s.now },
    pins := { s.pins with errN := true } }
  let t1 := keep Reg.BOOT_STATUS_SRC (keep Reg.BOOT_STATUS_RECOVER (keep Reg.BOOT_STATUS_ATTEMPTS
    (keep Reg.BOOT_STATUS_REASON (keep Reg.BOOT_STATUS_WARM_RESETS t0))))
  enterMinimal (showPins (t1.bump Reg.BOOT_STATUS Reg.BOOT_STATUS_WARM_RESETS 1))

/-- Request a warm reset; it waits while a fold flush runs (R368). After a thermal trip only POR_N resets (R396). -/
def requestWarm (s : State) : State :=
  if s.pwr.tripAt.isSome then s
  else if anyFlushing s then { s with boot := { s.boot with pendingWarm := true } } else warmReset s

/-- A failed start (R377): only before CHIP_STAGE reaches 2; never in minimal mode. -/
def failedStart (reason : Nat) (s : State) : State :=
  if s.chipStage < 2 ∧ ¬ s.flag Reg.BOOT_STATUS Reg.BOOT_STATUS_MINIMAL ∧ ¬ s.boot.pendingWarm then
    requestWarm ((s.setFld Reg.BOOT_STATUS Reg.BOOT_STATUS_REASON reason).bump Reg.BOOT_STATUS
      Reg.BOOT_STATUS_ATTEMPTS 1)
  else s

end Sys2Proof.Machine
end

