-- ==== Sys2Proof/Machine/Faults.lean ====
section
/-!
DEFINITION. The fault controller and the interrupt controller (17_faults.md): raising a source, taking a report with
the actions of its severity, the record ring and the kept store, escalation, and raising an interrupt source.
-/

namespace Sys2Proof.Machine

/-! ### Source numbers (R398, Table 17.7) -/

def rgnSrc (n i : Nat) : Nat := 64 + 60 * n + i
/-- The region of a source. -/
def srcRgn (src : Nat) : Option Rgn := if 64 ≤ src then some (Fin.ofNat 16 ((src - 64) / 60)) else none
def evCompletion (p : Nat) : Nat := 1024 + p
def evMgmt : Nat := 1040
def evBoot : Nat := 1041
def evRing : Nat := 1042
def evTaith : Nat := 1043
def evRgn (n j : Nat) : Nat := 1088 + 8 * n + j

/-! ### Interrupt sources (R416 to R422) -/

/-- Is the source listed in Table 17.7 or a listed fault source (R416)? -/
def irqListed (src : Nat) : Bool :=
  if src < 1024 then srcListed src
  else decide (src < 1044) || (decide (1088 ≤ src) && decide (src < 1216) && decide ((src - 1088) % 8 < 6))

def State.irqPending (s : State) (src : Nat) : Bool :=
  (s.reg (Reg.IRQ_PEND_SET (src / 64))).getLsbD (src % 64)
def State.irqEnabled (s : State) (src : Nat) : Bool :=
  (s.reg (Reg.IRQ_EN_SET (src / 64))).getLsbD (src % 64)

/-- Set or clear the pending bit of a source; the set and clear addresses read the same state (R422). -/
def setPend (src : Nat) (on : Bool) (s : State) : State :=
  let w := s.reg (Reg.IRQ_PEND_SET (src / 64))
  let b := (1#64) <<< (src % 64)
  let v := if on then w ||| b else w &&& ~~~ b
  (s.setReg (Reg.IRQ_PEND_SET (src / 64)) v).setReg (Reg.IRQ_PEND_CLR (src / 64)) v

/-- One raise folded into what the source's next record will say (R418). -/
def foldRaise (src tick : Nat) (data : Word) (k : Nat) : List Raise → List Raise
  | [] => [⟨src, k, tick, data⟩]
  | r :: rs =>
    if r.source = src then { r with arrivals := min (r.arrivals + k) 255, data := data } :: rs
    else r :: foldRaise src tick data k rs

/-- A raise of an interrupt source: pending, folded (R418, R419), and counted unless its capture latch has counted it (R421). -/
def irqFold (count : Bool) (src : Nat) (data : Word) (s : State) : State :=
  if irqListed src then
    let s1 := if count then s.bump (Reg.IRQ_SRC_CNT src) Reg.IRQ_SRC_CNT_COUNT 1 else s
    let s2 := { s1 with flt := { s1.flt with raises := foldRaise src s.now data 1 s1.flt.raises } }
    setPend src true s2
  else s

def irqRaise (src : Nat) (data : Word) (s : State) : State := irqFold true src data s

/-! ### The record (Table 17.4) -/

def Report.flags (r : Report) (phase kept : Bool) : Nat :=
  bit phase + 2 * bit kept + 4 * bit r.latched + 8 * bit r.cmd.isSome + 16 * bit (r.eff == 5)

def Report.bytes (r : Report) (phase kept : Bool) : List Byte :=
  let c := r.cmd.getD (0, 0, 0)
  leBytes 4 r.serial.toNat ++ leBytes 2 r.source ++
  leBytes 1 (r.sev + 8 * r.eff + 64 * bit r.escalated + 128 * bit r.forced) ++
  leBytes 1 (r.flags phase kept) ++ leBytes 8 r.tick ++
  leBytes 1 (r.region.getD 0xFF) ++ leBytes 1 (r.part.getD 0xFF) ++
  leBytes 2 c.1.toNat ++ leBytes 2 c.2.1.toNat ++ leBytes 1 (min r.count 255) ++ [0] ++
  leBytes 4 c.2.2.toNat ++ leBytes 4 (min r.lost 0xFFFFFFFF) ++
  leBytes 16 r.addr.toNat ++ leBytes 16 r.detail.toNat

/-! ### The fault record ring (R413) -/

def ringSize (s : State) : Nat := 2 ^ s.fld Reg.FLT_RING_CFG Reg.FLT_RING_CFG_SIZE
def ringUsed (s : State) : Nat :=
  (s.fld Reg.FLT_RING_PTR Reg.FLT_RING_PTR_TAIL + ringSize s - s.fld Reg.FLT_RING_PTR Reg.FLT_RING_PTR_HEAD)
    % ringSize s
def ringEnabled (s : State) : Bool := s.flag Reg.FLT_RING_CFG Reg.FLT_RING_CFG_ENABLE
def ringRgn (s : State) : Rgn := Fin.ofNat 16 (s.fld Reg.FLT_RING_CFG Reg.FLT_RING_CFG_REGION)

/-- Can the ring take a record? -/
def ringRoom (s : State) : Bool :=
  ringEnabled s && !s.quarantined (ringRgn s) && decide (ringUsed s < ringSize s - 1)

/-- Source 1,042 rises once each time the unconsumed count comes from below THRESH to THRESH (R413). -/
def ringThreshold (s : State) : State :=
  let thr := max 1 (s.fld Reg.FLT_RING_PTR Reg.FLT_RING_PTR_THRESH)
  if thr ≤ ringUsed s then
    if s.flt.thresh then s
    else irqRaise evRing 0 { s with flt := { s.flt with thresh := true } }
  else { s with flt := { s.flt with thresh := false } }

/-- Write one record at TAIL and advance it. -/
def ringWrite (r : Report) (kept : Bool) (s : State) : State :=
  let tail := s.fld Reg.FLT_RING_PTR Reg.FLT_RING_PTR_TAIL
  let phase := s.flag Reg.FLT_RING_PTR Reg.FLT_RING_PTR_PHASE
  let a := herdAddr (ringRgn s) (4096 * s.fld Reg.FLT_RING_CFG Reg.FLT_RING_CFG_BASE + 64 * tail)
  let s1 := s.store a (r.bytes phase kept)
  let tail' := (tail + 1) % ringSize s
  let s2 := s1.setFld Reg.FLT_RING_PTR Reg.FLT_RING_PTR_TAIL tail'
  let s3 := if tail' = 0 then s2.setFld Reg.FLT_RING_PTR Reg.FLT_RING_PTR_PHASE (bit !phase) else s2
  ringThreshold s3

/-! ### The kept store (R414) -/

def showKept (src : Nat) (s : State) : State :=
  let k := (s.flt.kept.find? fun x => x.source == src)
  let code := match k with | none => 0 | some x => if x.last.isSome then 2 else 1
  (s.setFld (Reg.FLT_SRC_STAT src) Reg.FLT_SRC_STAT_KEPT code).setFld Reg.FLT_RING_STAT
    Reg.FLT_RING_STAT_KEPT_SRCS s.flt.kept.length

def keepReport (r : Report) (s : State) : State :=
  let old := s.flt.kept.find? fun x => x.source == r.source
  let new : Kept := match old with
    | none => ⟨r.source, r, none⟩
    | some x => { x with last := some { r with lost := match x.last with | some l => l.lost + 1 | none => 0 } }
  let lost := match old with | some x => x.last.isSome | none => false
  let s1 := { s with flt := { s.flt with
    kept := new :: s.flt.kept.filter fun x => x.source != r.source } }
  let s2 := if lost then
      (s1.bump (Reg.FLT_SRC_STAT r.source) Reg.FLT_SRC_STAT_LOST 1).bump Reg.FLT_RING_STAT
        Reg.FLT_RING_STAT_OVERFLOW 1
    else s1
  showKept r.source s2

/-- Reports of a source since its previous record. -/
def State.since (s : State) (src : Nat) : Nat := ((s.flt.since.find? fun p => p.1 == src).map Prod.snd).getD 0
def setSince (src k : Nat) (s : State) : State :=
  { s with flt := { s.flt with since := (src, k) :: s.flt.since.filter fun p => p.1 != src } }

/-! ### ERR_N (R411) -/

/-- Level of ERR_N outside a pulse. -/
def errLevel (s : State) : Bool :=
  if s.fatal then false
  else
    let m := s.fld Reg.ERR_PIN_CTRL Reg.ERR_PIN_CTRL_MODE
    if m = 1 then !((List.range 1024).any fun src =>
      s.flag (Reg.FLT_SRC_SEV src) Reg.FLT_SRC_SEV_PIN && s.flag (Reg.FLT_SRC_STAT src) Reg.FLT_SRC_STAT_PENDING)
    else if m = 2 then s.flag Reg.ERR_PIN_CTRL Reg.ERR_PIN_CTRL_LEVEL
    else true

def driveErr (level : Bool) (s : State) : State :=
  ({ s with pins := { s.pins with errN := level } }).setFld Reg.ERR_PIN_CTRL Reg.ERR_PIN_CTRL_PIN (bit level)

/-- ERR_N follows MODE unless a pulse or a chip-fatal stop holds it. -/
def settleErr (s : State) : State :=
  if s.flt.pulseEnd.isSome ∨ s.fatal then s else driveErr (errLevel s) s

/-- A pulse of 2 us from the latest report. -/
def pulseErr (s : State) : State :=
  driveErr false ({ s with flt := { s.flt with pulseEnd := some (s.now + 200) } }.setFld Reg.ERR_PIN_CTRL
    Reg.ERR_PIN_CTRL_PULSE 1)

/-! ### Grace timers (R407) -/

def stopGrace (src : Nat) (s : State) : State :=
  { s with flt := { s.flt with grace := s.flt.grace.filter fun g => g.source != src } }
def startGrace (src cls : Nat) (info : FaultInfo) (s : State) : State :=
  let s1 := stopGrace src s
  { s1 with flt := { s1.flt with grace := ⟨src, cls, s.now, info.cmd, info⟩ :: s1.flt.grace } }
/-- FLT_GRACE_c.TICKS, clamped (Table 17.14). -/
def graceTicks (s : State) (cls : Nat) : Nat :=
  max 100 (min 100000000 (s.fld (Reg.FLT_GRACE (cls - 2)) Reg.FLT_GRACE_TICKS))

/-- FLT_STATUS.ANY_PENDING. -/
def showPending (s : State) : State :=
  s.setFld Reg.FLT_STATUS Reg.FLT_STATUS_ANY_PENDING
    (bit ((List.range 1024).any fun src => s.flag (Reg.FLT_SRC_STAT src) Reg.FLT_SRC_STAT_PENDING))

/-- PENDING, EFF and the timer of a report of effective severity 2 or more (R407). -/
def pendReport (src eff : Nat) (esc : Bool) (info : FaultInfo) (s : State) : State :=
  let st := Reg.FLT_SRC_STAT src
  let was := if s.flag st Reg.FLT_SRC_STAT_PENDING then s.fld st Reg.FLT_SRC_STAT_EFF else 0
  let e := max was eff
  let s1 := ((s.setFld st Reg.FLT_SRC_STAT_PENDING 1).setFld st Reg.FLT_SRC_STAT_EFF e)
  let s2 := if esc then s1.setFld st Reg.FLT_SRC_STAT_ESCALATED 1 else s1
  let s3 := s2.setFld Reg.FLT_STATUS Reg.FLT_STATUS_ANY_PENDING 1
  if e ≤ 4 then startGrace src e info s3 else stopGrace src s3

/-! ### Containment (R404 to R406) -/

/-- Is the source a block cell source (Table 17.1)? -/
def isCellSrc (src : Nat) : Bool := decide (64 ≤ src) && decide ((src - 64) % 60 < 27) && decide ((src - 64) % 60 % 3 = 0)

/-- Does the report come with a poison flag (R46): a cell source, or a parity error of a link? -/
def poisonReport (src : Nat) (forced : Bool) (info : FaultInfo) : Bool :=
  isCellSrc src || (!forced && decide (64 ≤ src) && decide ((src - 64) % 60 < 27) && (src - 64) % 60 % 3 == 1 &&
    info.detail.toNat / 2 ^ 14 % 4 == 0)

/-- The end request of contain-request, ordered at the home arbiter (R404): a report of a poison flag re-runs the command once,
unless it uses a window to another chip (R356). -/
def containRequest (again : Bool) (cmd : Option Nat) (status : Nat) (s : State) : State :=
  match cmd with
  | none => s
  | some id =>
    match s.cmd id with
    | none => s
    | some c =>
      if again ∧ ¬ c.poisonRerun ∧ ¬ c.remote ∧ c.phase = .running then rerunCommand id false s
      else endCommand id status 0 s

/-- Chip barriers of which a region is a member are broken, and their waiters end (R153). -/
def breakBar (status : Nat) (b : Nat) (s : State) : State :=
  let arrived := s.fld (Reg.BAR_STATE b) Reg.BAR_STATE_ARRIVED
  let s0 := { s with barCause := (b, status) :: s.barCause.filter fun x => x.1 != b }
  let s1 := s0.setFld (Reg.BAR_STATE b) Reg.BAR_STATE_BROKEN 1
  let ids := (allRgns.filter fun n => arrived.testBit n.val).filterMap fun n => (s.rgn n).plan
  endAll status s1 ids

def breakBars (n : Rgn) (status : Nat) (s : State) : List Nat → State × List Nat
  | [] => (s, [])
  | b :: bs =>
    if s.flag (Reg.BAR_CFG b) Reg.BAR_CFG_ENABLE ∧ (s.fld (Reg.BAR_CFG b) Reg.BAR_CFG_MEMBERS).testBit n.val
        ∧ ¬ s.flag (Reg.BAR_STATE b) Reg.BAR_STATE_BROKEN then
      let r := breakBars n status (breakBar status b s) bs
      (r.1, b :: r.2)
    else breakBars n status s bs

/-- Quarantine a region until the next bring-up (R52): its unretired commands end, its barriers break, and a
fault ring in its herd tier is disabled. Returns the broken barriers, each of which raises source 1. -/
def quarantine (n : Rgn) (s : State) : State × List Nat :=
  let s1 := s.setFld (Reg.RGN_BLOCK_STATE n) Reg.RGN_BLOCK_STATE_QUARANTINED 1
  let s2 := endAll ST_REGION_QUARANTINED s1 (s1.spanning n)
  let s3 := if ringEnabled s2 ∧ ringRgn s2 = n then s2.setFld Reg.FLT_RING_CFG Reg.FLT_RING_CFG_ENABLE 0 else s2
  breakBars n ST_REGION_QUARANTINED s3 (List.range 64)

/-- The power-fail hold and the start of every fold flush (R394 step 1, R212, R406). -/
def holdAndFlush (s : State) : State :=
  let s1 := { s with pwr := { s.pwr with hold := true, holdFrom := some (s.pwr.holdFrom.getD s.now) } }
  allRgns.foldl (fun t (n : Rgn) =>
    let t1 := t.modRgn n fun r => { r with fold := { r.fold with hold := true } }
    if t1.domOn (rgnDom n) then
      t1.setFld (Reg.FOLD_STATUS n) Reg.FOLD_STATUS_FLUSHING 1 else t1) s1

def copyFatal (b : List Byte) (s : State) : List Nat → State
  | [] => s
  | k :: ks => copyFatal b (s.setReg (Reg.FLT_FATAL k) (BitVec.ofNat 64 (leAt b (8 * k) 8))) ks

/-- The chip-fatal stop (R406): `phase` is the PHASE of the record. -/
def chipFatal (r : Report) (phase : Bool) (s : State) : State :=
  let s1 := copyFatal (r.bytes phase false) (holdAndFlush s) (List.range 8)
  driveErr false (s1.setFld Reg.FLT_STATUS Reg.FLT_STATUS_FATAL 1)

/-! ### Taking a report -/

/-- The configured severity; 6 and 7 are treated as 5 (Table 17.17). -/
def State.sev (s : State) (src : Nat) : Nat := min 5 (s.fld (Reg.FLT_SRC_SEV src) Reg.FLT_SRC_SEV_SEV)

/-- First session of a command. -/
def Cmd.session (c : Cmd) : BitVec 32 :=
  match c.rows with
  | r :: _ => r.1
  | [] => 0

/-- The memory channel of a tile: near tiles go round the region's twelve channels (R175), the other tiers have one (R159). -/
def tierChannel (n : Rgn) (tier off : Nat) : Nat := if tier = 1 then 12 * n.val + off / 4096 % 12 else n.val

/-- Is the source one of the tile mover, near, herd and fold tile sources (Table 17.5)? -/
def isTileSrc (i : Nat) : Bool := (decide (30 ≤ i) && decide (i ≤ 34)) || i == 37

/-- Their DETAIL: TM_ERR, and the channel of the failing tile. -/
def tileDetail (s : State) (n : Rgn) (i : Nat) (addr : BitVec 128) : Nat :=
  let tier := if i = 30 then s.fld (Reg.TM_ERR n) Reg.TM_ERR_TIER else if i ≤ 32 then 1 else if i = 37 then 3 else 2
  let off := if i = 30 then (s.reg (Reg.TM_ERR_ADDR n)).toNat else gtaOff addr
  (s.reg (Reg.TM_ERR n)).toNat + 2 ^ 64 * tierChannel n tier off

/-- The status register of a source (Table 17.5, Others; log entry 59). -/
def statusReg (src : Nat) : Option Nat :=
  match srcRgn src with
  | some n =>
    let i := (src - 64) % 60
    if i < 27 ∨ i = 39 ∨ i = 40 then some (Reg.RGN_BLOCK_STATE n)
    else if i = 27 ∨ i = 28 then some (Reg.SEQ_STATUS n)
    else if i = 35 then some (Reg.FOLD_WEAR n)
    else if i = 36 then some (Reg.FOLD_STATUS n)
    else if i = 41 then some (Reg.CMD_STATUS n)
    else if i = 42 ∨ i = 45 then some (Reg.FAB_PORT_STATUS n)
    else if i = 46 ∨ i = 47 then some (Reg.PWR_RGN n.val)
    else none
  | none =>
    if src = 2 ∨ src = 3 then some Reg.TAITH_STATUS
    else if src = 4 ∨ src = 5 then some Reg.PWR_COOLANT
    else if 6 ≤ src ∧ src ≤ 11 then some Reg.PWR_STATUS
    else if src = 13 ∨ src = 14 ∨ src = 16 then some Reg.TAHR_STATUS
    else if src = 17 then some Reg.FLT_STATUS
    else if src = 18 then some Reg.FLT_RING_STAT
    else none

/-- Is the source's DETAIL built by what raises it (Table 17.5): a block cell or link, a semaphore, a circuit, a bad access? -/
def ownDetail (src : Nat) : Bool :=
  src == 0 || (decide (64 ≤ src) &&
    ((decide ((src - 64) % 60 < 27) && (src - 64) % 60 % 3 != 2) || (src - 64) % 60 == 29 || (src - 64) % 60 == 43))

/-- DETAIL of a report: what the raise brings, or else the source's status register. -/
def reportDetail (s : State) (src : Nat) (info : FaultInfo) : BitVec 128 :=
  match srcRgn src with
  | some n =>
    if isTileSrc ((src - 64) % 60) then BitVec.ofNat 128 (tileDetail s n ((src - 64) % 60) info.addr)
    else if info.detail ≠ 0 ∨ ownDetail src then info.detail
    else ((statusReg src).map s.reg).getD 0 |>.setWidth 128
  | none =>
    if info.detail ≠ 0 ∨ ownDetail src then info.detail else ((statusReg src).map s.reg).getD 0 |>.setWidth 128

def mkReport (src eff : Nat) (esc forced latched : Bool) (info : FaultInfo) (s : State) : Report :=
  let c := info.cmd.bind s.cmd
  { serial := BitVec.ofNat 32 (s.fld Reg.FLT_STATUS Reg.FLT_STATUS_NEXT_SERIAL), source := src, sev := s.sev src,
    eff := eff, escalated := esc, forced := forced, latched := latched, tick := s.now,
    region := (srcRgn src).map Fin.val,
    part := match (srcRgn src).bind s.partOf with
      | some p => some p.val
      | none => (c.bind Cmd.part).map Fin.val
    cmd := c.map fun c => (BitVec.ofNat 16 c.tag, BitVec.ofNat 16 c.client, c.session),
    count := s.since src + 1, lost := 0, addr := info.addr, detail := if latched then 0 else reportDetail s src info }

/-- Write the record, or keep it (R413, R414). Answers whether source 18 must be raised. -/
def recordReport (r : Report) (s : State) : State × Bool :=
  let hasKept := s.flt.kept.any fun x => x.source == r.source
  if ringRoom s ∧ ¬ hasKept then (ringWrite r false (setSince r.source 0 s), false)
  else
    let s0 := if ringEnabled s ∧ s.quarantined (ringRgn s) then
        s.setFld Reg.FLT_RING_CFG Reg.FLT_RING_CFG_ENABLE 0 else s
    let s1 := setSince r.source (if hasKept then r.count else 0) s0
    (keepReport r s1, s.flt.kept.isEmpty)

/-- A report to be taken: its source, the severity it is escalated to (none: the configured one), its marks, and the
status its source's own rule gives the command it names. -/
structure Due where
  src : Nat
  esc : Option Nat
  forced : Bool
  latched : Bool
  info : FaultInfo
  status : Nat
  deriving DecidableEq, Repr

/-- A report of a source that names nothing. -/
def Due.plain (src : Nat) : Due := ⟨src, none, false, false, ⟨none, 0, 0⟩, ST_INTERNAL⟩
/-- The report of a broken barrier: its status register. -/
def Due.barrier (s : State) (b : Nat) : Due :=
  ⟨1, none, false, false, ⟨none, 0, (s.reg (Reg.BAR_STATE b)).setWidth 128⟩, ST_INTERNAL⟩

/-- How many sources a report can raise in turn: 40, its barriers, and 18. -/
def reportFuel : Nat := 72

/-- Reports taken one after another, each with the sources it raises in turn (R400, R401, R405, R414). -/
def takeReports : Nat → List Due → State → State
  | 0, _, s => s
  | _, [], s => s
  | k + 1, d :: todo, s =>
    let src := d.src
    let eff := d.esc.getD (s.sev src)
    let r := mkReport src eff d.esc.isSome d.forced d.latched d.info s
    let s1 := s.setReg Reg.FLT_STATUS (Reg.FLT_STATUS_NEXT_SERIAL.put (s.reg Reg.FLT_STATUS) (r.serial.toNat + 1))
    let s2 := (s1.bump (Reg.FLT_SRC_STAT src) Reg.FLT_SRC_STAT_COUNT 1).setFld (Reg.FLT_SRC_STAT src)
      Reg.FLT_SRC_STAT_LAST_SERIAL r.serial.toNat
    let (s3, full) := if 1 ≤ eff then recordReport r s2 else (setSince src r.count s2, false)
    let s4 := if 1 ≤ eff ∧ s3.flag (Reg.FLT_SRC_SEV src) Reg.FLT_SRC_SEV_PIN then pulseErr s3 else s3
    let s5 := if 2 ≤ eff then
        irqFold (!d.latched) src (BitVec.ofNat 64 (r.serial.toNat + eff * 2 ^ 32)) (pendReport src eff d.esc.isSome d.info s4)
      else s4
    let s6 := if 3 ≤ eff ∧ 64 ≤ src then containRequest (poisonReport d.src d.forced d.info) d.info.cmd d.status s5 else s5
    let (s7, more) := match srcRgn src with
      | none => (s6, [])
      | some n =>
        if 4 ≤ eff then
          let was := s6.quarantined n
          let q := quarantine n s6
          let s' := (q.1.setFld (Reg.FLT_RGN_STATUS n) Reg.FLT_RGN_STATUS_CONTAINED 1).setFld
            (Reg.FLT_RGN_STATUS n) Reg.FLT_RGN_STATUS_CAUSE src
          (s', (if was then [] else [Due.plain (rgnSrc n 40)]) ++
            q.2.map (Due.barrier s'))
        else (s6, [])
    let s8 := if eff = 5 then chipFatal r (s.flag Reg.FLT_RING_PTR Reg.FLT_RING_PTR_PHASE) s7 else s7
    let more' := more ++ if full then [Due.plain 18] else []
    takeReports k (todo ++ more') (settleErr s8)

/-- Is the source's domain off, so that its capture latch holds the raise (R421)? -/
def srcOff (s : State) (src : Nat) : Bool :=
  match srcRgn src with
  | none => false
  | some n =>
    let i := (src - 64) % 60
    !s.domOn (rgnDom n) || (decide (i < 27) && !s.domOn (blkDom n (i / 3)))

/-- Hold a raise in the capture latch (R421). -/
def latchRaise (src : Nat) (info : FaultInfo) (s : State) : State :=
  let s1 := (s.bump (Reg.IRQ_SRC_CNT src) Reg.IRQ_SRC_CNT_COUNT 1).setFld (Reg.IRQ_SRC_CNT src)
    Reg.IRQ_SRC_CNT_LATCHED 1
  { s1 with flt := { s1.flt with latched := (s1.flt.latched.filter fun p => p.1 != src) ++ [(src, info)] } }

/-- Raise a fault source: reserved sources are never raised (R398); a chip-fatal report before stage 2 is a failed
start (R406, R377). `status` is the status that the source's own rule gives the command it names. -/
def raiseWith (status src : Nat) (forced : Bool) (info : FaultInfo) (s : State) : State :=
  if ¬ srcListed src then s
  else if srcOff s src then latchRaise src info s
  else
    let t := takeReports reportFuel [⟨src, none, forced, false, info, status⟩] s
    if t.fatal ∧ ¬ s.fatal ∧ s.chipStage < 2 then failedStart 0x07 t else t

def raise (src : Nat) (info : FaultInfo) (s : State) : State := raiseWith ST_INTERNAL src false info s

/-- A raise that names no command and no address. -/
def raisePlain (src : Nat) (s : State) : State := raise src ⟨none, 0, 0⟩ s

/-- A raise with a detail. -/
def raiseDetail (src : Nat) (cmd : Option Nat) (detail : Nat) (s : State) : State :=
  raise src ⟨cmd, 0, BitVec.ofNat 128 detail⟩ s

/-- The latched raise of a source becomes a report when its domain comes on (R421). -/
def releaseLatched (src : Nat) (s : State) : State :=
  match s.flt.latched.find? fun p => p.1 == src with
  | none => s
  | some p =>
    let s1 := { s with flt := { s.flt with latched := s.flt.latched.filter fun q => q.1 != src } }
    let s2 := s1.setFld (Reg.IRQ_SRC_CNT src) Reg.IRQ_SRC_CNT_LATCHED 0
    takeReports reportFuel [⟨src, none, false, true, p.2, ST_INTERNAL⟩] s2

/-- The report of a broken chip barrier (R153), whose status register is BAR_STATE. -/
def raiseBarrier (cmd : Option Nat) (b : Nat) (s : State) : State := raiseDetail 1 cmd (s.reg (Reg.BAR_STATE b)).toNat s

/-- A bad register access (R445, Table 17.5). -/
def badAccess (who : Nat) (write : Bool) (width addr : Nat) (s : State) : State :=
  raiseDetail 0 none (who + 64 * bit write + 128 * width.log2 + 2 ^ 64 * addr) s

end Sys2Proof.Machine
end

