-- ==== Sys2Proof/Machine/AccessCheck.lean ====
section
/-!
DEFINITION. Who may reach what (R445, R449 to R452, R370, R423, Tables 19.4 and 19.5): the check that every register
access passes before it has an effect.
-/

namespace Sys2Proof.Machine

/-- What the check answers: the access takes effect; it reads zero or is dropped without a report (a domain that is
off, a lock, the companion before stage 2); or it is a bad access (R445). -/
inductive Access where
  | ok | silent | bad
  deriving DecidableEq, Repr

/-- Processor number of a requester for the record: Table 17.7, 63 for Taith (Table 17.5). -/
def requesterNum : Requester → Nat
  | .companion => 63
  | .eland i => 32 + i.val
  | .tahr => 34
  | .host n => 2 * n.val
  | .service n => 2 * n.val + 1

/-- Debug scope bit `k` in force (Table 18.6). -/
def State.scope (s : State) (k : Nat) : Bool := (s.fld Reg.TAHR_STATUS Reg.TAHR_STATUS_SCOPE).testBit k

def State.minimal (s : State) : Bool := s.flag Reg.BOOT_STATUS Reg.BOOT_STATUS_MINIMAL

/-- The registers that R423 leaves to Tahr and the Eland cores. `v` is the value written. -/
def restricted (s : State) (a : Nat) (v : Word) : Bool :=
  (decide (0x20800 + 32 * 34 ≤ a) && decide (a < 0x20800 + 32 * 35)) ||
  a == Reg.FLT_SRC_SEV 13 || a == Reg.FLT_SRC_SEV 16 || a == Reg.IRQ_SRC_CFG 13 || a == Reg.IRQ_SRC_CFG 16 ||
  (decide (0x21000 ≤ a) && decide (a < 0x23800) &&
    (s.fld a Reg.IRQ_SRC_CFG_TARGET == 34 || Reg.IRQ_SRC_CFG_TARGET.get v == 34))

/-- Registers of a region block that the companion may write whole (R451). -/
def companionWrites (o : Nat) : Bool :=
  (decide (0x20000 ≤ o) && decide (o < 0x20068)) || o == 0x20100 || o == 0x110 || o == 0x120 || o == 0x30310 ||
  (decide (0x30020 ≤ o) && decide (o < 0x30040)) || o == 0x40010 || o == 0x50010 || o == 0x60018 || o == 0x70008 ||
  (decide (0x60100 ≤ o) && decide (o < 0x60110))

/-- Registers of a region block that hold a W1C field (R451). -/
def hasW1c (fs : List Fld) : Bool := fs.any fun f => f.acc == .w1c

/-- The check for the companion (Table 19.4, R370, R451). -/
def companionAccess (s : State) (write : Bool) (a : Nat) (v : Word) : Access :=
  let up := s.chipStage == 2
  if a < 0x10000 then (if write && a != Reg.FAB_CHIP_ID then .bad else .ok)
  else if a < 0x40000 then
    (if !up then .silent else if write && decide (0x20000 ≤ a) && restricted s a v then .bad else .ok)
  else if a < 0x50000 then (if up || s.minimal then .ok else .silent)
  else if a < 0x60000 then .ok
  else if a < 0x70000 then
    (if decide (0x60100 ≤ a) && decide (a < 0x60200) && !up && !s.minimal then .silent else .ok)
  else if a < 0x80000 then
    (if !up then .silent
     else if !write then .ok
     else if a % 16 = 8 ∧ Reg.BAR_STATE_FORCE_RELEASE.get v = 1 then (if s.scope 2 then .ok else .silent)
     else .bad)
  else match rgnOf a with
    | none => .bad
    | some n =>
      let o := a - rgnBase n
      if !up then .silent
      else if decide (0xB0000 ≤ o) then (if s.scope 1 then .ok else .silent)
      else if !write then .ok
      else if o = 0x90800 then (if s.scope 2 then .ok else .silent)
      else if decide (0x80000 ≤ o) && decide (o < 0x90000) then
        (if restricted s (unalias a) v then .bad else .ok)
      else if companionWrites o then .ok
      else match findReg a with
        | some (d, _) => if hasW1c d.fields then .ok else .bad
        | none => .bad

/-- May Tahr write it (Table 19.4, R423)? -/
def tahrWrites (s : State) (a : Nat) (v : Word) : Bool :=
  (decide (0x40000 ≤ a) && decide (a < 0x50000)) || restricted s a v

/-- The check for a Markhor core of region `n` (Table 19.4): `svc` for the service core. -/
def markhorAccess (s : State) (n : Rgn) (svc write : Bool) (a : Nat) (v : Word) : Access :=
  if a < 0x20000 then (if write then .bad else .ok)
  else if a < 0x50000 then .bad
  else if a < 0x70000 then (if write then .bad else .ok)
  else if a < 0x80000 then
    (if !write then .ok
     else
       let b := (a - 0x70000) / 16
       match s.partOf n with
       | some p => if s.fld (Reg.BAR_CFG b) Reg.BAR_CFG_PARTITION == p.val then .ok else .bad
       | none => .bad)
  else match rgnOf a with
    | none => .bad
    | some m =>
      let o := a - rgnBase m
      let mine := decide (m = n) || ((s.partOf n).isSome && s.partOf m == s.partOf n)
      if !mine then .bad
      else if decide (0x80000 ≤ o) && decide (o < 0x90000) then
        (if !write then .ok
         else if svc then (if decide (m = n) && !restricted s (unalias a) v then .ok else .bad)
         else if decide (m = n) && (o == 0x80108 || o == 0x80110) then .ok else .bad)
      else .ok

/-- Is the register's power domain off (R449, Tables 19.2 and 19.3)? -/
def domainOff (s : State) (a : Nat) : Bool :=
  if a < 0x40000 then false
  else if a < 0x50000 then !s.domOn (chipDom 1)
  else if a < 0x60000 then !s.domOn (chipDom 3)
  else if a < 0x70000 then false
  else if a < 0x80000 then !s.domOn (chipDom 4)
  else match rgnOf a with
    | none => false
    | some n =>
      if decide (0x80000 ≤ a - rgnBase n) && decide (a - rgnBase n < 0x90000) then false
      else !s.domOn (rgnDom n)

/-- A write with GO set through a region's FLT_ACK alias whose SOURCE is 60 or more (R454). -/
def badAlias (a : Nat) (v : Word) : Bool :=
  match rgnOf a with
  | none => false
  | some n => a - rgnBase n == 0x80008 && Reg.FLT_ACK_GO.get v == 1 && decide (60 ≤ Reg.FLT_ACK_SOURCE.get v)

/-- A ring register that reads zero and drops writes: the management rings' k = 1 (R444), and the command and
serving registers of a region that leads no partition (R278, 12_serving.md Registers). -/
def deadReg (s : State) (a : Nat) : Bool :=
  (decide (0x60120 ≤ a) && decide (a < 0x60140)) ||
  match rgnOf a with
  | none => false
  | some n =>
    let o := a - rgnBase n
    (decide (0x20000 ≤ o) && decide (o < 0x20068) || o == 0x20100 || o == 0x20110) &&
      !s.flag (Reg.CMD_STATUS n) Reg.CMD_STATUS_LEAD

/-- The whole check. `width` is in bytes; `v` is the value of a write. -/
def accessCheck (who : Requester) (write : Bool) (a width : Nat) (v : Word) (s : State) : Access :=
  if width ≠ 8 ∨ a % 8 ≠ 0 then .bad
  else match findReg (unalias a) with
    | none => .bad
    | some _ =>
      if write && badAlias a v then .bad
      else if domainOff s a then .silent
      else if deadReg s a then .silent
      else match who with
        | .companion => companionAccess s write a v
        | .eland _ => .ok
        | .tahr => if write && !tahrWrites s a v then .bad else .ok
        | .host n => markhorAccess s n false write a v
        | .service n => markhorAccess s n true write a v

/-- A register write under the check: bad accesses are dropped and reported (R445). -/
def guardWrite (who : Requester) (a width : Nat) (v : Word) (f : State → State) (s : State) : State :=
  match accessCheck who true a width v s with
  | .ok => f s
  | .silent => s
  | .bad => badAccess (requesterNum who) true width a s

/-- The fields of the register at an address. -/
def fieldsAt (a : Nat) : List Fld :=
  match findReg a with
  | some (d, _) => d.fields
  | none => []

/-- Every writable field of one write applied at once (R446): RW, W1S and W1C. -/
def plainWrite (a : Nat) (v : Word) (s : State) : State := s.setReg a (writeFields (fieldsAt a) (s.reg a) v)

end Sys2Proof.Machine
end

