-- ==== Sys2Proof/Machine/Link.lean ====
section
/-!
DEFINITION. The Taith link's sending side, the queue cache and reads of companion memory (R329 to R333): the operations
that every unit uses to reach the companion.
-/

namespace Sys2Proof.Machine

/-! ### Messages (Tables 13.2, 13.10, 13.11) -/

def tyRegRsp : BitVec 8 := 0x03
def tyWinRd : BitVec 8 := 0x04
def tyWinWr : BitVec 8 := 0x05
def tyMemRd : BitVec 8 := 0x06
def tyMemWr : BitVec 8 := 0x07
def tyData : BitVec 8 := 0x0B
def tyAck : BitVec 8 := 0x0C
def tyIntr : BitVec 8 := 0x0D
def tyKeepalive : BitVec 8 := 0x0E

/-- Ordering class of a message type (Table 13.2): 0 P, 1 R, 2 C, 3 none. -/
def msgClass (ty : BitVec 8) : Nat :=
  if ty = 0x02 ∨ ty = 0x05 ∨ ty = 0x07 ∨ ty = 0x09 ∨ ty = 0x0D then 0
  else if ty = 0x01 ∨ ty = 0x04 ∨ ty = 0x06 ∨ ty = 0x08 ∨ ty = 0x0A then 1
  else if ty = 0x03 ∨ ty = 0x0B ∨ ty = 0x0C ∨ ty = 0x0E then 2 else 3

def linkUp (s : State) : Bool := s.flag Reg.TAITH_STATUS Reg.TAITH_STATUS_LINK_UP
def linkLost (s : State) : Bool := s.taith.lossAt.isSome
def linkPresent (s : State) : Bool := linkUp s && s.domOn (chipDom 3)

def modTaith (f : Taith → Taith) (s : State) : State := { s with taith := f s.taith }

/-- The first class with credits to return (R331). -/
def owedClass (t : Taith) : Nat × Nat :=
  if 0 < t.owed[0] then (0, t.owed[0]) else if 0 < t.owed[1] then (1, t.owed[1])
  else if 0 < t.owed[2] then (2, t.owed[2]) else (3, 0)

/-- Put one message on the link, with the credits it returns. -/
def putMsg (m : TxMsg) (s : State) : State :=
  modTaith (fun t =>
    let o := owedClass t
    { t with sent := t.sent ++ [{ m with credCls := o.1, credCount := o.2 }], lastTx := s.now,
             credits := Vec.modify t.credits (msgClass m.type) (· - 1),
             owed := Vec.modify t.owed o.1 fun _ => 0 }) s

/-- Send waiting messages in order while a credit of the first one's class is held (R331). -/
def drainTx : List TxMsg → State → State
  | [], s => modTaith (fun t => { t with waiting := [] }) s
  | m :: ms, s =>
    if linkPresent s ∧ 0 < s.taith.credits.toList.getD (msgClass m.type) 1 then drainTx ms (putMsg m s)
    else modTaith (fun t => { t with waiting := m :: ms }) s

/-- Send a message, behind those that wait for a credit. -/
def sendMsg (ty : BitVec 8) (len : Nat) (tag : BitVec 16) (arg : Byte) (addr : Nat) (data : List Byte) (s : State) :
    State :=
  drainTx (s.taith.waiting ++ [⟨ty, len, tag, arg, BitVec.ofNat 64 addr, data, 3, 0⟩]) s

/-- A message of class `cls` has arrived with returned credits: the silence timer restarts (R334). -/
def received (cls : Nat) (cr : Credit) (s : State) : State :=
  let s1 := modTaith (fun t => { t with
    lastRx := s.now, owed := Vec.modify t.owed cls (· + 1),
    credits := Vec.modify t.credits cr.cls.val (· + cr.count.toNat) }) s
  drainTx s1.taith.waiting s1

/-- A fresh tag for a request of the device. -/
def newTag (s : State) : BitVec 16 × State :=
  (s.taith.nextTag, modTaith (fun t => { t with nextTag := t.nextTag + 1 }) s)

/-! ### The coherent window and the queue cache (R332) -/

def winBase (s : State) : Nat := s.fld Reg.TAITH_WIN_BASE Reg.TAITH_WIN_BASE_BASE * 2 ^ 32
def winSize : Nat := 2 ^ 32
def cacheLines : Nat := 32768

def cacheGet (t : Taith) (line : Nat) : Option (List Byte) := (t.cache.find? fun p => p.1 == line).map Prod.snd

/-- Make a line the most recently used one, evicting the least recently used above 32,768. -/
def cacheTouch (line : Nat) (b : List Byte) (t : Taith) : Taith :=
  let rest := t.cache.filter fun p => p.1 != line
  { t with cache := List.drop (rest.length + 1 - cacheLines) (rest ++ [(line, b)]) }

def cacheDrop (line : Nat) (t : Taith) : Taith := { t with cache := t.cache.filter fun p => p.1 != line }

/-- Ask for one line of companion memory, unless it is asked for already. -/
def askLine (window : Bool) (cmd : Option Nat) (line : Nat) (s : State) : State :=
  if s.taith.reads.any fun r => r.addr == line && (r.snoops.isEmpty || r.cmd == cmd) then s
  else
    let (tag, s1) := newTag s
    let s2 := modTaith (fun t => { t with reads := t.reads ++ [⟨tag, line, window, cmd, []⟩] }) s1
    sendMsg (if window then tyWinRd else tyMemRd) 0 tag 0 line [] s2

/-- A line as a command reads it: first the copy that a snoop left for it, then the queue cache. -/
def lineAt (window : Bool) (cmd : Option Nat) (t : Taith) (line : Nat) : Option (List Byte) :=
  if window then
    match t.held.find? fun h => h.1 == cmd && h.2.1 == line with
    | some h => some h.2.2
    | none => cacheGet t line
  else (t.membuf.find? fun p => p.1 == line).map Prod.snd

/-- Make a cached line the most recently used one. -/
def cacheUse (line : Nat) (t : Taith) : Taith :=
  match cacheGet t line with
  | some b => cacheTouch line b t
  | none => t

/-- The `k` lines from `line` on: their bytes, if the device holds all of them; those it lacks are asked for. -/
def gather (window : Bool) (cmd : Option Nat) : Nat → Nat → State → State × Option (List Byte)
  | _, 0, s => (s, some [])
  | line, k + 1, s =>
    match lineAt window cmd s.taith line with
    | some b =>
      let s1 := if window then modTaith (cacheUse line) s else s
      let r := gather window cmd (line + 64) k s1
      (r.1, r.2.map fun rest => b ++ rest)
    | none => ((gather window cmd (line + 64) k (askLine window cmd line s)).1, none)

/-- Read `64 k` bytes of companion memory at a 64-byte aligned address. -/
def readCompanion (window : Bool) (cmd : Option Nat) (a k : Nat) (s : State) : State × Option (List Byte) :=
  gather window cmd a k s

/-- Drop what a command has read: the copies kept for it in a range of the window. -/
def dropHeld (cmd : Option Nat) (a n : Nat) (s : State) : State :=
  modTaith (fun t => { t with
    held := t.held.filter fun h => h.1 != cmd || decide (h.2.1 < a) || decide (a + n ≤ h.2.1) }) s

/-- Drop the lines outside the window, and the copies kept for it, that a command has used. -/
def dropLines (cmd : Option Nat) (a n : Nat) (s : State) : State :=
  dropHeld cmd a n
    (modTaith (fun t => { t with membuf := t.membuf.filter fun p => decide (p.1 < a) || decide (a + n ≤ p.1) }) s)

/-- Write 32 or 64 bytes of a window line through to companion memory and into a cached copy (R332). -/
def writeWindow (a : Nat) (b : List Byte) (s : State) : BitVec 16 × State :=
  let (tag, s1) := newTag s
  let line := a / 64 * 64
  let s2 := match cacheGet s1.taith line with
    | some old => modTaith (fun t => { t with
        cache := t.cache.map fun p => if p.1 = line then (line, splice old (a - line) b) else p }) s1
    | none => s1
  (tag, sendMsg tyWinWr (if b.length = 32 then 2 else 3) tag 0 a b s2)

/-- Write a 64-byte aligned byte string to the window, line by line. -/
def writeWindowLines : Nat → Nat → List Byte → State → State
  | 0, _, _, s => s
  | k + 1, a, b, s =>
    let r := writeWindow a (Config.fit 64 b) s
    writeWindowLines k (a + 64) (b.drop 64) (modTaith (fun t => { t with writes := t.writes ++ [r.1] }) r.2)

end Sys2Proof.Machine
end

