-- ==== Sys2Proof/Machine/Tiles.lean ====
section
/-!
DEFINITION. Tiles under a partition's key (R181, R182), and the controllers' lines that are corrected, found uncorrectable or
poisoned (R178).
-/

namespace Sys2Proof.Machine

/-! ### Tiles -/

/-- Address of a tile of a region's near, herd or fold tier. Near tiles lie in the stand-in until migration, at the
same offset (R373, R375); the model keeps them in one place. -/
def tileAddr (n tier tile : Nat) : Nat := spaceAddr (tier - 1) n (4096 * tile)

def keyDefault (_ : Nat) : Nat := 0

/-- The key in force for a partition in a tier; the near tier is never encrypted (R181, R182). -/
def keyFor (s : State) (p : Option Part) (tier : Nat) : Nat :=
  match p with
  | none => 0
  | some q =>
    let x := s.part q
    if tier = 2 ∧ x.encHerd then x.keyHerd else if tier = 3 ∧ x.encFold then x.keyFold else 0

def freeTile (k : Nat) : List Byte := (List.range 4096).map (Config.freeByte k)

/-- The XTS tweak of a tile (R181): its number in the region's space in bits [35:0], the region in [39:36]. -/
def tweakOf (n tile : Nat) : Nat := tile % 2 ^ 36 + n % 16 * 2 ^ 36

/-- The key that a tile was last written under. -/
def keyOf (s : State) (n tier tile : Nat) : Nat := Assoc.get keyDefault s.keys (tileAddr n tier tile / 4096)

/-- The bytes that a controller gives for a tile written as `b` under key `was` and read under key `now`: encrypted with the one,
decrypted with the other; the same key gives them back (R181). -/
def recipher (was now tweak : Nat) (b : List Byte) : List Byte :=
  if was = now then b
  else leBytes 4096 (Config.recipher was now tweak (BitVec.ofNat 32768 (leNat b))).toNat

/-- The 4,096 bytes of a tile as a partition reads them. Memory holds what was written, and `keys` the key that encrypted it
(R181, R182; log entry 142). -/
def readTile (s : State) (p : Option Part) (n tier tile : Nat) : List Byte :=
  recipher (keyOf s n tier tile) (keyFor s p tier) (tweakOf n tile) (s.load (tileAddr n tier tile) 4096)

/-- Write a tile under the partition's key; a whole-tile write clears the poison of its lines (R178). -/
def writeTile (p : Option Part) (n tier tile : Nat) (b : List Byte) (s : State) : State :=
  let a := tileAddr n tier tile
  let s1 := s.store a (Config.fit 4096 b)
  { s1 with keys := Assoc.put keyDefault (a / 4096) (keyFor s p tier) s1.keys,
            poison := s1.poison.filter fun l => decide (l < a / 64) || decide (a / 64 + 64 ≤ l) }

/-- Bytes at an offset of a tile, as a partition reads them. -/
def readPart (s : State) (p : Option Part) (n tier off k : Nat) : List Byte :=
  if keyOf s n tier (off / 4096) = keyFor s p tier then s.load (spaceAddr (tier - 1) n off) k
  else slice (readTile s p n tier (off / 4096)) (off % 4096) k

/-- Write bytes within a tile under the partition's key: the controller encrypts whole tiles, so a tile under another key is
decrypted and encrypted anew. -/
def writePart (p : Option Part) (n tier off : Nat) (b : List Byte) (s : State) : State :=
  if keyOf s n tier (off / 4096) = keyFor s p tier then s.store (spaceAddr (tier - 1) n off) b
  else
    let a := tileAddr n tier (off / 4096)
    let s1 := s.store a (splice (readTile s p n tier (off / 4096)) (off % 4096) b)
    { s1 with keys := Assoc.put keyDefault (a / 4096) (keyFor s p tier) s1.keys }

/-! ### Errors that a controller finds (R178) -/

def eccReg (n : Rgn) (near : Bool) : Nat := if near then Reg.NEAR_ECC n else Reg.HERD_ECC n

/-- The controller's count and report of a line it has corrected, or cannot correct. -/
def lineCe (n : Rgn) (near : Bool) (off : Nat) (s : State) : State :=
  raise (rgnSrc n.val (if near then 31 else 33)) ⟨none, hereGta s n (if near then 1 else 2) off, 0⟩ (s.bump (eccReg n near) Reg.NEAR_ECC_CE 1)
def lineUe (n : Rgn) (near : Bool) (cmd : Option Nat) (off : Nat) (s : State) : State :=
  raiseWith ST_TIER_ERROR (rgnSrc n.val (if near then 32 else 34)) false
    ⟨cmd, hereGta s n (if near then 1 else 2) off, 0⟩ (s.bump (eccReg n near) Reg.NEAR_ECC_UE 1)

def poisonLine (l : Nat) (s : State) : State := if s.poison.contains l then s else { s with poison := s.poison ++ [l] }

/-- The fault source of an uncorrectable tile of a tier. -/
def ueSrc (tier : Nat) : Nat := if tier = 1 then 32 else if tier = 2 then 34 else 37

/-- A tile that cannot be corrected, found by a copy or a buffer read: counted and reported by its controller (R178). -/
def tierUe (cmd : Option Nat) (rgn tier tile : Nat) (s : State) : State :=
  let n : Rgn := Fin.ofNat 16 rgn
  raiseWith ST_TIER_ERROR (rgnSrc rgn (ueSrc tier)) false ⟨cmd, hereGta s n tier (4096 * tile), 0⟩
    (if tier = 1 then s.bump (Reg.NEAR_ECC n) Reg.NEAR_ECC_UE 1
     else if tier = 2 then s.bump (Reg.HERD_ECC n) Reg.HERD_ECC_UE 1 else s)

end Sys2Proof.Machine
end

