-- ==== Sys2Proof/Machine/Records.lean ====
section
/-!
DEFINITION. Rings and completion records (R278 to R285, R298, R335): where a ring's registers lie, room in a ring, the
record's bytes, writing it, and the completion interrupt.
-/

namespace Sys2Proof.Machine

/-- The registers of one ring. -/
structure RingRegs where
  cfg : Nat
  head : Nat
  tail : Nat
  stat : Nat
  deriving DecidableEq, Repr

/-- Registers of ring `k` of a ring owner (Tables 11.10 to 11.13). -/
def ringRegs : RingOwner → Nat → RingRegs
  | .rgn n, k => ⟨Reg.CMD_RING_CFG n k, Reg.CMD_RING_HEAD n k, Reg.CMD_RING_TAIL n k, Reg.CMD_RING_STAT n k⟩
  | .mgmt, k => ⟨Reg.MGT_RING_CFG k, Reg.MGT_RING_HEAD k, Reg.MGT_RING_TAIL k, Reg.MGT_RING_STAT k⟩

/-- Owner of a partition's rings: its lead region. -/
def ownerOf (s : State) (p : Part) : Option RingOwner := ((s.part p).lead).map RingOwner.rgn

/-- Owner and index of a submission ring. -/
def submission (s : State) : Ring → Option (RingOwner × Nat)
  | .part p k => (ownerOf s p).map fun o => (o, k.val)
  | .mgmt => some (.mgmt, 0)

/-- Owner of the completion ring that takes a ring's records. -/
def completion (s : State) : Ring → Option RingOwner
  | .part p _ => ownerOf s p
  | .mgmt => some .mgmt

def rEnabled (s : State) (r : RingRegs) : Bool := s.flag r.cfg Reg.CMD_RING_CFG_ENABLE
def rSize (s : State) (r : RingRegs) : Nat := 2 ^ s.fld r.cfg Reg.CMD_RING_CFG_SIZE
def rLoc (s : State) (r : RingRegs) : Nat := s.fld r.cfg Reg.CMD_RING_CFG_LOC
def rBase (s : State) (r : RingRegs) : Nat := 4096 * s.fld r.cfg Reg.CMD_RING_CFG_BASE
def rHead (s : State) (r : RingRegs) : Nat := s.fld r.head Reg.CMD_RING_HEAD_INDEX
def rTail (s : State) (r : RingRegs) : Nat := s.fld r.tail Reg.CMD_RING_TAIL_INDEX

/-- Entries between HEAD and TAIL, modulo the size (R280). -/
def rUsed (s : State) (r : RingRegs) : Nat := (rTail s r + rSize s r - rHead s r) % rSize s r

def showRing (r : RingRegs) (s : State) : State := s.setFld r.stat Reg.CMD_RING_STAT_PENDING (rUsed s r)

def ringOwnerOf : Ring → State → Option RingOwner
  | .part p _, s => ownerOf s p
  | .mgmt, _ => some .mgmt

/-- Entries fetched and not yet finished, over the rings of one completion ring. -/
def unfinished (s : State) (r : Ring) : Nat :=
  (s.cmds.filter fun c => match r, c.ring with
    | .mgmt, .mgmt => true
    | .part p _, .part q _ => decide (p = q)
    | _, _ => false).length

def modCq (o : Option Part) (f : CqState → CqState) (s : State) : State :=
  match o with
  | none => { s with mgmtCq := f s.mgmtCq }
  | some p => s.modPart p fun q => { q with cq := f q.cq }

def cqOf (o : Option Part) (s : State) : CqState :=
  match o with
  | none => s.mgmtCq
  | some p => (s.part p).cq

def ringPart : Ring → Option Part
  | .part p _ => some p
  | .mgmt => none

/-- Entries fetched whose records are not yet written, over the rings of one completion ring (R283, R285): a record in the shadow
ring is not written yet. -/
def outstanding (s : State) (r : Ring) : Nat := unfinished s r + (cqOf (ringPart r) s).shadow.length

def showOutstanding (r : Ring) (s : State) : State :=
  match r with
  | .mgmt => s
  | .part p _ => match (s.part p).lead with
    | none => s
    | some n => s.setFld (Reg.CMD_STATUS n) Reg.CMD_STATUS_OUTSTANDING (outstanding s r)

/-- Records in the shadow ring: a replayed record leaves it when it is acknowledged (R337). -/
def shadowed (q : CqState) : Nat := q.shadow.length + (q.unacked.filter fun u => u.2.2).length

def showShadow (p : Option Part) (s : State) : State :=
  match p with
  | none => s
  | some q => showOutstanding (.part q 0) (s.setFld (Reg.TAITH_SHADOW q.val) Reg.TAITH_SHADOW_RECORDS (shadowed (s.part q).cq))

/-! ### The record (Table 11.8) -/

def ringSource : Ring → Nat
  | .part _ k => k.val
  | .mgmt => 2

/-- The record's bytes with PHASE and REPLAYED clear. -/
def recBytes (c : Cmd) (ticks : Nat) : List Byte :=
  leBytes 1 c.opcode ++ leBytes 1 c.status ++ leBytes 2 c.tag ++ leBytes 2 c.client ++ leBytes 1 (ringSource c.ring) ++
  leBytes 1 (4 * min c.reruns 63) ++ leBytes 4 c.detail ++ leBytes 4 (min ticks 0xFFFFFFFF) ++ Config.fit 16 c.result

/-- Set the FLAGS byte's PHASE and REPLAYED. -/
def withPhase (b : List Byte) (phase replayed : Bool) : List Byte :=
  splice b 7 (leBytes 1 (leAt b 7 1 / 4 * 4 + bit phase + 2 * bit replayed))

/-! ### The completion interrupt (R284) -/

def cqIrqSrc : Option Part → Nat
  | none => evMgmt
  | some p => evCompletion p.val

def cqMod (o : RingOwner) : Nat := match o with | .rgn n => Reg.CMD_CQ_MOD n | .mgmt => Reg.MGT_CQ_MOD

/-- Records in the ring that are visible and unconsumed: the last ones written to the window may still await their ACK. -/
def unconsumed (s : State) (p : Option Part) (o : RingOwner) : Nat := rUsed s (ringRegs o 2) - (cqOf p s).unacked.length

/-- Do CMD_CQ_MOD.COUNT records stand unconsumed? A COUNT of 0 is treated as 1. -/
def cqFull (s : State) (p : Option Part) (o : RingOwner) : Bool :=
  decide (max 1 (s.fld (cqMod o) Reg.CMD_CQ_MOD_COUNT) ≤ unconsumed s p o)

/-- Raise the interrupt for a record that has just become visible, when COUNT or its IRQ flag calls for it; otherwise
the record waits for CMD_CQ_MOD.TICKS. -/
def cqVisible (p : Option Part) (o : RingOwner) (irq : Bool) (s : State) : State :=
  let r := ringRegs o 2
  if irq ∨ cqFull s p o then
    irqRaise (cqIrqSrc p) (s.reg r.tail) (modCq p (fun q => { q with waiting := [] }) s)
  else modCq p (fun q => { q with waiting := q.waiting ++ [s.now] }) s

/-! ### Writing a record (R282, R333, R335) -/

/-- Advance TAIL, inverting PHASE at the wrap. -/
def rAdvance (r : RingRegs) (s : State) : State :=
  let t := (rTail s r + 1) % rSize s r
  let s1 := s.setFld r.tail Reg.CMD_RING_TAIL_INDEX t
  showRing r (if t = 0 then s1.setFld r.tail Reg.CMD_RING_TAIL_PHASE (bit !(s.flag r.tail Reg.CMD_RING_TAIL_PHASE))
    else s1)

/-- Write one record at TAIL of a completion ring. -/
def putRecord (p : Option Part) (o : RingOwner) (rec : Rec) (replayed : Bool) (s : State) : State :=
  let r := ringRegs o 2
  let b := withPhase rec.bytes (s.flag r.tail Reg.CMD_RING_TAIL_PHASE) replayed
  let off := rBase s r + 32 * rTail s r
  if rLoc s r = 1 then
    match o with
    | .rgn n => cqVisible p o rec.irq (rAdvance r (writePart p n.val 2 off b s))
    | .mgmt => s
  else
    let w := writeWindow (winBase s + off) b s
    rAdvance r (modCq p (fun q => { q with unacked := q.unacked ++ [(w.1, rec, replayed)] }) w.2)

/-! ### Replay (R337) -/

/-- The lost link is resumed in every partition whose rings it stopped. -/
def settleLost (s : State) : State :=
  s.setFld Reg.TAITH_STATUS Reg.TAITH_STATUS_LOST (bit (linkLost s || s.parts.toList.any fun p => p.stopped))

def replaying (p : Option Part) (s : State) : Bool :=
  match p with
  | none => true
  | some q => (s.part q).replay

def setReplay (p : Part) (on : Bool) (s : State) : State :=
  let a := Reg.TAITH_RESUME
  let m := s.fld a Reg.TAITH_RESUME_REPLAYING
  let rest := m - 2 ^ p.val * bit (m.testBit p.val)
  (s.modPart p fun q => { q with replay := on }).setFld a Reg.TAITH_RESUME_REPLAYING (rest + 2 ^ p.val * bit on)

/-- Write shadow records with REPLAYED set, in order, as long as the ring has room (R283). -/
def replayLoop (p : Option Part) (o : RingOwner) : Nat → State → State
  | 0, s => s
  | k + 1, s =>
    let r := ringRegs o 2
    match (cqOf p s).shadow with
    | [] => s
    | rec :: rest =>
      if rUsed s r + unfinished s (match p with | none => .mgmt | some q => .part q 0) < rSize s r - 1 then
        replayLoop p o k (putRecord p o rec true (modCq p (fun q => { q with shadow := rest }) s))
      else s

/-- The replay is over once every record is acknowledged: fetching resumes. -/
def replayEnds (p : Option Part) (s : State) : State :=
  match p with
  | none => s
  | some q =>
    if (s.part q).replay ∧ shadowed (s.part q).cq = 0 then
      settleLost ((setReplay q false s).modPart q fun x => { x with stopped := false })
    else s

/-- Go on with a replay. -/
def pumpReplay (p : Option Part) (o : RingOwner) (s : State) : State :=
  if replaying p s ∧ linkPresent s ∧ ¬ linkLost s ∧ rEnabled s (ringRegs o 2) then
    replayEnds p (showShadow p (replayLoop p o (cqOf p s).shadow.length s))
  else s

/-- A partition's window rings are stopped since the link's last loss (R337). -/
def isStopped (p : Option Part) (s : State) : Bool :=
  match p with
  | none => false
  | some q => (s.part q).stopped

/-- Write the record of a command, or place it in the shadow ring while the link is lost or the partition's replay is
not over (R335, R337); a disabled ring takes none. -/
def emitRecord (ring : Ring) (rec : Rec) (s : State) : State :=
  let p := ringPart ring
  match completion s ring with
  | none => s
  | some o =>
    let r := ringRegs o 2
    if ¬ rEnabled s r then s
    else if rLoc s r = 0 ∧ (linkLost s ∨ isStopped p s ∨ ¬ (cqOf p s).shadow.isEmpty) then
      pumpReplay p o (showShadow p (modCq p (fun q => { q with shadow := q.shadow ++ [rec] }) s))
    else putRecord p o rec false s

/-! ### Client counters (R326, R327) -/

def Client.zero (c : BitVec 16) : Client := ⟨c, 0, 0, 0, 0⟩

/-- Count in the client's slot, giving it one on its first fetch; past 4,096 slots in the overflow bucket. -/
def countClient (p : Part) (client : BitVec 16) (f : Client → Client) (s : State) : State :=
  s.modPart p fun q =>
    if q.clients.any fun c => c.client == client then
      { q with clients := q.clients.map fun c => if c.client = client then f c else c }
    else if q.clients.length < 4096 then { q with clients := q.clients ++ [f (Client.zero client)] }
    else { q with overflow := some (f (q.overflow.getD (Client.zero 0))) }

/-- The counter a record adds to (Table 12.3). -/
def countRecord (c : Cmd) (rejected : Bool) (s : State) : State :=
  match c.ring with
  | .mgmt => s
  | .part p _ => countClient p (BitVec.ofNat 16 c.client) (fun k =>
      if rejected then { k with rejected := k.rejected + 1 }
      else if c.status = ST_OK ∨ c.status = ST_OK_EMPTY ∨ c.status = ST_ABORT_LATE then
        { k with completed := k.completed + 1 }
      else { k with aborted := k.aborted + 1 }) s

/-- Take a command out of the table and write its record. -/
def finish (c : Cmd) (rejected : Bool) (s : State) : State :=
  let ticks := if rejected then 0 else s.now - c.tick
  let s1 := { s with cmds := s.cmds.filter fun d => d.id != c.id, pwr := { s.pwr with lastActive := s.now } }
  let s2 := countRecord c rejected s1
  let s3 := emitRecord c.ring ⟨recBytes c ticks, c.flags.testBit 1⟩ s2
  showOutstanding c.ring s3

/-- Reject a fetched packet: its record is written at once (R292, R298). -/
def reject (id status detail : Nat) (s : State) : State :=
  match s.cmd id with
  | none => s
  | some c => finish { c with status := status, detail := detail, result := [] } true s

end Sys2Proof.Machine
end

