-- ==== Sys2Proof/Machine/Alloc.lean ====
section
/-!
DEFINITION. Space, quotas and tiles (R159 to R162, R181 to R189, R373, R374): what a partition holds in each tier, the
quota and free-space tests, copies of tiles, and buffers named by a command (R289).
-/

namespace Sys2Proof.Machine

/-! ### Capacity and reserved space, in tiles -/

def standinTiles (s : State) (n : Rgn) : Nat :=
  if s.flag (Reg.BOOT_RGN n) Reg.BOOT_RGN_STANDIN then (s.boot.standin.toList.getD n.val 0) * 2 ^ 18 else 0

/-- Lots a region has borrowed (R358). -/
def lotsOf (s : State) (n : Nat) : Nat := (s.borrows.filter fun b => b.rgn == n).length

def tierCap (s : State) (n : Rgn) (tier : Nat) : Nat :=
  if tier = 1 then (if 0 < standinTiles s n then standinTiles s n else 24 * 2 ^ 18)
  else if tier = 2 then s.fld (Reg.HERD_CFG n) Reg.HERD_CFG_SIZE_GIB * 2 ^ 18
  else if tier = 3 then s.fld (Reg.FOLD_CAP n) Reg.FOLD_CAP_UNITS * 4
  else if tier = 4 then lotsOf s n.val * 2 ^ 18 else 0

/-- Reserved tiles, at the low end of the tier (R160; log entry 17): near, the context store and 8 MiB; herd, the
fault ring, the shadow ring, 64 MiB, the fold mapping table (R199) and the stand-in. -/
def reservedTiles (s : State) (n : Rgn) (tier : Nat) : Nat :=
  if tier = 1 then 8192
  else if tier = 2 then
    1024 + 64 + 16384 + (s.fld (Reg.FOLD_CAP n) Reg.FOLD_CAP_UNITS * 4 + 4095) / 4096 + standinTiles s n
  else 0

/-! ### What is held -/

def overlap (e f : Extent) : Bool :=
  e.rgn == f.rgn && e.tier == f.tier && decide (e.first < f.first + f.tiles) && decide (f.first < e.first + e.tiles)

/-- Is `e` inside one extent of the list? -/
def covered (e : Extent) (l : List Extent) : Bool :=
  l.any fun f => e.rgn == f.rgn && e.tier == f.tier && decide (f.first ≤ e.first) &&
    decide (e.first + e.tiles ≤ f.first + f.tiles)

/-- Every allocated extent of every partition and every extent a live command has reserved. -/
def heldExtents (s : State) : List Extent :=
  (s.parts.toList.flatMap fun p => p.allocs.map Alloc.ext) ++ (s.cmds.flatMap fun c => if c.live then c.extents else [])

/-- Free physical space (R184, R324): inside the tier, outside the reserved space, held by nothing. The lent tier has none: every
lot is held by the LEND_BORROW that brought it. -/
def isFree (s : State) (e : Extent) : Bool :=
  match decide (e.rgn < 16) with
  | false => false
  | true =>
    let n : Rgn := Fin.ofNat 16 e.rgn
    decide (0 < e.tiles) && decide (e.tier < 4) && decide (reservedTiles s n e.tier ≤ e.first) && decide (e.first + e.tiles ≤ tierCap s n e.tier) &&
      !((heldExtents s).any (overlap e))

/-- The lowest free tile range of a region's tier, among the ends of what is held. -/
def lowestFree (s : State) (n tier k : Nat) : Option Nat :=
  let ends := reservedTiles s (Fin.ofNat 16 n) tier :: ((heldExtents s).filter fun e => e.rgn == n && e.tier == tier).map
    fun e => e.first + e.tiles
  (ends.filter fun t => isFree s ⟨n, tier, t, k⟩).foldl (fun a t => match a with
    | none => some t
    | some b => some (min b t)) none

/-- No two extents of a list overlap. -/
def disjoint : List Extent → Bool
  | [] => true
  | e :: l => !(l.any (overlap e)) && disjoint l

/-- Is there room for extents of these sizes, placed one after another at the lowest place free? -/
def roomFor : List Extent → State → Bool
  | [], _ => true
  | e :: l, s => match lowestFree s e.rgn e.tier e.tiles with
    | none => false
    | some t => roomFor l (s.modPart 0 fun q => { q with allocs := ⟨{ e with first := t }, .alloc⟩ :: q.allocs })

/-- A choice that names space in use: with no room the command is rejected (check 8 of R292), else no firmware makes it. -/
def notPlaced (id : Nat) (l : List Extent) (s : State) : State :=
  if roomFor l s then s else reject id ST_ADMIT_MEMORY 0 s

/-- Tiles a list of extents holds in a tier. -/
def tilesIn (tier : Nat) (l : List Extent) : Nat := (l.filter fun e => e.tier == tier).foldl (fun k e => k + e.tiles) 0

/-- Usage (R183): allocated tiles, deferred ones included (R239), and reserved ones (R185). -/
def usage (s : State) (p : Part) (tier : Nat) : Nat :=
  tilesIn tier ((s.part p).allocs.map Alloc.ext) +
  ((s.cmds.filter fun c => c.part == some p).flatMap Cmd.resv).foldl
    (fun k r => if r.2.1 = tier then k + r.2.2 else k) 0

def quotaOf (s : State) (p : Part) (tier : Nat) : Nat := (s.part p).quota.toList.getD (tier - 1) 0

/-- The quota test (R184). -/
def quotaOk (s : State) (p : Part) (tier n : Nat) : Bool := decide (usage s p tier + n ≤ quotaOf s p tier)

/-! ### The fold mapping (R198 to R201). A fold tile's content stands in memory at its logical place; a tile whose valid bit
is clear reads as zeros, and memory holds zeros there. -/

def modFold (n : Nat) (f : Fold → Fold) (s : State) : State := s.modRgn n fun r => { r with fold := f r.fold }

def foldPlanes (s : State) (n : Rgn) : Nat := if s.flag (Reg.FOLD_GEOM n) Reg.FOLD_GEOM_PLANES then 4 else 2
def foldPages (s : State) (n : Rgn) : Nat := s.fld (Reg.FOLD_GEOM n) Reg.FOLD_GEOM_PAGES + 1
def foldLunBlocks (s : State) (n : Rgn) : Nat := s.fld (Reg.FOLD_GEOM n) Reg.FOLD_GEOM_BLOCKS + 1
def foldLuns (s : State) (n : Rgn) : Nat := s.fld (Reg.FOLD_GEOM n) Reg.FOLD_GEOM_LUNS + 1
def foldTargets (s : State) (n : Rgn) : Nat := s.fld (Reg.FOLD_GEOM n) Reg.FOLD_GEOM_TARGETS
/-- Erase blocks of a channel. -/
def foldTotal (s : State) (n : Rgn) : Nat := foldTargets s n * foldLuns s n * foldLunBlocks s n

/-- The erase block of a physical unit index, which counts target, LUN, block, page, plane (R199). -/
def physBlock (s : State) (n : Rgn) (phys : Nat) : Nat :=
  let p := foldPlanes s n
  phys / (foldPages s n * p) * p + phys % p

/-- Units whose page lies in an erase block. -/
def unitsIn (s : State) (n : Rgn) (blk : Nat) : List FoldUnit := (s.rgn n).fold.units.filter fun u => physBlock s n u.phys == blk

def blockOf (s : State) (n : Rgn) (blk : Nat) : FoldBlock :=
  ((s.rgn n).fold.blocks.find? fun b => b.blk == blk).getD (FoldBlock.fresh blk)
def setBlock (n : Nat) (b : FoldBlock) (s : State) : State :=
  modFold n (fun f => { f with blocks := b :: f.blocks.filter fun x => x.blk != b.blk }) s

/-- Is a physical page freshly erased, in the channel, in a block that is free or open (R198)? -/
def pageEmpty (s : State) (n : Rgn) (phys : Nat) : Bool :=
  !(s.rgn n).fold.spent.contains phys && decide (physBlock s n phys < foldTotal s n) &&
  decide ((blockOf s n (physBlock s n phys)).st ≤ 1)

/-- Do two blocks lie in one plane group: the same plane of one LUN? DEDUCED: R203 does not define the word (log entry 144). -/
def samePlane (s : State) (n : Rgn) (a b : Nat) : Bool :=
  a / foldLunBlocks s n == b / foldLunBlocks s n && a % foldPlanes s n == b % foldPlanes s n

/-- Has a free block the lowest erase count of the free blocks in its plane group (R203)? A block not listed is free, with count 0. -/
def leastWorn (s : State) (n : Rgn) (blk : Nat) : Bool :=
  let group := (s.rgn n).fold.blocks.filter fun b => samePlane s n b.blk blk
  let pe := (blockOf s n blk).pe
  ((group.filter fun b => b.st == 0).all fun b => decide (pe ≤ b.pe)) &&
  (pe == 0 || decide (foldLunBlocks s n ≤ foldPlanes s n * group.length))

/-- May a physical page take a unit: a free page of an open block, or of the free block that dynamic wear levelling opens next? -/
def pageFree (s : State) (n : Rgn) (phys : Nat) : Bool :=
  pageEmpty s n phys && ((blockOf s n (physBlock s n phys)).st == 1 || leastWorn s n (physBlock s n phys))

/-- The lowest page that may take a unit. -/
def lowestPage (s : State) (n : Rgn) : Option Nat := (List.range (foldTotal s n * foldPages s n)).find? (pageFree s n)

def unitOf (f : Fold) (u : Nat) : Option FoldUnit := f.units.find? fun x => x.unit == u

/-- The mapping table in the region's herd space (R160, R199): its first tile, after the fault ring, the shadow ring and firmware's
64 MiB. -/
def tableTile : Nat := 1024 + 64 + 16384

/-- A unit's entry: the page's index and the valid mask. -/
def tableEntry (x : FoldUnit) : Nat := if x.mask = 0 then 0 else x.phys % 2 ^ 28 + 2 ^ 28 * x.mask.toNat

def storeEntry (n : Nat) (x : FoldUnit) (s : State) : State :=
  s.store (herdAddr n (4096 * tableTile + 4 * x.unit)) (leBytes 4 (tableEntry x))

/-- Give a unit its page and bits, in the translation layer and in its table; a unit with no valid tile is unmapped and releases
its page. -/
def putUnit (n : Nat) (x : FoldUnit) (s : State) : State :=
  modFold n (fun f => { f with
    units := (if x.mask = 0 then [] else [x]) ++ f.units.filter fun y => y.unit != x.unit, journal := f.journal + 16,
    spent := if f.spent.contains x.phys then f.spent else x.phys :: f.spent }) (storeEntry n x s)

/-- The write of one tile's mapping at a page (R198, R201): the next 32-bit sequence number, the tile valid and not poisoned. -/
def mapTile (n : Rgn) (tile phys : Nat) (s : State) : State :=
  let seq := (s.fld (Reg.FOLD_SEQ n) Reg.FOLD_SEQ_ACKED + 1) % 2 ^ 32
  let old := unitOf (s.rgn n).fold (tile / 4)
  let b : BitVec 4 := 1#4 <<< (tile % 4)
  let x : FoldUnit := match old with
    | some u => { u with phys := phys, mask := u.mask ||| b, poison := u.poison &&& ~~~ b, seq := seq }
    | none => ⟨tile / 4, phys, b, 0, seq⟩
  let s1 := (putUnit n x s).setFld (Reg.FOLD_SEQ n) Reg.FOLD_SEQ_ACKED seq
  modFold n (fun f => { f with clean := false }) s1

/-- One more page of a block is programmed; a block whose pages all are is full. -/
def programmed (n : Rgn) (blk : Nat) (s : State) : State :=
  let b := blockOf s n blk
  setBlock n { b with written := b.written + 1, st := if foldPages s n ≤ b.written + 1 ∧ b.st ≤ 1 then 2 else max 1 b.st } s

/-- A freed tile's valid bit is cleared, and it reads as zeros (R200). -/
def unmapTiles (n : Rgn) (tile : Nat) : Nat → State → State
  | 0, s => s
  | k + 1, s =>
    let s1 := s.store (foldAddr n (4096 * tile)) (List.replicate 4096 0)
    let s2 := match unitOf (s1.rgn n).fold (tile / 4) with
      | some u => putUnit n { u with mask := u.mask &&& ~~~ (1#4 <<< (tile % 4)), poison := u.poison &&& ~~~ (1#4 <<< (tile % 4)) } s1
      | none => s1
    unmapTiles n (tile + 1) k s2

def unmapExtents : List Extent → State → State
  | [], s => s
  | e :: es, s => unmapExtents es (if e.tier = 3 then unmapTiles (Fin.ofNat 16 e.rgn) e.first e.tiles s else s)

/-- A poisoned tile of the fold tier (R197). -/
def foldPoisoned (s : State) (n tile : Nat) : Bool :=
  match unitOf ((s.rgns.toList.getD n Region.reset).fold) (tile / 4) with
  | some u => u.poison.getLsbD (tile % 4)
  | none => false

/-! ### Allocations -/

def addAllocs (p : Part) (l : List Alloc) (s : State) : State := s.modPart p fun q => { q with allocs := q.allocs ++ l }

def dropAllocs (p : Part) (f : Alloc → Bool) (s : State) : State :=
  unmapExtents (((s.part p).allocs.filter f).map Alloc.ext)
    (s.modPart p fun q => { q with allocs := q.allocs.filter fun a => !f a })

/-- The extents a partition holds through TIER_ALLOC. -/
def ownExtents (s : State) (p : Part) : List Extent :=
  ((s.part p).allocs.filter fun a => a.owner == .alloc).map Alloc.ext

/-- Are these tiles wholly held through TIER_ALLOC? Each tile may lie in another allocation. -/
def heldByAlloc (s : State) (p : Part) (rgn tier first : Nat) : Nat → Bool
  | 0 => true
  | k + 1 => covered ⟨rgn, tier, first, 1⟩ (ownExtents s p) && heldByAlloc s p rgn tier (first + 1) k

/-- Take a range of tiles out of an allocation, leaving what lies before and after it. -/
def cutExtent (e : Extent) (a : Alloc) : List Alloc :=
  if overlap e a.ext then
    (if a.ext.first < e.first then [{ a with ext := { a.ext with tiles := e.first - a.ext.first } }] else []) ++
    (if e.first + e.tiles < a.ext.first + a.ext.tiles then
      [{ a with ext := { a.ext with first := e.first + e.tiles,
                                    tiles := a.ext.first + a.ext.tiles - (e.first + e.tiles) } }] else [])
  else [a]

def cutAllocs (p : Part) (e : Extent) (own : Owner → Bool) (s : State) : State :=
  unmapExtents [e] (s.modPart p fun q => { q with allocs := q.allocs.flatMap fun a => if own a.owner then cutExtent e a else [a] })

/-! ### Tiles -/

/-- Does a tile hold a poisoned line? -/
def tilePoisoned (s : State) (n tier tile : Nat) : Bool :=
  let a := tileAddr n tier tile
  if tier = 3 then foldPoisoned s n tile else s.poison.any fun l => decide (a / 64 ≤ l) && decide (l < a / 64 + 64)

def copyTiles (p : Option Part) (sn st sf dn dt df : Nat) : Nat → State → State
  | 0, s => s
  | k + 1, s => copyTiles p sn st (sf + 1) dn dt (df + 1) k (writeTile p dn dt df (readTile s p sn st sf) s)

def readTiles (s : State) (p : Option Part) (n tier first : Nat) : Nat → List Byte
  | 0 => []
  | k + 1 => readTile s p n tier first ++ readTiles s p n tier (first + 1) k

/-! ### Buffer addresses (R289) -/

def bufLoc (v : Nat) : Nat := v % 4
def bufOff (v : Nat) : Nat := v / 4096 * 4096

/-- The partition whose lead region's herd tier location 1 means: the ring's own, or the one a management command
names. -/
def bufPart (c : Cmd) (named : Option Part) : Option Part :=
  match c.ring with
  | .part p _ => some p
  | .mgmt => named

/-- Is the buffer address valid for `tiles` tiles (check 3 of R292)? -/
def bufOk (c : Cmd) (named : Option Part) (v tiles : Nat) (s : State) : Bool :=
  v / 4 % 1024 == 0 &&
  (if bufLoc v = 0 then decide (bufOff v + 4096 * tiles ≤ winSize)
   else if bufLoc v = 1 then
     match bufPart c named with
     | none => false
     | some p => match (s.part p).lead with
       | none => false
       | some n => heldByAlloc s p n.val 2 (bufOff v / 4096) tiles
   else false)

/-- Outcome of reading a buffer. -/
inductive BufRead where
  | waiting
  | failed (status : Nat)
  | bytes (b : List Byte)
  deriving DecidableEq, Repr

/-- The outcome `out` of reading herd tiles for a buffer (R290; log entry 150): a line found uncorrectable is
poisoned, and which one is open (log entry 52). -/
def readHerd (c : Cmd) (p : Part) (n : Rgn) (t tiles : Nat) (out : ReadOutcome) (s : State) : State × BufRead :=
  let l := Config.freeIndex s.free % (64 * max 1 tiles)
  let off := 4096 * t + 64 * l
  match (List.range tiles).find? fun k => tilePoisoned s n.val 2 (t + k) with
  | some k => (tierUe (some c.id) n.val 2 (t + k) s, .failed ST_TIER_ERROR)
  | none => match out with
    | .ok => (s, .bytes (readTiles s (some p) n.val 2 t tiles))
    | .corrected => (lineCe n false off { s with free := s.free + 1 }, .bytes (readTiles s (some p) n.val 2 t tiles))
    | .uncorrectable =>
      (lineUe n false (some c.id) off (poisonLine (herdAddr n off / 64) { s with free := s.free + 1 }), .failed ST_TIER_ERROR)
    | .timeout => (s, .failed ST_TIER_TIMEOUT)

/-- Read `tiles` tiles of a valid buffer: from the window through the queue cache, or from the lead region's herd, where the read
ends as `out` says. -/
def readBuf (out : ReadOutcome) (c : Cmd) (named : Option Part) (v tiles : Nat) (s : State) : State × BufRead :=
  match c.rdErr with
  | some st => (s, .failed st)
  | none =>
    if bufLoc v = 0 then
      if linkLost s then (s, .failed ST_TIER_ERROR)
      else
        let r := readCompanion true (some c.id) (winBase s + bufOff v) (64 * tiles) s
        match r.2 with
        | some b => (dropHeld (some c.id) (winBase s + bufOff v) (4096 * tiles) r.1, .bytes b)
        | none => (r.1, .waiting)
    else match bufPart c named with
      | none => (s, .failed ST_TIER_ERROR)
      | some p => match (s.part p).lead with
        | none => (s, .failed ST_TIER_ERROR)
        | some n => readHerd c p n (bufOff v / 4096) tiles out s

/-- Write bytes at an offset of a buffer, a multiple of 64. -/
def writeBuf (c : Cmd) (named : Option Part) (v off : Nat) (b : List Byte) (s : State) : State :=
  if bufLoc v = 0 then writeWindowLines ((b.length + 63) / 64) (winBase s + bufOff v + off) b s
  else match bufPart c named with
    | none => s
    | some p => match (s.part p).lead with
      | none => s
      | some n =>
        let t := (bufOff v + off) / 4096
        let old := readTile s (some p) n.val 2 t
        writeTile (some p) n.val 2 t (splice old (off % 4096) b) s

end Sys2Proof.Machine
end

