-- ==== Sys2Proof/Machine/Luns.lean ====
section
/-!
DEFINITION. The operations of a fold channel's LUNs (R202, R210, R215): which operation a LUN performs, and which it starts next.
-/

namespace Sys2Proof.Machine

/-- The LUN of an erase block, counted over the channel. -/
def lunOf (s : State) (n : Rgn) (blk : Nat) : Nat := blk / foldLunBlocks s n
def lunCount (s : State) (n : Rgn) : Nat := foldTargets s n * foldLuns s n

/-- Reads that wait for a LUN, and buffered writes whose page lies on it, in arrival order. -/
def lunReads (s : State) (n : Rgn) (l : Nat) : List Req :=
  (s.rgn n).reqs.filter fun q => q.tier == 3 && !q.write && q.remote.isNone && q.blk.any fun b => lunOf s n b == l
def lunWrites (s : State) (n : Rgn) (l : Nat) : List FoldWrite :=
  (s.rgn n).fold.wbuf.filter fun w => !w.prog && lunOf s n (physBlock s n w.phys) == l

/-- Blocks free and good, of all those of the channel. -/
def foldFree (s : State) (n : Rgn) : Nat := foldTotal s n - ((s.rgn n).fold.blocks.filter fun b => b.st != 0).length

/-- Program slots of a LUN since garbage collection had one. -/
def lunSlots (s : State) (n : Rgn) (l : Nat) : Nat := (((s.rgn n).fold.slots.find? fun x => x.1 == l).map Prod.snd).getD 0
def setSlots (n : Rgn) (l k : Nat) (s : State) : State :=
  modFold n (fun f => { f with slots := (if k = 0 then [] else [(l, k)]) ++ f.slots.filter fun x => x.1 != l }) s

/-- Below 3 % of free blocks every fourth program slot goes to garbage collection, where the LUN has a full block to collect. -/
def collectsNext (s : State) (n : Rgn) (l : Nat) : Bool :=
  decide (foldFree s n * 100 < 3 * foldTotal s n) && decide (3 ≤ lunSlots s n l) &&
  (s.rgn n).fold.blocks.any fun b => b.st == 2 && lunOf s n b.blk == l

/-- The operation that an idle LUN starts (Table 7.4): the programs of a power-fail flush, then reads, then writes. -/
def nextOp (s : State) (n : Rgn) (l : Nat) : Option LunOp :=
  let read := ((lunReads s n l).head?).map fun q => LunOp.read q.id
  let write := ((lunWrites s n l).head?).map fun w => LunOp.program w.seq
  if s.flag (Reg.FOLD_STATUS n) Reg.FOLD_STATUS_FLUSHING then write.orElse fun _ => read
  else read.orElse fun _ => if collectsNext s n l then none else write

/-- Is an operation still to be done? -/
def opStands (s : State) (n : Rgn) (l : Nat) : LunOp → Bool
  | .read id => (lunReads s n l).any fun q => q.id == id
  | .program seq => (lunWrites s n l).any fun w => w.seq == seq

/-- The operation that a LUN performs. -/
def lunOp (s : State) (n : Rgn) (l : Nat) : Option LunOp :=
  ((s.rgn n).fold.luns.find? fun x => x.1 == l && opStands s n l x.2).map Prod.snd

def setOp (n : Rgn) (l : Nat) (o : Option LunOp) (s : State) : State :=
  modFold n (fun f => { f with luns := (o.map fun x => (l, x)).toList ++ f.luns.filter fun x => x.1 != l }) s

/-- An idle LUN starts its next operation; one that performs an operation is not interrupted. -/
def settleLun (n : Rgn) (s : State) (l : Nat) : State :=
  match lunOp s n l with
  | some _ => s
  | none => setOp n l (nextOp s n l) s

def settleLuns (n : Rgn) (s : State) : State := (List.range (lunCount s n)).foldl (settleLun n) s

/-- May an operation of a lower class take place on the LUN of a block: no other is in progress there? -/
def lunIdle (s : State) (n : Rgn) (blk : Nat) : Bool := (lunOp s n (lunOf s n blk)).isNone

/-- Does a block of the same LUN wait for its refresh? -/
def refreshWaits (s : State) (n : Rgn) (blk : Nat) : Bool := (s.rgn n).fold.refresh.any fun b => lunOf s n b == lunOf s n blk

/-! ### Wordlines (R210) -/

/-- Bits per cell: pages that share a wordline. -/
def foldBits (s : State) (n : Rgn) : Nat := if s.flag (Reg.FOLD_GEOM n) Reg.FOLD_GEOM_BPC then 4 else 3

/-- The pages of a page's wordline. -/
def wordline (s : State) (n : Rgn) (phys : Nat) : List Nat :=
  let p := foldPlanes s n
  let pg := phys / p % foldPages s n
  let first := pg / foldBits s n * foldBits s n
  ((List.range (foldBits s n)).filter fun i => decide (first + i < foldPages s n)).map fun i => phys - p * pg + p * (first + i)

/-- Is a page programmed? -/
def pageDone (s : State) (n : Rgn) (phys : Nat) : Bool :=
  (s.rgn n).fold.spent.contains phys && !((s.rgn n).fold.wbuf.any fun w => w.phys == phys && !w.prog)

/-- Writes whose wordline is programmed to its last page count as programmed. -/
def dropDone (n : Rgn) (s : State) : State :=
  modFold n (fun f => { f with wbuf := f.wbuf.filter fun w => !(w.prog && (wordline s n w.phys).all (pageDone s n)) }) s

end Sys2Proof.Machine
end

