-- ==== Sys2Proof/Machine/Plan.lean ====
section
/-!
DEFINITION. The plan image and its entries (R125 to R137, Tables 5.1 to 5.7), and the count of the iterations a plan
visits (R322).
-/

namespace Sys2Proof.Machine

/-! ### The plan image (Table 5.1); `base` is its near-tier byte offset -/

def planNat (s : State) (n base off k : Nat) : Nat := leNat (s.load (nearAddr n (base + off)) k)

def planEntries (s : State) (n base : Nat) : Nat := planNat s n base 0x002 2
def planStarts (s : State) (n base : Nat) : Nat := planNat s n base 0x004 1
def planSemRows (s : State) (n base : Nat) : Nat := planNat s n base 0x006 2
/-- A field of start row `r` (Table 5.3). -/
def startNat (s : State) (n base r off k : Nat) : Nat := planNat s n base (0x040 + 64 * r + off) k
def startEntry (s : State) (n base r : Nat) : Nat := startNat s n base r 0x00 2
def startUsed (s : State) (n base r : Nat) : Nat := startNat s n base r 0x02 1
def startWaitLimit (s : State) (n base r : Nat) : Nat := startNat s n base r 0x04 4
def startMax (s : State) (n base r i : Nat) : Nat := startNat s n base r (0x08 + 4 * i) 4

/-- Schedule entry `i` as one number of 256 bits. -/
def planEntry (s : State) (n base i : Nat) : Nat := planNat s n base (0x001000 + 32 * i) 32
def planBranch (s : State) (n base i : Nat) : Nat := planNat s n base (0x081000 + 8 * i) 8
def planControl (s : State) (n base i : Nat) : Nat := planNat s n base (0x0A1000 + 4 * i) 4
def planDesc (s : State) (n base i : Nat) : List Byte := s.load (nearAddr n (base + 0x0B1000 + 32 * i)) 32

/-- Bits [lo + w - 1 : lo] of an entry. -/
def ebits (e lo w : Nat) : Nat := e / 2 ^ lo % 2 ^ w

/-! ### Fields of a RUN entry (Table 5.4) -/

def eType (e : Nat) : Nat := ebits e 0 4
def eSlot (e : Nat) : Nat := ebits e 4 2
def eChipSw (e : Nat) : Bool := ebits e 6 1 == 1
def eRed (e : Nat) : Bool := ebits e 7 1 == 1
def eNdim (e : Nat) : Nat := ebits e 8 2
def eExt (e : Nat) : Bool := ebits e 10 1 == 1
def eBrEn (e : Nat) : Bool := ebits e 11 1 == 1
def eBrMode (e : Nat) : Nat := ebits e 12 2
def eBrN (e : Nat) : Nat := ebits e 14 4
def eBrPtr (e : Nat) : Nat := ebits e 18 14
def eDBase (e : Nat) : Nat := ebits e 32 16
def eDPre (e : Nat) : Nat := ebits e 48 4
def eDIter (e : Nat) : Nat := ebits e 52 4
def eDPost (e : Nat) : Nat := ebits e 56 4
def eDim (e k : Nat) : Nat := ebits e (64 + 32 * k) 32
def eSumSem (e : Nat) : Nat := ebits e 224 8
def eSumEn (e : Nat) : Bool := ebits e 232 1 == 1
def eCtlPtr (e : Nat) : Nat := ebits e 233 14
def eCtlN (e : Nat) : Nat := ebits e 247 4
def eCtlAt (e : Nat) : Nat := ebits e 251 2

/-- A wait: semaphore or barrier, amount, level, barrier. -/
structure Wait where
  sem : Nat
  n : Nat
  level : Nat
  bar : Bool
  deriving DecidableEq, Repr

def eW0 (e : Nat) : Wait := ⟨ebits e 160 8, ebits e 168 4, ebits e 172 2, ebits e 174 1 == 1⟩
def eW1 (e : Nat) : Wait := ⟨ebits e 176 8, ebits e 184 4, ebits e 188 2, false⟩
def eS0 (e : Nat) : Wait := ⟨ebits e 192 8, ebits e 200 4, ebits e 204 2, false⟩
def eS1 (e : Nat) : Wait := ⟨ebits e 208 8, ebits e 216 4, ebits e 220 2, false⟩

/-! ### Fields of LOAD and JUMP (Table 5.6) -/

def lSlot (e : Nat) : Nat := ebits e 4 2
def lEntry (e : Nat) : Nat := ebits e 6 6
def lSync (e : Nat) : Bool := ebits e 12 1 == 1
def lBound (e : Nat) : Nat := ebits e 32 32
def jCtr (e : Nat) : Nat := ebits e 4 2
def jAlways (e : Nat) : Bool := ebits e 6 1 == 1
def jTarget (e : Nat) : Nat := ebits e 18 14
def jCount (e : Nat) : Nat := ebits e 32 16

/-! ### Control tokens (Table 4.4) -/

def ctlOp (t : Nat) : Nat := t / 4 % 16
def ctlArg (t : Nat) : Nat := t / 64 % 1024
def ctlUnit (t : Nat) : Bool := t.testBit 15

/-- Reserved OP or ARG. -/
def ctlReserved (t : Nat) : Bool :=
  let op := ctlOp t
  let a := ctlArg t
  if op = 1 then decide (a / 8 % 64 ≠ 0) else if op ≤ 4 then decide (a % 512 ≠ 0)
  else if op = 5 then decide (4 ≤ a) else if op = 6 then decide (256 ≤ a) else true

/-! ### Reserved values (R127, R128, R133) -/

def runReserved (e : Nat) : Bool :=
  ebits e 60 4 != 0 || ebits e 175 1 != 0 || ebits e 190 2 != 0 || ebits e 206 2 != 0 || ebits e 222 2 != 0 ||
  ebits e 253 3 != 0 || (eBrEn e && eBrMode e == 3) || (eRed e && eNdim e == 0) ||
  ((eW0 e).bar && (eW0 e).n != 1) || (eW0 e).level == 3 || (eW1 e).level == 3 || (eS0 e).level == 3 ||
  (eS1 e).level == 3 || eCtlAt e == 3 ||
  (List.range 3).any (fun k => if k + eNdim e < 3 then eDim e k != 0
    else decide (8 ≤ eDim e k % 16) && eDim e k % 16 != 15)

/-- A reserved TYPE or a non-zero reserved field (R127). -/
def entryReserved (e : Nat) : Bool :=
  let t := eType e
  if t = 1 then runReserved e
  else if t = 2 then ebits e 13 19 != 0 || ebits e 64 192 != 0 || lBound e == 0
  else if t = 3 then ebits e 7 11 != 0 || ebits e 48 208 != 0 || (!jAlways e && jCount e == 0)
  else if t = 4 then ebits e 4 252 != 0
  else true

/-! ### Loop dimensions (R128, R137) -/

def dimUsed (e k : Nat) : Bool := decide (3 ≤ k + eNdim e)
def dimShp (e k : Nat) : Nat := eDim e k % 16
def dimTile (e k : Nat) : Nat := ebits (eDim e k) 4 12 + 1
def dimMax (e k : Nat) : Nat := ebits (eDim e k) 16 16 + 1

def shapeAt (shapes : List (BitVec 32)) (i : Nat) : Nat := (shapes.getD i 0).toNat

/-- Tiles of dimension `k` that are visited: all of a fixed one, ceil(S / T) of a governed one, at most MAXT + 1. -/
def dimTiles (e : Nat) (shapes : List (BitVec 32)) (k : Nat) : Nat :=
  if !dimUsed e k then 1
  else if dimShp e k = 15 then dimMax e k
  else min (dimMax e k) ((shapeAt shapes (dimShp e k) + dimTile e k - 1) / dimTile e k)

/-- In-range extent of tile `i` of dimension `k` (R138). -/
def dimExtent (e : Nat) (shapes : List (BitVec 32)) (k i : Nat) : Nat :=
  if !dimUsed e k then 0
  else if dimShp e k = 15 then dimTile e k
  else min (dimTile e k) (shapeAt shapes (dimShp e k) - i * dimTile e k)

/-- Iterations a RUN entry visits. -/
def entryIters (e : Nat) (shapes : List (BitVec 32)) : Nat :=
  dimTiles e shapes 0 * dimTiles e shapes 1 * dimTiles e shapes 2

/-! ### The count N of visited iterations (R322) -/

/-- Follow a plan from an entry: JUMP counts as they run (a counted pass starts a new path), every branch as the row that visits the most iterations;
a branch row that leads back to an entry already on the path gives no count. -/
def countIters (s : State) (n base : Nat) (shapes : List (BitVec 32)) :
    Nat → Nat → List Nat → List Nat → Option Nat
  | 0, _, _, _ => none
  | fuel + 1, pc, ctr, path =>
    let e := planEntry s n base pc
    let t := eType e
    if t = 4 then some 0
    else if t = 2 then countIters s n base shapes fuel (pc + 1) ctr (pc :: path)
    else if t = 3 then
      if jAlways e then
        (if path.contains (jTarget e) then none
         else countIters s n base shapes fuel (jTarget e) ctr (pc :: path))
      else
        let c := ctr.getD (jCtr e) 0
        let c' := (if c = 0 then jCount e else c) - 1
        let ctr' := ctr.set (jCtr e) c'
        (if c' = 0 then countIters s n base shapes fuel (pc + 1) ctr' (pc :: path)
         else countIters s n base shapes fuel (jTarget e) ctr' [])
    else if t = 1 then
      let k := entryIters e shapes
      if eBrEn e then
        let rows := (List.range (eBrN e + 1)).map fun i => ebits (planBranch s n base (eBrPtr e + i)) 32 14
        if rows.any fun r => r == pc || path.contains r then none
        else
          (rows.map fun r => countIters s n base shapes fuel r ctr (pc :: path)).foldl
            (fun a b => match a, b with
              | some x, some y => some (max x y)
              | _, _ => none) (some 0) |>.map (· + k)
      else (countIters s n base shapes fuel (pc + 1) ctr (pc :: path)).map (· + k)
    else none

/-- More entries than a path can visit before an entry meets the same four counters again: a path as long has no end. -/
def countFuel : Nat := 2 ^ 80

end Sys2Proof.Machine
end

