-- ==== Sys2Proof/Machine/RingCmds.lean ====
section
/-!
DEFINITION. The commands of the rings (R278 to R286, R298, R305, R307): doorbell, fetch, held entries, ring
configuration, retirement and the completion interrupt's timer.
-/

namespace Sys2Proof.Machine

/-! ### Deep idle ends (R385) -/

def modPwr (f : Power → Power) (s : State) : State := { s with pwr := f s.pwr }

/-- A submission TAIL, a management command or a lot request ends deep idle; the links leave their low-power states. -/
def endDeepIdle (s : State) : State :=
  let s1 := modPwr (fun p => { p with lastActive := s.now }) s
  if s1.flag Reg.PWR_STATUS Reg.PWR_STATUS_DEEP_IDLE then
    let s2 := s1.setFld Reg.PWR_STATUS Reg.PWR_STATUS_DEEP_IDLE 0
    if s2.fld Reg.TAITH_STATUS Reg.TAITH_STATUS_WIDTH = 1 then s2.setFld Reg.TAITH_STATUS Reg.TAITH_STATUS_WIDTH s2.taith.trained
    else s2
  else s1

/-! ### DOORBELL (R280) -/

def clearFetchStop (r : Ring) (s : State) : State :=
  match r with
  | .mgmt => { s with mgmtStop := false }
  | .part p k => s.modPart p fun q => { q with fetchStop := q.fetchStop &&& ~~~ (1#2 <<< k.val) }

/-- A write of a submission ring's TAIL. -/
def doTail (r : Ring) (o : RingOwner) (k : Nat) (v : Word) (s : State) : State :=
  let g := ringRegs o k
  let i := Reg.CMD_RING_TAIL_INDEX.get v
  if i < rSize s g then
    let s1 := showRing g (s.setFld g.tail Reg.CMD_RING_TAIL_INDEX i)
    let s2 := endDeepIdle (clearFetchStop r s1)
    match o with
    | .rgn n => irqRaise (evRgn n.val 2) (s2.reg g.tail) s2
    | .mgmt => s2
  else s.setFld g.stat Reg.CMD_RING_STAT_DB_ERR 1

def execDoorbell (who : Requester) (r : Ring) (v : Word) (s : State) : Host.Outcome State Fault Refusal :=
  live s fun s =>
    match submission s r with
    | none => s
    | some (o, k) => guardWrite who (ringRegs o k).tail 8 v (doTail r o k v) s

/-! ### Held entries (R286, R307) -/

/-- Byte, half-word, word and double-word parameters of a packet. -/
def Cmd.p1 (c : Cmd) (off : Nat) : Nat := leAt c.pkt off 1
def Cmd.p2 (c : Cmd) (off : Nat) : Nat := leAt c.pkt off 2
def Cmd.p4 (c : Cmd) (off : Nat) : Nat := leAt c.pkt off 4
def Cmd.p8 (c : Cmd) (off : Nat) : Nat := leAt c.pkt off 8

def sessionOf (s : State) (p : Part) (h : Nat) : Option Session :=
  (s.part p).sessions.find? fun x => x.handle.toNat == h

/-- Regions of a version's targets. -/
def versionOf (s : State) (p : Part) (id ver : Nat) : Option Version :=
  (s.part p).versions.find? fun v => v.pkg.toNat == id && v.ver.toNat == ver

def activeVer (s : State) (p : Part) (id : Nat) : Option Version :=
  match (s.part p).active.find? fun a => a.1.toNat == id with
  | none => none
  | some a => versionOf s p id a.2.toNat

/-- Target regions of PKG_STAGE, position by position. -/
def targetsOf (c : Cmd) : List Nat := (List.range (c.p1 0x30)).map fun p => c.p8 0x28 / 16 ^ p % 16

/-- The position of region `n` in a version. -/
def posOf (v : Version) (n : Nat) : Nat := (v.targets.findIdx? (· == n)).getD v.targets.length

def variantAt (v : Version) (pos : Nat) : Nat := v.variants.getD pos 0
def placedAt (v : Version) (pos : Nat) : List Placed := v.placed.getD pos []

/-- The near tile of the selected variant's section of a type in region `n`. -/
def sectionIn (v : Version) (type n : Nat) : Option Placed :=
  let pos := posOf v n
  (placedAt v pos).find? fun x => x.type == type && (x.var == 0xFF || x.var == variantAt v pos)

/-- Byte offset of the plan image of a version in region `n`. -/
def planBase (v : Version) (n : Nat) : Nat := ((sectionIn v 2 n).map fun x => 4096 * x.first).getD 0

/-- A command that runs a plan. -/
def isRunOp (op : Nat) : Bool := op == 0x21 || op == 0x22 || op == 0x30

/-- The version that a run command is to be bound to: its own package's active one, or its first session's. -/
def plannedVersion (s : State) (p : Part) (c : Cmd) : Option Version :=
  if c.opcode = 0x30 then activeVer s p (c.p8 0x20)
  else (sessionOf s p (leAt c.work 0x80 4)).bind fun x => activeVer s p x.pkg.toNat

/-- The fold channels that a run command's plans use, known once its argument block has been read (R216). -/
def planFolds (s : State) (p : Part) (c : Cmd) : List (Nat × Nat) :=
  if c.work.isEmpty then []
  else match plannedVersion s p c with
    | none => []
    | some v => (v.folds.filter fun x => x.2 == 0xFF || x.2 == variantAt v (posOf v x.1)).map fun x => (x.1, 3)

/-- The region tiers an entry needs (R286): region and tier. -/
def needs (s : State) (p : Part) (c : Cmd) : List (Nat × Nat) :=
  let op := c.opcode
  let rest := fun src set => if src < 2 then
      (maskRgns (BitVec.ofNat 16 set)).map fun n => (n.val, src + 2) else []
  let buf := fun v => if v % 4 = 1 then ((s.part p).lead.map fun (n : Rgn) => (n.val, 2)).toList else []
  let sess := fun h => match sessionOf s p h with
    | some x => x.tables.map PageTable.rgn
    | none => []
  if op = 0x10 then (targetsOf c).map (·, 1) ++ rest (c.p1 0x1C) (c.p2 0x1E)
  else if op = 0x13 then rest (c.p1 0x24) (c.p2 0x26)
  else if op = 0x24 then (sess (c.p4 0x10)).map (·, c.p1 0x14)
  else if op = 0x25 then
    match sessionOf s p (c.p4 0x10) with
    | some x => x.parkTiles.map fun e => (e.rgn, e.tier)
    | none => []
  else if op = 0x40 ∨ op = 0x41 then [(c.p1 0x11, c.p1 0x10)]
  else if op = 0x42 then
    (if c.p1 0x13 / 2 % 2 = 1 then [(c.p1 0x11, c.p1 0x12)] else [(c.p1 0x11, c.p1 0x10), (c.p1 0x11, c.p1 0x12)])
  else if op = 0x62 then [(c.p1 0x10, 2)]
  else if op = 0x01 then buf (c.p8 0x18)
  else if op = 0x90 then buf (c.p8 0x30)
  else if isRunOp op then buf (c.p8 0x10) ++ planFolds s p c
  else []

/-- HOLD_REASON (Table 11.13): 0 none, 1 stage 2, 2 herd not trained, 3 fold not ready, 4 FENCE. -/
def holdReason (s : State) (c : Cmd) : Nat :=
  match c.ring with
  | .mgmt => 0
  | .part p _ =>
    match (s.part p).lead with
    | none => 0
    | some n =>
      if s.stage n < 3 ∧ c.opcode ≠ 0x00 ∧ c.opcode ≠ 0x01 then 1
      else if (needs s p c).any fun x => (x.2 == 1 || x.2 == 2) && decide (x.1 < 16) &&
          decide (s.stage (Fin.ofNat 16 x.1) < 3) then 2
      else if (needs s p c).any fun x => x.2 == 3 && decide (x.1 < 16) &&
          !s.flag (Reg.FOLD_STATUS (Fin.ofNat 16 x.1)) Reg.FOLD_STATUS_READY then 3
      else if c.flags.testBit 0 ∧ s.cmds.any fun d => d.ring == c.ring && d.unretired then 4
      else 0

/-- The oldest entry of a ring fetched and not yet accepted. -/
def headEntry (s : State) (r : Ring) : Option Cmd := s.cmds.find? fun c => c.ring == r && c.phase == .fetched

/-- Show HELD and its reason for the head entry of a ring. -/
def showHold (r : Ring) (s : State) : State :=
  match submission s r, headEntry s r with
  | some (o, k), some c =>
    let g := ringRegs o k
    let w := holdReason s c
    (s.setFld g.stat Reg.CMD_RING_STAT_HELD (bit (w != 0))).setFld g.stat Reg.CMD_RING_STAT_HOLD_REASON w
  | _, _ => s

def isHeld (s : State) (r : Ring) : Bool :=
  match submission s r with
  | none => false
  | some (o, k) => s.flag (ringRegs o k).stat Reg.CMD_RING_STAT_HELD

/-- HELD_ENTRY_RELEASE (R286, R307): the hold's reason has gone. -/
def releaseHeld (r : Ring) (s : State) : State := if isHeld s r then showHold r s else s

def execHeldEntryRelease (r : Ring) (s : State) : Host.Outcome State Fault Refusal := live s (releaseHeld r)

/-! ### ENTRY_FETCH (R280 to R283, R335) -/

def noChoice : Choice := ⟨0, 0, 0, [], [], .ok⟩

def newCmd (id : Nat) (r : Ring) (pkt : List Byte) (now : Nat) : Cmd :=
  { id := id, ring := r, part := ringPart r, pkt := pkt, phase := .fetched, status := 0, detail := 0, result := [],
    seq := 0, tick := now, span := [], done := [], ends := [], iters := [], pkg := none, adapter := none, slot := 0, startRow := 0, rows := [],
    shapes := [], windows := [], argBlock := [], resv := [], extents := [], reruns := 0, kills := 0,
    poisonRerun := false, poisoned := false, remote := false, missed := false, planStart := 0, ch := noChoice,
    rdErr := none, holds := [], waits := [], work := [], stepNo := 0 }

def fetchStopped (s : State) (r : Ring) : Bool :=
  match r with
  | .mgmt => s.mgmtStop
  | .part p k => (s.part p).fetchStop.getLsbD k.val

/-- A failed fetch (R281). -/
def fetchError (r : Ring) (o : RingOwner) (k : Nat) (s : State) : State :=
  let s1 := s.setFld (ringRegs o k).stat Reg.CMD_RING_STAT_FETCH_ERR 1
  let s2 := match r with
    | .mgmt => { s1 with mgmtStop := true }
    | .part p k => s1.modPart p fun q => { q with fetchStop := q.fetchStop ||| (1#2 <<< k.val) }
  match o with
  | .rgn n => raiseDetail (rgnSrc n.val 41) none (s2.reg (ringRegs o k).stat).toNat s2
  | .mgmt => s2

/-- A PARTITION_SET is resetting the ring's partition (Table 11.9). -/
def beingReset (s : State) : Ring → Bool
  | .mgmt => false
  | .part p _ => s.cmds.any fun c => c.ring == .mgmt && c.opcode == 0x02 && c.phase == .running && leAt c.pkt 0x10 1 == p.val

/-- May the ring owner fetch: the ring is enabled and pending, nothing is held, the completion ring has room (R283),
and for a window ring the link is up and the partition resumed (R335, R337)? -/
def mayFetch (s : State) (r : Ring) (o : RingOwner) (k : Nat) : Bool :=
  let g := ringRegs o k
  let q := ringRegs o 2
  rEnabled s g && decide (0 < rUsed s g) && (headEntry s r).isNone && rEnabled s q &&
  decide (rUsed s q + outstanding s r < rSize s q - 1) && !fetchStopped s r && !s.fatal && !beingReset s r &&
  (rLoc s g == 1 || (linkPresent s && !linkLost s &&
    match r with | .part p _ => !(s.part p).stopped | .mgmt => true))

/-- An entry has been read: HEAD passes it, it is counted, and it waits for its checks. -/
def takeEntry (r : Ring) (o : RingOwner) (k : Nat) (pkt : List Byte) (s : State) : State :=
  let g := ringRegs o k
  let c := newCmd s.nextId r pkt s.now
  let s1 := { s with cmds := s.cmds ++ [c], nextId := s.nextId + 1 }
  let s2 := showRing g (s1.setFld g.head Reg.CMD_RING_HEAD_INDEX ((rHead s g + 1) % rSize s g))
  let s3 := match r with
    | .mgmt => s2
    | .part p _ => countClient p (BitVec.ofNat 16 c.client) (fun q => { q with submitted := q.submitted + 1 }) s2
  showHold r (showOutstanding r (endDeepIdle s3))

/-- The outcome of reading an entry of a herd ring (R281): a corrected line is counted and reported, one that is poisoned or
found uncorrectable and a timeout fail the fetch. -/
def fetchHerd (r : Ring) (o : RingOwner) (k : Nat) (n : Rgn) (off : Nat) (out : ReadOutcome) (s : State) : State :=
  let l := herdAddr n off / 64
  let fine := takeEntry r o k (readPart s (ringPart r) n.val 2 off 64)
  if s.poison.contains l then fetchError r o k (lineUe n false none off s)
  else match out with
    | .ok => fine s
    | .corrected => fine (lineCe n false off s)
    | .uncorrectable => fetchError r o k (lineUe n false none off (poisonLine l s))
    | .timeout => fetchError r o k s

def fetchEntry (r : Ring) (out : ReadOutcome) (s : State) : State :=
  match submission s r with
  | none => s
  | some (o, k) =>
    if mayFetch s r o k then
      let g := ringRegs o k
      let off := rBase s g + 64 * rHead s g
      if rLoc s g = 1 then
        match o with
        | .mgmt => s
        | .rgn n => fetchHerd r o k n off out s
      else
        let w := readCompanion true none (winBase s + off) 1 s
        match w.2 with
        | none => w.1
        | some b => takeEntry r o k b (dropHeld none (winBase s + off) 64 w.1)
    else s

def execEntryFetch (f : EntryRead) (s : State) : Host.Outcome State Fault Refusal := live s (fetchEntry f.ring f.out)

/-! ### CMD_RING_CFG (R279, R285) -/

/-- Are LOC, SIZE and BASE valid and does the ring lie wholly inside its space? -/
def ringCfgOk (o : RingOwner) (k : Nat) (v : Word) (s : State) : Bool :=
  let loc := Reg.CMD_RING_CFG_LOC.get v
  let size := Reg.CMD_RING_CFG_SIZE.get v
  let base := 4096 * Reg.CMD_RING_CFG_BASE.get v
  let bytes := (if k = 2 then 32 else 64) * 2 ^ size
  decide (4 ≤ size) && decide (size ≤ if k = 2 then 13 else 12) &&
  (if loc = 0 then decide (base + bytes ≤ winSize)
   else if loc = 1 then
     match o with
     | .mgmt => false
     | .rgn n => decide (3 ≤ s.stage n) && decide (base + bytes ≤ 4096 * tierCap s n 2)
   else false)

/-- The partition a ring owner serves. -/
def ownerPart (s : State) : RingOwner → Option Part
  | .mgmt => none
  | .rgn n => s.partOf n

/-- A write of CMD_RING_CFG_k or MGT_RING_CFG_k. -/
def doRingEnable (o : RingOwner) (k : Nat) (v : Word) (s : State) : State :=
  let g := ringRegs o k
  let old := s.reg g.cfg
  let en := Reg.CMD_RING_CFG_ENABLE.get v
  let same := Reg.CMD_RING_CFG_LOC.get old == Reg.CMD_RING_CFG_LOC.get v &&
    Reg.CMD_RING_CFG_SIZE.get old == Reg.CMD_RING_CFG_SIZE.get v &&
    Reg.CMD_RING_CFG_BASE.get old == Reg.CMD_RING_CFG_BASE.get v
  if rEnabled s g ∧ ¬ same then s
  else if rEnabled s g ∧ en = 0 ∧ k = 2 ∧ 0 < (match o with
      | .mgmt => outstanding s .mgmt
      | .rgn n => s.fld (Reg.CMD_STATUS n) Reg.CMD_STATUS_OUTSTANDING) then s
  else if en = 1 then
    if ringCfgOk o k v s ∧ ¬ (s.minimal ∧ o ≠ .mgmt) then
      let s1 := plainWrite g.cfg v s
      let s2 := (s1.setFld g.head Reg.CMD_RING_HEAD_INDEX 0).setFld g.tail Reg.CMD_RING_TAIL_INDEX 0
      let s3 := if k = 2 then s2.setFld g.tail Reg.CMD_RING_TAIL_PHASE 1 else s2
      if k = 2 then pumpReplay (ownerPart s o) o (showRing g s3) else showRing g s3
    else
      let s1 := ((plainWrite g.cfg v s).setFld g.cfg Reg.CMD_RING_CFG_ENABLE 0).setFld g.stat Reg.CMD_RING_STAT_CFG_ERR 1
      match o with
      | .rgn n => raiseDetail (rgnSrc n.val 41) none (s1.reg g.stat).toNat s1
      | .mgmt => s1
  else plainWrite g.cfg v s

/-- The ring owner of a partition, or of the management ring. -/
def servesRing (s : State) (o : RingOwner) : Bool := o == .mgmt || (ownerPart s o).isSome

/-- Records that have been consumed wait no longer for an interrupt (R284). -/
def dropConsumed (o : RingOwner) (s : State) : State :=
  if servesRing s o then
    modCq (ownerPart s o) (fun q => { q with waiting := List.drop (q.waiting.length - unconsumed s (ownerPart s o) o) q.waiting }) s
  else s

/-- The consumer's HEAD of a completion ring: a replay waiting for room goes on (R283, R337). -/
def doHead (o : RingOwner) (v : Word) (s : State) : State :=
  let g := ringRegs o 2
  pumpReplay (ownerPart s o) o
    (dropConsumed o (showRing g (s.setFld g.head Reg.CMD_RING_HEAD_INDEX (Reg.CMD_RING_HEAD_INDEX.get v))))

/-- A write of CMD_CQ_MOD or MGT_CQ_MOD: a COUNT that the records in the ring reach raises the interrupt (R284). -/
def doCqMod (o : RingOwner) (v : Word) (s : State) : State :=
  let s1 := plainWrite (cqMod o) v s
  let p := ownerPart s o
  if servesRing s o ∧ ¬ cqFull s p o ∧ cqFull s1 p o then
    irqRaise (cqIrqSrc p) (s1.reg (ringRegs o 2).tail) (modCq p (fun q => { q with waiting := [] }) s1)
  else s1

def execCmdRingCfg (who : Requester) (r : RingOwner) (k : Fin 3) (v : Word) (s : State) :
    Host.Outcome State Fault Refusal :=
  live s (guardWrite who (ringRegs r k.val).cfg 8 v (doRingEnable r k.val v))

/-! ### The completion interrupt's timer (R284) -/

/-- CQ_MOD_EXPIRY: a visible record has waited CMD_CQ_MOD.TICKS without an interrupt. -/
def cqModExpires (o : RingOwner) (s : State) : State :=
  match o, ownerPart s o with
  | .rgn _, none => s
  | _, p =>
    match (cqOf p s).waiting with
    | [] => s
    | t :: _ =>
      if t + s.fld (cqMod o) Reg.CMD_CQ_MOD_TICKS ≤ s.now then
        irqRaise (cqIrqSrc p) (s.reg (ringRegs o 2).tail) (modCq p (fun q => { q with waiting := [] }) s)
      else s

def execCqModExpiry (o : RingOwner) (s : State) : Host.Outcome State Fault Refusal := live s (cqModExpires o)

/-! ### Freeing what waited for a retirement (R238, R272, R276) -/

/-- Does an unretired command hold edit `g` or an earlier one of a session's tables? -/
def holdsGen (s : State) (p : Part) (h : BitVec 32) (g : Nat) : Bool :=
  s.cmds.any fun c => c.unretired && c.part == some p && c.rows.any fun r => r.1 == h && decide (r.2.2 ≤ g)

/-- Tiles on the deferred list of a region. -/
def deferredTiles (s : State) (n : Rgn) : Nat :=
  (s.parts.toList.flatMap fun p => p.allocs.filter fun a =>
    a.ext.rgn == n.val && match a.owner with | .deferred _ _ => true | _ => false).foldl (fun k a => k + a.ext.tiles) 0

/-- Unretired commands that hold a generation of a page table of the region other than the current one. -/
def holdersIn (s : State) (n : Nat) : Nat :=
  (s.cmds.filter fun c => c.unretired && c.rows.any fun r =>
    match c.part.bind fun p => (s.part p).sessions.find? fun x => x.handle == r.1 with
    | none => false
    | some x => x.tables.any fun t => t.rgn == n && decide (r.2.2 < t.edit)).length

/-- KV_STATUS (Table 8.5): DEFERRED and HOLDERS of every region. -/
def showDeferred (s : State) : State :=
  allRgns.foldl (fun t (n : Rgn) => (t.setFld (Reg.KV_STATUS n) Reg.KV_STATUS_DEFERRED (deferredTiles t n)).setFld
    (Reg.KV_STATUS n) Reg.KV_STATUS_HOLDERS (min 255 (holdersIn t n.val))) s

/-- Return deferred tiles that no holder can reach (R238, R239). -/
def returnDeferred (p : Part) (s : State) : State :=
  showDeferred (dropAllocs p (fun a => match a.owner with
    | .deferred h g => !holdsGen s p h g && !s.quarantined (Fin.ofNat 16 a.ext.rgn)
    | _ => false) s)

def boundTo (s : State) (p : Part) (id : Word) (ver : BitVec 32) : Bool :=
  s.cmds.any fun c => c.unretired && c.part == some p && c.pkg == some (id, ver)

def adapterBound (s : State) (p : Part) (a : Adapter) : Bool :=
  s.cmds.any fun c => c.unretired && c.part == some p && c.pkg.map Prod.fst == some a.base && c.adapter == some (a.id, a.ver, a.slot)

/-- Clear directory entries of a region (R115). -/
def clearDirs (n : Rgn) : List Nat → State → State
  | [], s => s
  | i :: is, s => clearDirs n is (s.setFld (Reg.CTX_DIR n i) Reg.CTX_DIR_VALID 0)

def clearVersionDirs : List Nat → List (List Nat) → State → State
  | n :: ns, d :: ds, s => clearVersionDirs ns ds (clearDirs (Fin.ofNat 16 n) d s)
  | _, _, s => s

/-- Free a version's package space, directory entries and copies; with no staged version left the adapters of its
PKG_ID are dropped (R272, R276). -/
def freeVersion (p : Part) (v : Version) (s : State) : State :=
  let s1 := clearVersionDirs v.targets v.dirs s
  let s2 := dropAllocs p (fun a => a.owner == .pkg v.pkg v.ver) s1
  let s3 := s2.modPart p fun q => { q with versions := q.versions.filter fun w => !(w.pkg == v.pkg && w.ver == v.ver),
                                           active := q.active.filter fun a => !(a.1 == v.pkg && a.2 == v.ver),
                                           costs := q.costs.filter fun y => !(y.pkg == v.pkg && y.ver == v.ver) }
  if (s3.part p).versions.any fun w => w.pkg == v.pkg then s3
  else s3.modPart p fun q => { q with adapters := q.adapters.map fun a =>
      if a.base = v.pkg then { a with dropped := true } else a }

def freeVersions (p : Part) : List Version → State → State
  | [], s => s
  | v :: vs, s => freeVersions p vs (if v.retiring ∧ ¬ boundTo s p v.pkg v.ver then freeVersion p v s else s)

def freeAdapters (p : Part) (s : State) : State :=
  let gone := fun (a : Adapter) => a.dropped && !adapterBound s p a
  let s1 := dropAllocs p (fun x => match x.owner with
    | .adapter b i v k => (s.part p).adapters.any fun a => gone a && a.base == b && a.id == i && a.ver == v && a.slot == k
    | _ => false) s
  s1.modPart p fun q => { q with adapters := q.adapters.filter fun a => !gone a }

def freeRetired (p : Part) (s : State) : State :=
  freeAdapters p (freeVersions p (s.part p).versions (returnDeferred p s))

end Sys2Proof.Machine
end

