-- ==== Sys2Proof/Machine/Accept.lean ====
section
/-!
DEFINITION. Acceptance (R288, R292 to R295, R305): the checks every packet passes in order, taking the next entry of a
partition's two rings, and accepting, committing or rejecting a command.
-/

namespace Sys2Proof.Machine

/-! ### Table 11.4 -/

def onPartition (op : Nat) : Bool :=
  [0x00, 0x01, 0x10, 0x11, 0x12, 0x13, 0x14, 0x20, 0x21, 0x22, 0x23, 0x24, 0x25, 0x26, 0x30, 0x31, 0x40, 0x41, 0x42,
   0x50, 0x60, 0x61, 0x62, 0x63, 0x64, 0x90].contains op
def onMgmt (op : Nat) : Bool := [0x00, 0x01, 0x02, 0x43, 0x70, 0x71, 0x80, 0x90, 0x91, 0x92].contains op
def abortable (op : Nat) : Bool := [0x10, 0x13, 0x21, 0x22, 0x24, 0x25, 0x30, 0x42, 0x91].contains op

/-- Check 1: is the opcode allowed on the ring? In minimal mode the management ring takes five opcodes (R378). -/
def opcodeAllowed (s : State) (c : Cmd) : Bool :=
  match c.ring with
  | .part _ _ => onPartition c.opcode
  | .mgmt =>
    if s.minimal then c.opcode == 0x00 || (c.opcode == 0x01 && c.p1 0x10 == 0) || c.opcode == 0x90 ||
      c.opcode == 0x91 || c.opcode == 0x92
    else onMgmt c.opcode

/-! ### Check 2 -/

def needsDeadline (c : Cmd) : Bool :=
  (c.opcode == 0x21 || c.opcode == 0x22 || c.opcode == 0x30) && match c.ring with
    | .part _ k => k == 0
    | .mgmt => false

/-- (CLIENT, TAG) of an unretired command of the same partition, or of the management ring. -/
def repeated (s : State) (c : Cmd) : Bool :=
  s.cmds.any fun d => d.unretired && d.id != c.id && ringPart d.ring == ringPart c.ring && d.client == c.client &&
    d.tag == c.tag

/-- The first bad header byte, if any (Table 11.1, R288). -/
def badHeader (s : State) (c : Cmd) : Option Nat :=
  if 4 ≤ c.flags then some 1
  else if repeated s c then some 2
  else if leAt c.pkt 6 2 ≠ 0 then some 6
  else if (c.deadline = 0) = needsDeadline c then some 8
  else if leAt c.pkt 0x0C 4 ≠ 0 then some 0x0C
  else none

/-! ### Check 3: reserved bytes -/

/-- The first non-zero byte of the parameters outside the named fields (offset, size). -/
def reservedByte (pkt : List Byte) (named : List (Nat × Nat)) : Option Nat :=
  ((List.range 48).map (· + 16)).find? fun i =>
    leAt pkt i 1 != 0 && !(named.any fun f => decide (f.1 ≤ i) && decide (i < f.1 + f.2))

/-- A check that fails answers a status and DETAIL. -/
abbrev Fail := Option (Nat × Nat)

/-- The first of a list of checks that fails. -/
def firstFail : List Fail → Fail
  | [] => none
  | some f :: _ => some f
  | none :: l => firstFail l

/-- A parameter test: ST_BAD_PARAM at a byte offset when it does not hold. -/
def param (off : Nat) (ok : Bool) : Fail := if ok then none else some (ST_BAD_PARAM, off)

def reserved (c : Cmd) (named : List (Nat × Nat)) : Fail := (reservedByte c.pkt named).map fun i => (ST_BAD_PARAM, i)

/-- Check 4: the first quarantined region of a list. -/
def quarantineFail (s : State) (rs : List Nat) : Fail :=
  (rs.find? fun n => decide (n < 16) && s.quarantined (Fin.ofNat 16 n)).map fun n => (ST_REGION_QUARANTINED, n)

/-! ### Order between the rings (R305) -/

/-- May this head entry be taken next? Ring 0 first, but after 15 acceptances in a row ring 1's acceptable entry. -/
def myTurn (s : State) (c : Cmd) : Bool :=
  match c.ring with
  | .mgmt => true
  | .part p k =>
    let ready := fun (j : Fin 2) => (headEntry s (.part p j)).isSome && !isHeld s (.part p j)
    !isHeld s c.ring &&
    if k = 0 then !(decide (15 ≤ (s.part p).consec0) && ready 1)
    else !ready 0 || decide (15 ≤ (s.part p).consec0)

/-! ### Accepting -/

/-- Accept a command: it takes its place in the order (R305) with the span, binding and reservation `f` gives it. -/
def acceptAs (id : Nat) (f : Cmd → Cmd) (s : State) : State :=
  let s1 := s.modCmd id fun c => f { c with phase := .accepted, seq := s.nextSeq, tick := s.now }
  let s2 := modPwr (fun p => { p with lastActive := s.now }) { s1 with nextSeq := s.nextSeq + 1 }
  match (s2.cmd id).map Cmd.ring with
  | some (.part p k) =>
    let other := (headEntry s (.part p 1)).isSome && !isHeld s (.part p 1)
    s2.modPart p fun q => { q with consec0 := if k = 0 ∧ other then q.consec0 + 1 else 0 }
  | _ => s2

/-- The commit of a command whose work is done, with what its record says (R300, R301). -/
def commitAs (id status detail : Nat) (result : List Byte) (s : State) : State :=
  s.modCmd id fun c => { c with phase := .committed, status := status, detail := detail, result := result, resv := [] }

/-- End an accepted command with a status while it does its work in one step. -/
def failAs (id status detail : Nat) (s : State) : State := endCommand id status detail s

/-- What the opcode's own checks say of an entry: reject it, wait for a companion read, or accept it. -/
inductive Verdict where
  | reject (status detail : Nat)
  | wait
  | accept
  deriving DecidableEq, Repr

def verdict (f : Fail) : Verdict :=
  match f with
  | some x => .reject x.1 x.2
  | none => .accept

/-- Process the head entry of a ring, which carries opcode `op`: checks 1 and 2, then the opcode's own checks (which
may read companion memory first), then its acceptance (R292). -/
def process (op : Nat) (r : Ring) (check : Cmd → State → State × Verdict) (act : Cmd → State → State) (s : State) :
    State :=
  match headEntry s r with
  | none => s
  | some c =>
    if c.opcode ≠ op ∨ ¬ myTurn s c ∨ s.fatal then s
    else if ¬ opcodeAllowed s c then reject c.id ST_BAD_OPCODE 0 s
    else match badHeader s c with
      | some off => reject c.id ST_BAD_PARAM off s
      | none =>
        let v := check c s
        match v.2 with
        | .reject st d => showHold r (reject c.id st d v.1)
        | .wait => v.1
        | .accept => showHold r (act c v.1)

/-- Checks that read nothing. -/
def quiet (f : Cmd → State → Fail) : Cmd → State → State × Verdict := fun c s => (s, verdict (f c s))

/-! ### RESERVED_OPCODE (R292, R294) -/

def opcodeKnown (op : Nat) : Bool := onPartition op || onMgmt op

/-- An entry whose opcode is reserved is rejected with ST_BAD_OPCODE. -/
def rejectReserved (r : Ring) (s : State) : State :=
  match headEntry s r with
  | none => s
  | some c => if opcodeKnown c.opcode ∨ ¬ myTurn s c ∨ s.fatal then s else showHold r (reject c.id ST_BAD_OPCODE 0 s)

def execReservedOpcode (r : Ring) (s : State) : Host.Outcome State Fault Refusal := live s (rejectReserved r)

/-! ### NOP (R296) -/

def nopAct (c : Cmd) (s : State) : State := commitAs c.id ST_OK 0 [] (acceptAs c.id id s)

def execNop (r : Ring) (_ : Choice) (s : State) : Host.Outcome State Fault Refusal :=
  live s (process 0x00 r (quiet fun c _ => reserved c []) nopAct)

/-! ### Partitions of a command -/

def cmdPart (c : Cmd) : Part := c.part.getD 0

/-- Does the command's partition hold region `n`? -/
def inPart (s : State) (c : Cmd) (n : Nat) : Bool := decide (n < 16) && (s.part (cmdPart c)).has n

def leadNat (s : State) (c : Cmd) : Nat :=
  match (s.part (cmdPart c)).lead with
  | some n => n.val
  | none => 16

end Sys2Proof.Machine
end

