-- ==== Sys2Proof/Machine/Uop.lean ====
section
/-!
DEFINITION. The micro-op word (R62, Tables 3.2 to 3.6): its fields, the operations, and the values that are reserved or
forbidden (R63).
-/

namespace Sys2Proof.Machine

abbrev Uop := BitVec 64

def Uop.bits (u : Uop) (lo w : Nat) : Nat := u.toNat / 2 ^ lo % 2 ^ w
def Uop.op (u : Uop) : Nat := u.bits 58 6
def Uop.fmt (u : Uop) : Nat := u.bits 54 4
/-- Elements processed. -/
def Uop.cnt (u : Uop) : Nat := u.bits 42 12 + 1
def Uop.ak (u : Uop) : Nat := u.bits 40 2
def Uop.a (u : Uop) : Nat := u.bits 34 6
def Uop.bk (u : Uop) : Nat := u.bits 32 2
def Uop.b (u : Uop) : Nat := u.bits 26 6
def Uop.dk (u : Uop) : Nat := u.bits 24 2
def Uop.d (u : Uop) : Nat := u.bits 18 6
def Uop.men (u : Uop) : Bool := u.getLsbD 17
def Uop.msk (u : Uop) : Nat := u.bits 14 3
def Uop.mz (u : Uop) : Bool := u.getLsbD 13
def Uop.rnd (u : Uop) : Bool := u.getLsbD 12
def Uop.sat (u : Uop) : Bool := u.getLsbD 11
def Uop.acb (u : Uop) : Nat := u.bits 10 1
def Uop.acz (u : Uop) : Bool := u.getLsbD 9
def Uop.fin (u : Uop) : Bool := u.getLsbD 8
def Uop.aux (u : Uop) : Nat := u.bits 0 8

/-- Broadcast mode of B (Table 3.5). -/
def Uop.bcast (u : Uop) : Nat := u.bits 0 2
/-- AUX[4:2]. -/
def Uop.mode (u : Uop) : Nat := u.bits 2 3

/-! ### Operation numbers (Table 3.6) -/

def opNop : Nat := 0x00
def opMma : Nat := 0x01
def opMov : Nat := 0x08
def opCvt : Nat := 0x09
def opMxscale : Nat := 0x0A
def opSetp : Nat := 0x0B
def opSeed : Nat := 0x0C
def opFlags : Nat := 0x0D
def opAdd : Nat := 0x10
def opSub : Nat := 0x11
def opMul : Nat := 0x12
def opFma : Nat := 0x13
def opMax : Nat := 0x14
def opMin : Nat := 0x15
def opNeg : Nat := 0x16
def opAbs : Nat := 0x17
def opCmp : Nat := 0x18
def opSel : Nat := 0x19
def opExp2 : Nat := 0x20
def opLog2 : Nat := 0x21
def opRcp : Nat := 0x22
def opRsqrt : Nat := 0x23
def opSilu : Nat := 0x24
def opGelu : Nat := 0x25
def opSubexp : Nat := 0x28
def opRedRow : Nat := 0x29
def opRedCol : Nat := 0x2A
def opNstat : Nat := 0x2B
def opNfin : Nat := 0x2C
def opSummary : Nat := 0x30

def opKnown (o : Nat) : Bool :=
  o == 0x00 || o == 0x01 || (decide (0x08 ≤ o) && decide (o ≤ 0x0D)) || (decide (0x10 ≤ o) && decide (o ≤ 0x19)) ||
  (decide (0x20 ≤ o) && decide (o ≤ 0x25)) || (decide (0x28 ≤ o) && decide (o ≤ 0x2C)) || o == 0x30

def isMx (f : Nat) : Bool := decide (7 ≤ f) && decide (f ≤ 12)

/-- Operations that read A. -/
def usesA (o : Nat) : Bool := o != opNop && o != opFlags
/-- Operations that read B. -/
def usesB (o aux : Nat) : Bool :=
  o == opMma || (decide (opAdd ≤ o) && decide (o ≤ opMin)) || o == opCmp || o == opSel || o == opSubexp ||
  (o == opCvt && isMx (aux % 16))

/-- A source operand of Table 3.2 with a reserved kind field. -/
def badSource (k f : Nat) : Bool :=
  (k == 1 && f % 4 != 0) || (k == 2 && f != 0) || (k == 3 && decide (4 < f))

/-- A destination operand of Table 3.2 with a reserved kind field. -/
def badDest (k f : Nat) : Bool :=
  (k == 1 && f % 4 != 0) || (k == 2 && f != 0) || (k == 3 && !(decide (f ≤ 2) || (decide (8 ≤ f) && decide (f ≤ 15))))

/-- A reserved or forbidden value (R63). -/
def uopReserved (u : Uop) : Bool :=
  let o := u.op
  !opKnown o || decide (13 ≤ u.fmt) ||
  (isMx u.fmt && !(o == opMma || o == opMov || o == opCvt || o == opMxscale)) ||
  (o == opCmp && (decide (32 < u.cnt) || u.mode == 7)) || (o == opRedRow && u.cnt % 8 != 0) ||
  (o == opMma && isMx u.fmt && decide (1024 < u.cnt)) ||
  (usesA o && badSource u.ak u.a) || (usesB o u.aux && badSource u.bk u.b) ||
  (o != opNop && o != opMma && o != opSetp && o != opSeed && badDest u.dk u.d) ||
  (o == opCvt && decide (13 ≤ u.aux % 16)) || (o == opMxscale && !isMx (u.aux % 16)) ||
  ((o == opRedRow || o == opRedCol) && decide (2 < u.mode)) || (o == opSummary && decide (5 < u.mode))

end Sys2Proof.Machine
end

