-- ==== Sys2Proof/Machine/Float.lean ====
section
/-!
DEFINITION. Element formats and their arithmetic (R54 to R56, R77 to R84): exact values, decoding, rounding and the sticky
flags.
-/

namespace Sys2Proof.Machine

/-! ### Exact values -/

/-- A value of a floating format: not a number, an infinity, or ±m × 2^e. -/
inductive FVal where
  | nan
  | inf (neg : Bool)
  | fin (neg : Bool) (m : Nat) (e : Int)
  deriving DecidableEq, Repr

def FVal.zero : FVal := .fin false 0 0
def FVal.one : FVal := .fin false 1 0
def FVal.isNan : FVal → Bool
  | .nan => true
  | _ => false
def FVal.isZero : FVal → Bool
  | .fin _ 0 _ => true
  | _ => false
def FVal.neg? : FVal → Bool
  | .nan => false
  | .inf n => n
  | .fin n _ _ => n

/-- The sticky flags (Table 3.10). -/
structure Flags where
  nv : Bool
  dz : Bool
  ofl : Bool
  uf : Bool
  satf : Bool
  nanin : Bool
  deriving DecidableEq, Repr

def Flags.none : Flags := ⟨false, false, false, false, false, false⟩
def Flags.or (a b : Flags) : Flags := ⟨a.nv || b.nv, a.dz || b.dz, a.ofl || b.ofl, a.uf || b.uf, a.satf || b.satf, a.nanin || b.nanin⟩
def Flags.word (f : Flags) : BitVec 6 :=
  BitVec.ofNat 6 (f.nv.toNat + 2 * f.dz.toNat + 4 * f.ofl.toNat + 8 * f.uf.toNat + 16 * f.satf.toNat + 32 * f.nanin.toNat)
def flagNv : Flags := { Flags.none with nv := true }
def flagDz : Flags := { Flags.none with dz := true }
def flagOf : Flags := { Flags.none with ofl := true }
def flagUf : Flags := { Flags.none with uf := true }
def flagSat : Flags := { Flags.none with satf := true }
def flagNan : Flags := { Flags.none with nanin := true }
/-- The flags of an operation with a substituted operand (R85): none but that of another operand's NaN. -/
def Flags.quiet (f : Flags) : Flags := { Flags.none with nanin := f.nanin }

/-! ### Formats (Table 3.1) -/

/-- Exponent bits, mantissa bits and bias of a floating format; integer formats have none. -/
structure FloatFmt where
  eb : Nat
  mb : Nat
  bias : Nat
  /-- Infinities, and NaN as in IEEE 754; E4M3 has only the NaN S.1111.111, FP6 and FP4 have neither. -/
  ieee : Bool
  nan : Bool
  deriving DecidableEq, Repr

def f32 : FloatFmt := ⟨8, 23, 127, true, true⟩
def floatFmt (f : Nat) : FloatFmt :=
  if f = 0 then f32 else if f = 1 then ⟨8, 7, 127, true, true⟩ else if f = 2 then ⟨5, 10, 15, true, true⟩
  else if f = 3 ∨ f = 7 then ⟨4, 3, 7, false, true⟩ else if f = 4 ∨ f = 8 then ⟨5, 2, 15, true, true⟩
  else if f = 9 then ⟨2, 3, 1, false, false⟩ else if f = 10 then ⟨3, 2, 3, false, false⟩
  else if f = 11 then ⟨2, 1, 1, false, false⟩ else f32

def isInt (f : Nat) : Bool := f == 5 || f == 6 || f == 12

/-- Bits that an element takes in a word (R56). -/
def slotBits (f : Nat) : Nat := if f = 0 ∨ f = 6 then 32 else if f = 1 ∨ f = 2 then 16 else if f = 11 then 4 else 8
/-- Bits of the element itself: the two bits above an FP6 element are ignored on a read and written as zero (R56). -/
def elemBits (f : Nat) : Nat := if f = 9 ∨ f = 10 then 6 else slotBits f
/-- Elements of a 128-bit word. -/
def lanesOf (f : Nat) : Nat := 128 / slotBits f

/-- Decode an element of a floating format. -/
def decodeFloat (g : FloatFmt) (v : Nat) : FVal :=
  let m := v % 2 ^ g.mb
  let e := v / 2 ^ g.mb % 2 ^ g.eb
  let neg := v / 2 ^ (g.mb + g.eb) % 2 == 1
  let top := 2 ^ g.eb - 1
  if g.ieee ∧ e = top then (if m = 0 then .inf neg else .nan)
  else if ¬ g.ieee ∧ g.nan ∧ e = top ∧ m = 2 ^ g.mb - 1 then .nan
  else if e = 0 then .fin neg m (1 - (g.bias : Int) - g.mb)
  else .fin neg (2 ^ g.mb + m) ((e : Int) - g.bias - g.mb)

/-- The value of an element of format `f`; MXINT8 is n × 2^-6, and an MX element is taken without its scale. -/
def decodeElem (f v : Nat) : FVal :=
  if f = 5 then (let i := (BitVec.ofNat 8 v).toInt; .fin (decide (i < 0)) i.natAbs 0)
  else if f = 6 then (let i := (BitVec.ofNat 32 v).toInt; .fin (decide (i < 0)) i.natAbs 0)
  else if f = 12 then (let i := (BitVec.ofNat 8 v).toInt; .fin (decide (i < 0)) i.natAbs (-6))
  else decodeFloat (floatFmt f) v

/-- The canonical NaN (R84). -/
def canonicalNan (f : Nat) : Nat :=
  if f = 0 then 0x7FC00000 else if f = 1 then 0x7FC0 else if f = 2 then 0x7E00
  else if f = 3 ∨ f = 7 then 0x7F else if f = 4 ∨ f = 8 then 0x7E else 0

def nan32 : BitVec 32 := 0x7FC00000

/-- The bits of an element with a NaN made canonical (R84). -/
def canonical (f v : Nat) : Nat := if ¬ isInt f ∧ (decodeElem f v).isNan then canonicalNan f else v

/-! ### Rounding (R77, R78) -/

/-- Round m × 2^e to a multiple of 2^q: to nearest even, or with 16 fresh bits. Answers the multiple and whether it is exact. -/
def roundAt (u : Option Nat) (m : Nat) (e q : Int) : Nat × Bool :=
  if q ≤ e then (m * 2 ^ (e - q).toNat, true)
  else
    let sh := (q - e).toNat
    let kept := m / 2 ^ sh
    let rem := m % 2 ^ sh
    if rem = 0 then (kept, true)
    else match u with
      | some u => ((m * 2 ^ 16 / 2 ^ sh + u) / 2 ^ 16, false)
      | none =>
        let up := decide (2 ^ sh < 2 * rem) || (2 * rem == 2 ^ sh && kept % 2 == 1)
        (kept + up.toNat, false)

/-- The rounded magnitude in a format's range of exponents: the multiple, its unit exponent, and exactness. -/
def roundMag (g : FloatFmt) (u : Option Nat) (m : Nat) (e : Int) : Nat × Int × Bool :=
  let top : Int := (m.log2 : Int) + e
  let q := max top (1 - (g.bias : Int)) - g.mb
  let r := roundAt u m e q
  if r.1 = 2 ^ (g.mb + 1) then (2 ^ g.mb, q + 1, r.2) else (r.1, q, r.2)

/-- Greatest finite magnitude of a format as its mantissa and exponent fields. -/
def maxField (g : FloatFmt) : Nat × Nat :=
  if g.ieee then (2 ^ g.mb - 1, 2 ^ g.eb - 2)
  else if g.nan then (2 ^ g.mb - 2, 2 ^ g.eb - 1)
  else (2 ^ g.mb - 1, 2 ^ g.eb - 1)

def signBit (g : FloatFmt) (neg : Bool) : Nat := if neg then 2 ^ (g.mb + g.eb) else 0
def largest (g : FloatFmt) (neg : Bool) : Nat := signBit g neg + (maxField g).2 * 2 ^ g.mb + (maxField g).1
def infinity (g : FloatFmt) (neg : Bool) : Nat := signBit g neg + (2 ^ g.eb - 1) * 2 ^ g.mb

/-- Fields of a rounded magnitude, or none when it exceeds the largest finite one. -/
def fieldsOf (g : FloatFmt) (r : Nat) (q : Int) : Option (Nat × Nat) :=
  if r < 2 ^ g.mb then some (r, 0)
  else
    let e := (q + g.mb + g.bias).toNat
    let m := r - 2 ^ g.mb
    if (maxField g).2 < e ∨ (e = (maxField g).2 ∧ (maxField g).1 < m) then none else some (m, e)

/-- Underflow (Table 3.10): a non-zero result that is subnormal or zero after rounding and inexact. -/
def underflows (g : FloatFmt) (r : Nat) (exact : Bool) : Bool := decide (r < 2 ^ g.mb) && !exact

/-- A result in FP32: to nearest even, overflow to infinity. -/
def to32 (v : FVal) : BitVec 32 × Flags :=
  match v with
  | .nan => (nan32, Flags.none)
  | .inf n => (BitVec.ofNat 32 (infinity f32 n), Flags.none)
  | .fin n 0 _ => (BitVec.ofNat 32 (signBit f32 n), Flags.none)
  | .fin n m e =>
    let r := roundMag f32 none m e
    match fieldsOf f32 r.1 r.2.1 with
    | none => (BitVec.ofNat 32 (infinity f32 n), flagOf)
    | some (mf, ef) =>
      (BitVec.ofNat 32 (signBit f32 n + ef * 2 ^ 23 + mf), if underflows f32 r.1 r.2.2 then flagUf else Flags.none)

def of32 (v : BitVec 32) : FVal := decodeFloat f32 v.toNat

/-- Saturate an integer to 8 or 32 bits. -/
def satInt (w : Nat) (i : Int) : Int × Bool :=
  if i < -(2 ^ (w - 1) : Int) then (-(2 ^ (w - 1) : Int), true)
  else if (2 ^ (w - 1) : Int) - 1 < i then ((2 ^ (w - 1) : Int) - 1, true) else (i, false)

def intBits (w : Nat) (i : Int) : Nat := (BitVec.ofInt w i).toNat

/-- Round ±m × 2^e × 2^s to an integer, to nearest even. -/
def roundInt (neg : Bool) (m : Nat) (e : Int) : Int :=
  let r := (roundAt none m e 0).1
  if neg then -(r : Int) else r

/-- Conversion to an integer format of `w` bits (R80). -/
def toIntFmt (w : Nat) (v : FVal) : Nat × Flags :=
  match v with
  | .nan => (0, flagNv)
  | .inf n => (intBits w (if n then -(2 ^ (w - 1) : Int) else (2 ^ (w - 1) : Int) - 1), flagSat)
  | .fin n m e =>
    let r := satInt w (roundInt n m e)
    (intBits w r.1, if r.2 then flagSat else Flags.none)

/-- Conversion of a finite or special value to a narrower floating format (R77, R78, R80). `mx` always saturates (R81). -/
def toFloatFmt (f : Nat) (sat mx : Bool) (u : Option Nat) (v : FVal) : Nat × Flags :=
  let g := floatFmt f
  let tooBig := fun (n : Bool) =>
    if mx ∨ ¬ sat then (largest g n, flagSat)
    else if g.ieee then (infinity g n, flagOf) else (canonicalNan f, flagOf)
  match v with
  | .nan => (canonicalNan f, Flags.none)
  | .inf n =>
    if mx ∨ ¬ sat then (largest g n, flagSat)
    else if g.ieee then (infinity g n, Flags.none) else (canonicalNan f, Flags.none)
  | .fin n 0 _ => (signBit g n, Flags.none)
  | .fin n m e =>
    let r := roundMag g u m e
    match fieldsOf g r.1 r.2.1 with
    | none => tooBig n
    | some (mf, ef) => (signBit g n + ef * 2 ^ g.mb + mf, if underflows g r.1 r.2.2 then flagUf else Flags.none)

/-- Conversion of an exact value to FP32 under SAT (R80): a magnitude beyond FP32 saturates, or becomes infinity. -/
def toFp32 (sat : Bool) (v : FVal) : Nat × Flags :=
  match v with
  | .inf n => if sat then (infinity f32 n, Flags.none) else (largest f32 n, flagSat)
  | v =>
    let r := to32 v
    if r.2.ofl ∧ ¬ sat then (largest f32 v.neg?, flagSat) else (r.1.toNat, r.2)

/-! ### Exact arithmetic -/

def scaled (neg : Bool) (m : Nat) (e lo : Int) : Int :=
  let k : Int := m * 2 ^ (e - lo).toNat
  if neg then -k else k

/-- The exact sum; a zero sum is negative only when both addends are. -/
def fadd (a b : FVal) : FVal × Flags :=
  match a, b with
  | .nan, _ | _, .nan => (.nan, Flags.none)
  | .inf x, .inf y => if x = y then (.inf x, Flags.none) else (.nan, flagNv)
  | .inf x, _ => (.inf x, Flags.none)
  | _, .inf y => (.inf y, Flags.none)
  | .fin x m e, .fin y k f =>
    let lo := min e f
    let t := scaled x m e lo + scaled y k f lo
    (.fin (if t = 0 then x && y else decide (t < 0)) t.natAbs lo, Flags.none)

def fneg : FVal → FVal
  | .nan => .nan
  | .inf n => .inf !n
  | .fin n m e => .fin (!n) m e

def fabs : FVal → FVal
  | .nan => .nan
  | .inf _ => .inf false
  | .fin _ m e => .fin false m e

def fmul (a b : FVal) : FVal × Flags :=
  match a, b with
  | .nan, _ | _, .nan => (.nan, Flags.none)
  | .inf x, .inf y => (.inf (x != y), Flags.none)
  | .inf x, .fin y m _ => if m = 0 then (.nan, flagNv) else (.inf (x != y), Flags.none)
  | .fin x m _, .inf y => if m = 0 then (.nan, flagNv) else (.inf (x != y), Flags.none)
  | .fin x m e, .fin y k f => (.fin (x != y) (m * k) (e + f), Flags.none)

/-- Multiply by a power of two. -/
def fscale (a : FVal) (k : Int) : FVal :=
  match a with
  | .fin n m e => .fin n m (e + k)
  | v => v

/-- Order of two values that are not NaN; −0 and +0 are equal. -/
def fcmp (a b : FVal) : Int :=
  let key : FVal → Int × Int := fun v => match v with
    | .nan => (0, 0)
    | .inf n => (if n then -1 else 1, 0)
    | .fin _ _ _ => (0, 0)
  if (key a).1 ≠ (key b).1 then (key a).1 - (key b).1
  else match a, b with
    | .fin x m e, .fin y k f => (let lo := min e f; scaled x m e lo - scaled y k f lo)
    | _, _ => 0

def flt (a b : FVal) : Bool := !a.isNan && !b.isNan && decide (fcmp a b < 0)
def feq (a b : FVal) : Bool := !a.isNan && !b.isNan && fcmp a b == 0

/-- Maximum and minimum; of two zeros the maximum is +0 and the minimum −0. -/
def fmax (a b : FVal) : FVal := if flt a b ∨ (feq a b ∧ a.neg?) then b else a
def fmin (a b : FVal) : FVal := if flt b a ∨ (feq a b ∧ b.neg?) then b else a

/-- The quotient of two finite values, rounded to nearest even in FP32. -/
def fdiv32 (a b : FVal) : BitVec 32 × Flags :=
  match a, b with
  | .fin x m e, .fin y k f =>
    if k = 0 ∨ m = 0 then (BitVec.ofNat 32 (signBit f32 (x != y)), Flags.none)
    else
      let q := m * 2 ^ 64 / k
      let st := if m * 2 ^ 64 % k = 0 then 0 else 1
      to32 (.fin (x != y) (2 * q + st) (e - f - 65))
  | _, _ => (nan32, Flags.none)

end Sys2Proof.Machine
end

