-- ==== Sys2Proof/Machine/Tahr.lean ====
section
/-!
DEFINITION. Tahr's request queue and its measurement registers (R425, R430).
-/

namespace Sys2Proof.Machine

def modSec (f : Security → Security) (s : State) : State := { s with sec := f s.sec }

/-! ### The request queue (R425) -/

/-- What waits in the queue: a package verification, ATTEST or firmware check of a command, the HELLO of a port, or the
mailbox operation. -/
def tqVerify (id : Nat) : Nat × Nat := (0, id)
def tqHello (n : Nat) : Nat × Nat := (1, n)
def tqAttest (id : Nat) : Nat × Nat := (2, id)
def tqFirmware (id : Nat) : Nat × Nat := (3, id)
def tqMailbox : Nat × Nat := (4, 0)

/-- Does the request still stand? -/
def tahrLive (s : State) (x : Nat × Nat) : Bool :=
  if x.1 = 1 then ((s.rgns.toList.getD x.2 Region.reset).port.signing)
  else if x.1 = 4 then s.sec.mbxOp.isSome
  else ((s.cmd x.2).map Cmd.live).getD false

/-- The queue without requests that no longer stand, and with `x` at its end if it is new and there is room among 64. -/
def tahrQueue (s : State) (x : Nat × Nat) : List (Nat × Nat) :=
  let q := s.sec.queue.filter (tahrLive s)
  if q.contains x ∨ 64 ≤ q.length then q else q ++ [x]

/-- A request joins the queue. -/
def tahrAsk (x : Nat × Nat) (s : State) : State := modSec (fun c => { c with queue := tahrQueue s x }) s

/-- Tahr serves a request when its turn has come. -/
def tahrTurn (x : Nat × Nat) (f : State → State) (s : State) : State :=
  let q := tahrQueue s x
  if q.head? = some x then f (modSec (fun c => { c with queue := q.drop 1 }) s) else modSec (fun c => { c with queue := q }) s

/-! ### Measurement registers (R430) -/

def mrOf (s : State) (k : Nat) : List Byte := s.sec.mrs.toList.getD k []

/-- MR = SHA-384(MR ‖ v), with v of 48 bytes. -/
def extendMr (k : Nat) (v : List Byte) (s : State) : State :=
  modSec (fun c => { c with mrs := Vec.modify c.mrs k fun m => Config.sha384 (Config.fit 48 m ++ Config.fit 48 v) }) s

end Sys2Proof.Machine
end

