-- ==== Sys2Proof/Machine/Sessions.lean ====
section
/-!
DEFINITION. Sessions and their key-value caches (08_attention.md, 12_serving.md): page tables and their edits, lengths,
and the commands SESSION_OPEN, SESSION_ACCEPT and SESSION_CLOSE.
-/

namespace Sys2Proof.Machine

/-! ### Session table (R309) -/

def modSession (p : Part) (h : BitVec 32) (f : Session → Session) (s : State) : State :=
  s.modPart p fun q => { q with sessions := q.sessions.map fun x => if x.handle = h then f x else x }

def countState (q : Partition) (st : SessState) : Nat := (q.sessions.filter fun x => x.st == st).length

/-- SRV_SESSIONS of the lead region (Table 12.7). -/
def showSessions (p : Part) (s : State) : State :=
  match (s.part p).lead with
  | none => s
  | some n => (s.setFld (Reg.SRV_SESSIONS n) Reg.SRV_SESSIONS_OPEN (countState (s.part p) .opened)).setFld
      (Reg.SRV_SESSIONS n) Reg.SRV_SESSIONS_PARKED (countState (s.part p) .parked)

/-- An unretired command names the session (R293). -/
def busy (s : State) (p : Part) (h : BitVec 32) : Bool :=
  s.cmds.any fun c => c.unretired && c.part == some p && c.rows.any fun r => r.1 == h

/-- Check 5 for one session row: unknown, expired, busy, or in a state that does not accept the opcode. -/
def sessionFail (s : State) (c : Cmd) (h row : Nat) (sts : List SessState) : Fail :=
  let p := cmdPart c
  match sessionOf s p h with
  | none =>
    if (s.part p).expired.any fun e => e.toNat == h then some (ST_SESSION_EXPIRED, row)
    else some (ST_SESSION_UNKNOWN, row)
  | some x =>
    if x.client.toNat ≠ c.client then some (ST_SESSION_UNKNOWN, row)
    else if busy s p x.handle then some (ST_SESSION_BUSY, row)
    else if ¬ sts.contains x.st then some (ST_BAD_PARAM, row)
    else none

/-- Regions that hold part of a session's cache or park copy (R312). -/
def sessionRgns (x : Session) : List Nat := x.tables.map PageTable.rgn ++ x.parkTiles.map Extent.rgn

def sessionRgnsOf (s : State) (c : Cmd) (h : Nat) : List Nat :=
  match sessionOf s (cmdPart c) h with
  | some x => sessionRgns x
  | none => []

/-! ### Page tables (R228, R236 to R239) -/

/-- Tiles that a page table of `k` entries occupies. -/
def tableTiles (k : Nat) : Nat := max 1 ((k + 511) / 512)

/-- A page-table image: one entry per page, the rest of its tiles zero (Table 8.1). -/
def tableBytes (pages : List Nat) : List Byte :=
  Config.fit (4096 * tableTiles pages.length) (pages.flatMap fun t => leBytes 8 (t % 2 ^ 32 + 2 ^ 63))

/-- Unlink an extent of a session: it goes on the deferred list, tagged with the edit (R238). -/
def deferExtent (p : Part) (h : BitVec 32) (edit : Nat) (e : Extent) (s : State) : State :=
  let f := fun (a : Alloc) => if a.owner = .session h ∧ a.ext = e then { a with owner := .deferred h edit } else a
  s.modPart p fun q => { q with allocs := q.allocs.map f }

def deferBlocks (p : Part) (h : BitVec 32) (edit rgn pb : Nat) : List Nat → State → State
  | [], s => s
  | t :: ts, s => deferBlocks p h edit rgn pb ts (deferExtent p h edit ⟨rgn, 1, t, pb⟩ s)

/-- One edit of one table (R237): a complete new generation in new table tiles becomes current; the old table tiles and
the unlinked blocks are deferred. -/
def editTable (p : Part) (h : BitVec 32) (rgn grp : Nat) (pages : List Nat) (tile : Nat) (s : State) : State :=
  match (s.part p).sessions.find? fun x => x.handle == h with
  | none => s
  | some x =>
    match x.tables.find? fun t => t.rgn == rgn && t.grp == grp with
    | none => s
    | some t =>
      let s1 := addAllocs p [⟨⟨rgn, 1, tile, tableTiles pages.length⟩, .session h⟩]
        (s.store (nearAddr rgn (4096 * tile)) (tableBytes pages))
      let gone := t.pages.filter fun b => !pages.contains b
      let s2 := deferBlocks p h x.edits rgn t.pb gone
        (deferExtent p h x.edits ⟨rgn, 1, t.tableTile, tableTiles t.pages.length⟩ s1)
      let f := fun (u : PageTable) => if u.rgn = rgn ∧ u.grp = grp then
          { u with gen := u.gen + 1, edit := x.edits + 1, pages := pages, tableTile := tile } else u
      let s3 := modSession p h (fun y => { y with edits := y.edits + 1, tables := y.tables.map f }) s2
      showDeferred (returnDeferred p s3)

/-- Blocks of a session's table beyond its first `k` pages go (R235, R240). -/
def shrinkTables (p : Part) (h : BitVec 32) (k : Nat) : List (PageTable × Nat) → State → State
  | [], s => s
  | (t, tile) :: ts, s =>
    shrinkTables p h k ts (if k < t.pages.length then editTable p h t.rgn t.grp (t.pages.take k) tile s else s)

/-- Pages of a length. -/
def pagesOf (len : Nat) : Nat := (len + 15) / 16

/-- The new table tile the choice gives each table of a session, in the tables' order. -/
def tilesFor (x : Session) (ch : Choice) : List (PageTable × Nat) :=
  x.tables.map fun t => (t, ((ch.groups.filter fun g => g.rgn.val == t.rgn).getD t.grp
    ⟨0, 0, 0, []⟩).rows.head?.elim 0 RowChoice.table)

/-- The table tiles that cutting the tables to `k` pages takes. -/
def editExtents (k : Nat) (l : List (PageTable × Nat)) : List Extent :=
  (l.filter fun x => decide (k < x.1.pages.length)).map fun x => ⟨x.1.rgn, 1, x.2, tableTiles k⟩

/-- Free everything a session holds (SESSION_CLOSE, expiry): blocks and tables are deferred, the park copy is freed. Tiles in a
quarantined region stay held until its next bring-up (R312). -/
def freeSession (p : Part) (x : Session) (s : State) : State :=
  let f := fun (a : Alloc) =>
    if a.owner = .session x.handle ∨ (a.owner = .park x.handle ∧ s.quarantined (Fin.ofNat 16 a.ext.rgn)) then
      { a with owner := .deferred x.handle x.edits } else a
  returnDeferred p (dropAllocs p (fun a => a.owner == .park x.handle) (s.modPart p fun q => { q with allocs := q.allocs.map f }))

/-- Add a handle to the expired list of 4,096, the oldest dropped first (R293). -/
def addExpired (h : BitVec 32) (l : List (BitVec 32)) : List (BitVec 32) :=
  List.drop (l.length + 1 - 4096) (l ++ [h])

/-- A parked session expires or is evicted (R241, R187). -/
def expireSession (p : Part) (x : Session) (s : State) : State :=
  let s1 := freeSession p x s
  showSessions p (s1.modPart p fun q => { q with
    sessions := q.sessions.filter fun y => y.handle != x.handle, expired := addExpired x.handle q.expired })

/-- Remaining time to live of a parked session in ticks. -/
def ttlLeft (s : State) (x : Session) : Nat :=
  match x.ttlFrom with
  | none => x.ttl
  | some t => x.ttl - (s.now - t)

/-- TTL_EXPIRY (R241): a resume accepted first has stopped the clock. -/
def ttlExpires (p : Part) (h : BitVec 32) (s : State) : State :=
  match (s.part p).sessions.find? fun x => x.handle == h with
  | none => s
  | some x => if x.st = .parked ∧ x.ttlFrom.isSome ∧ ttlLeft s x = 0 then expireSession p x s else s

def execTtlExpiry (p : Part) (h : BitVec 32) (s : State) : Host.Outcome State Fault Refusal := live s (ttlExpires p h)

/-! ### SESSION_OPEN (R296, R309, R324) -/

/-- The loaded version of an adapter that new commands bind to (R276). -/
def loadedAdapter (s : State) (p : Part) (base id : Nat) : Option Adapter :=
  (s.part p).adapters.find? fun a => a.base.toNat == base && a.id.toNat == id && !a.dropped

def handleFree (s : State) (p : Part) (h : BitVec 32) : Bool :=
  h != 0 && !((s.part p).sessions.any fun x => x.handle == h) && !((s.part p).expired.contains h)

def openCheck (c : Cmd) (s : State) : Fail :=
  let p := cmdPart c
  let id := c.p8 0x10
  let ad := c.p8 0x18
  firstFail [reserved c [(0x10, 8), (0x18, 8)],
    match activeVer s p id with
    | none => none
    | some v => quarantineFail s v.targets,
    if (activeVer s p id).isNone then some (ST_NO_PACKAGE, 0) else none,
    if ad ≠ 0 ∧ (loadedAdapter s p id ad).isNone then some (ST_NO_PACKAGE, 0) else none]

/-- One empty page table for each layer group the choice names in the version's regions (R227, R228). -/
def openTables (gs : List GroupChoice) : List PageTable :=
  (List.range gs.length).filterMap fun i => (gs[i]?).map fun g =>
    ⟨g.rgn.val, ((gs.take i).filter fun x => x.rgn == g.rgn).length, 0, 0, g.pb, [], g.rows.head?.elim 0 RowChoice.table⟩

/-- Are the tables those of the version's layer groups, in order (R227)? -/
def groupsFit (v : Option Version) (tabs : List PageTable) : Bool :=
  match v with
  | none => false
  | some v => tabs.map (fun t => (t.rgn, t.pb)) == v.groups

def openAct (ch : Choice) (c : Cmd) (s : State) : State :=
  let p := cmdPart c
  let tabs := openTables ch.groups
  let exts := tabs.map fun t => (⟨t.rgn, 1, t.tableTile, 1⟩ : Extent)
  if handleFree s p ch.handle ∧ groupsFit (activeVer s p (c.p8 0x10)) tabs then
    if ¬ quotaOk s p 1 exts.length then reject c.id ST_QUOTA 1 s
    else if 262144 ≤ (s.part p).sessions.length then reject c.id ST_ADMIT_MEMORY 0 s
    else if ¬ (exts.all (isFree s) ∧ disjoint exts) then notPlaced c.id exts s
    else
      let x : Session := ⟨ch.handle, BitVec.ofNat 16 c.client, BitVec.ofNat 64 (c.p8 0x10), BitVec.ofNat 64 (c.p8 0x18),
        0, 0, .opened, 0, 0, none, tabs, 0, [], false⟩
      let s1 := acceptAs c.id (fun d => { d with span := (activeVer s p (c.p8 0x10)).elim [] Version.targets }) s
      let s2 := addAllocs p (exts.map fun e => ⟨e, .session ch.handle⟩) s1
      let s3 := tabs.foldl (fun t u => t.store (nearAddr u.rgn (4096 * u.tableTile)) (tableBytes [])) s2
      let s4 := s3.modPart p fun q => { q with sessions := q.sessions ++ [x] }
      commitAs c.id ST_OK ch.handle.toNat [] (showSessions p s4)
  else s

def execSessionOpen (r : Ring) (ch : Choice) (s : State) : Host.Outcome State Fault Refusal :=
  live s (process 0x20 r (quiet openCheck) (openAct ch))

/-! ### SESSION_ACCEPT (R235) -/

def acceptCheck (c : Cmd) (s : State) : Fail :=
  firstFail [reserved c [(0x10, 4), (0x14, 4)], quarantineFail s (sessionRgnsOf s c (c.p4 0x10)),
    sessionFail s c (c.p4 0x10) 0 [.opened],
    match sessionOf s (cmdPart c) (c.p4 0x10) with
    | none => none
    | some x => param 0x14 (decide (x.len ≤ c.p4 0x14) && decide (c.p4 0x14 ≤ x.wlen))]

def acceptAct (ch : Choice) (c : Cmd) (s : State) : State :=
  let p := cmdPart c
  match sessionOf s p (c.p4 0x10) with
  | none => s
  | some x =>
    let l := c.p4 0x14
    let tabs := tilesFor x ch
    let exts := editExtents (pagesOf l) tabs
    if ¬ (exts.all (isFree s) ∧ disjoint exts) then notPlaced c.id exts s
    else
      let s1 := acceptAs c.id (fun d => { d with span := sessionRgns x, rows := [(x.handle, 0, x.edits + tabs.length)] }) s
      let s2 := modSession p x.handle (fun y => { y with len := l, wlen := l }) s1
      commitAs c.id ST_OK 0 (leBytes 4 l) (shrinkTables p x.handle (pagesOf l) tabs s2)

def execSessionAccept (r : Ring) (ch : Choice) (s : State) : Host.Outcome State Fault Refusal :=
  live s (process 0x23 r (quiet acceptCheck) (acceptAct ch))

/-! ### SESSION_CLOSE (R296, R312) -/

def closeCheck (c : Cmd) (s : State) : Fail :=
  firstFail [reserved c [(0x10, 4)], sessionFail s c (c.p4 0x10) 0 [.opened, .parked]]

def closeAct (c : Cmd) (s : State) : State :=
  let p := cmdPart c
  match sessionOf s p (c.p4 0x10) with
  | none => s
  | some x =>
    let s1 := acceptAs c.id (fun d => { d with span := sessionRgns x }) s
    let s2 := (freeSession p x s1).modPart p fun q => { q with sessions := q.sessions.filter fun y => y.handle != x.handle }
    commitAs c.id ST_OK 0 [] (showSessions p s2)

def execSessionClose (r : Ring) (_ : Choice) (s : State) : Host.Outcome State Fault Refusal :=
  live s (process 0x26 r (quiet closeCheck) closeAct)

/-! ### PAGE_BLOCK_RELOCATION (R237, R234) -/

/-- Firmware moves one immutable page block: its bytes are copied to free tiles and an edit points at them. -/
def relocateBlock (p : Part) (h : BitVec 32) (grp page dst table : Nat) (s : State) : State :=
  match (s.part p).sessions.find? fun x => x.handle == h with
  | none => s
  | some x =>
    match x.tables[grp]? with
    | none => s
    | some t =>
      match t.pages[page]? with
      | none => s
      | some old =>
        let ok := decide (16 * page + 16 ≤ x.len) && isFree s ⟨t.rgn, 1, dst, t.pb⟩ &&
          isFree s ⟨t.rgn, 1, table, tableTiles t.pages.length⟩ && !overlap ⟨t.rgn, 1, dst, t.pb⟩
            ⟨t.rgn, 1, table, tableTiles t.pages.length⟩ && decide (x.st = .opened)
        if ok then
          let s1 := copyTiles none t.rgn 1 old t.rgn 1 dst t.pb s
          let s2 := addAllocs p [⟨⟨t.rgn, 1, dst, t.pb⟩, .session h⟩] s1
          editTable p h t.rgn t.grp (t.pages.set page dst) table s2
        else s

def execPageBlockRelocation (p : Part) (h : BitVec 32) (grp page dst table : Nat) (s : State) :
    Host.Outcome State Fault Refusal :=
  live s (relocateBlock p h grp page dst table)

end Sys2Proof.Machine
end

