-- ==== Sys2Proof/Machine/Predict.lean ====
section
/-!
DEFINITION. The dispatch order, the predicted run time and the deadline test (R315 to R318, R321 to R323).
-/

namespace Sys2Proof.Machine

/-! ### Bound versions and their plans (R259, R270) -/

/-- A plan-free command that runs through the tile mover (R313). -/
def isFreeOp (op : Nat) : Bool := op == 0x10 || op == 0x13 || op == 0x24 || op == 0x25 || op == 0x42

def boundVersion (s : State) (c : Cmd) : Option Version :=
  match c.part, c.pkg with
  | some p, some b => versionOf s p b.1.toNat b.2.toNat
  | _, _ => none

/-! ### Ranks and order (Table 12.2, R316) -/

def ring0 (c : Cmd) : Bool := match c.ring with | .part _ k => k == 0 | .mgmt => false

def rank (c : Cmd) : Nat := (if ring0 c then 1 else 3) + bit (c.opcode != 0x22)

/-- The absolute deadline. -/
def dueAt (c : Cmd) : Nat := c.tick + c.deadline

/-- Does `a` come before `b` in the order of R316? -/
def before (a b : Cmd) : Bool :=
  if rank a ≠ rank b then decide (rank a < rank b)
  else if rank a ≤ 2 ∧ dueAt a ≠ dueAt b then decide (dueAt a < dueAt b)
  else decide (a.seq < b.seq)

/-- Accepted plan commands of a partition that wait to start or to run again. -/
def waitingRuns (s : State) (p : Part) : List Cmd :=
  s.cmds.filter fun c => isRunOp c.opcode && c.part == some p && (c.phase == .accepted || c.phase == .rerun)

/-! ### Predicted time (R322) -/

def costOf (s : State) (p : Part) (pkg : Word) (ver : BitVec 32) (row n : Nat) : Option Cost :=
  (s.part p).costs.find? fun c => c.pkg == pkg && c.ver == ver && c.row == row && c.rgn == n

/-- The largest of the runs kept, as a fraction. -/
def maxRun : List (Nat × Nat) → Option (Nat × Nat)
  | [] => none
  | r :: rs =>
    match maxRun rs with
    | none => some r
    | some q => if q.1 * r.2 < r.1 * q.2 then some r else some q

/-- Nearest whole number, halves up. -/
def roundDiv (a b : Nat) : Nat := (2 * a + b) / (2 * b)

/-- The iterations that a command's plans visit, region by region: firmware counts them from the plan images at acceptance. -/
def itersFor (s : State) (v : Version) (shapes : List (BitVec 32)) (row : Nat) : List (Nat × Option Nat) :=
  v.targets.map fun n =>
    let b := planBase v n
    (n, countIters s n b shapes countFuel (startEntry s n b row) [0, 0, 0, 0] [])

/-- N of a command in a region. -/
def itersOf (c : Cmd) (n : Nat) : Option Nat := (c.iters.find? fun x => x.1 == n).bind Prod.snd

/-- T of a command in one region. -/
def predictIn (s : State) (c : Cmd) (n : Rgn) : Option Nat :=
  match c.part, c.pkg, itersOf c n.val with
  | some p, some b, some k =>
    match (costOf s p b.1 b.2 c.startRow n.val).bind fun x => maxRun x.runs with
    | none => none
    | some r =>
      let rate := s.fld (Reg.RGN_RATE n) Reg.RGN_RATE_STEPS
      if rate = 0 ∨ r.2 = 0 then none
      else
        let t := roundDiv (r.1 * k * 1000) (r.2 * rate)
        match (s.part p).lead with
        | none => none
        | some l => some (roundDiv (t * (100 + s.fld (Reg.SRV_CFG l) Reg.SRV_CFG_MARGIN)) 100)
  | _, _, _ => none

def maxOpt : List (Option Nat) → Option Nat
  | [] => some 0
  | none :: _ => none
  | some a :: l => (maxOpt l).map (Nat.max a)

def sumOpt : List (Option Nat) → Option Nat
  | [] => some 0
  | none :: _ => none
  | some a :: l => (sumOpt l).map (a + ·)

/-- T of a command: the largest over the regions of its span that run a plan. -/
def predict (s : State) (c : Cmd) : Option Nat :=
  maxOpt (c.iters.map fun x => if h : x.1 < 16 then predictIn s c ⟨x.1, h⟩ else none)

/-- What is left of a running command's prediction. -/
def remaining (s : State) (c : Cmd) : Option Nat := (predict s c).map fun t => t - (s.now - c.planStart)

/-! ### Pre-emption (R318, R319, R321) -/

def srvCfg (s : State) (p : Part) (f : Fld) : Nat :=
  match (s.part p).lead with
  | none => 0
  | some n => s.fld (Reg.SRV_CFG n) f

/-- Would R318 kill the running command `r` for the waiting command `w`? One that uses a window to another chip is not killed
(R356). -/
def wouldKill (s : State) (p : Part) (w r : Cmd) : Bool :=
  let mode := srvCfg s p Reg.SRV_CFG_PREEMPT
  decide (rank w ≤ 2) && decide (3 ≤ rank r) && isRunOp r.opcode && mode != 0 && !r.remote &&
  decide (r.kills < srvCfg s p Reg.SRV_CFG_MAX_KILLS) &&
  (mode == 2 ||
    match remaining s r with
    | none => true
    | some t => decide (dueAt w < t + s.now + (predict s w).getD 0))

/-! ### The deadline test (R323) -/

/-- The predicted wait of a command in one region. -/
def waitIn (s : State) (p : Part) (c : Cmd) (n : Nat) : Option Nat :=
  let running := (s.cmds.filter fun d => isRunOp d.opcode && d.phase == .running && d.span.contains n &&
    !wouldKill s p c d).map (remaining s)
  let ahead := ((waitingRuns s p).filter fun d => d.id != c.id && d.span.contains n && before d c).map (predict s)
  sumOpt (running ++ ahead)

/-- Does the time test of R323 pass? -/
def timeOk (s : State) (p : Part) (c : Cmd) : Bool :=
  if c.deadline = 0 ∨ srvCfg s p Reg.SRV_CFG_ADMIT_TIME = 0 then true
  else
    match maxOpt (c.span.map (waitIn s p c)), predict s c with
    | some w, some t => decide (w + t ≤ c.deadline)
    | _, _ => true

end Sys2Proof.Machine
end

