-- ==== Sys2Proof/Machine/Runs.lean ====
section
/-!
DEFINITION. Accepting the commands that run a plan: SESSION_PREFILL, SESSION_DECODE and JOB_RUN (R290 to R292, R135,
R185, R229 to R231, R236, R275, R314): the run argument block, its checks, and what acceptance reserves and loads.
-/

namespace Sys2Proof.Machine

/-! ### The run argument block (Table 11.2) -/

def argShape (b : List Byte) (i : Nat) : Nat := leAt b (4 * i) 4
def argAdapter (b : List Byte) : Nat := leAt b 0x20 8
def argRows (b : List Byte) : Nat := leAt b 0x28 1
def argHandle (b : List Byte) (i : Nat) : Nat := leAt b (0x80 + 16 * i) 4
def argNew (b : List Byte) (i : Nat) : Nat := leAt b (0x84 + 16 * i) 4

/-- An I/O window. -/
structure IoWin where
  off : Nat
  limit : Nat
  tier : Nat
  rgn : Nat
  deriving DecidableEq, Repr

def argWin (b : List Byte) (j : Nat) : IoWin :=
  ⟨leAt b (0x30 + 16 * j) 8, leAt b (0x38 + 16 * j) 4, leAt b (0x3C + 16 * j) 1, leAt b (0x3D + 16 * j) 1⟩

def ioWins (b : List Byte) : List IoWin := (List.range 4).map (argWin b)

def argShapes (b : List Byte) : List (BitVec 32) := (List.range 8).map fun i => BitVec.ofNat 32 (argShape b i)

/-- The block's bytes that are reserved (offset, size). -/
def argReserved : List (Nat × Nat) := [(0x29, 7), (0x70, 16), (0x480, 2944)]

/-- The first non-zero byte of a range. -/
def nonZeroIn (b : List Byte) (r : Nat × Nat) : Option Nat :=
  ((List.range r.2).map (· + r.1)).find? fun i => leAt b i 1 != 0

/-- Tiles that a partition holds in a region and tier: allocated to it, or borrowed lots (R291). -/
def holdsTiles (s : State) (p : Part) (rgn tier first : Nat) : Nat → Bool
  | 0 => true
  | k + 1 =>
    (if tier = 4 then s.borrows.any (fun b => b.rgn == rgn && b.part == p && b.lot == first / 2 ^ 18)
     else covered ⟨rgn, tier, first, 1⟩ ((s.part p).allocs.map Alloc.ext)) && holdsTiles s p rgn tier (first + 1) k

def winFail (s : State) (c : Cmd) (b : List Byte) (j : Nat) : Fail :=
  let w := argWin b j
  let o := 0x130 + 16 * j
  if w.limit = 0 then param (o + 14) (leAt b (0x3E + 16 * j) 2 == 0)
  else firstFail [param o (w.off % 4096 == 0), param (o + 12) (w.tier == 1 || w.tier == 2 || w.tier == 4),
    param (o + 13) (inPart s c w.rgn), param (o + 14) (leAt b (0x3E + 16 * j) 2 == 0),
    param o (holdsTiles s (cmdPart c) w.rgn w.tier (w.off / 4096) w.limit)]

def rowsOk (c : Cmd) (b : List Byte) : Bool :=
  let k := argRows b
  if c.opcode = 0x22 then decide (1 ≤ k) && decide (k ≤ 64)
  else if c.opcode = 0x21 then k == 1
  else k == 0

/-- Check 3 on the block (R290, R291): DETAIL is the block's offset plus 0x100. -/
def argFail (s : State) (c : Cmd) (b : List Byte) : Fail :=
  firstFail ([param 0x120 (c.opcode == 0x30 || argAdapter b == 0), param 0x128 (rowsOk c b)] ++
    ((argReserved.take 1).map fun r => (nonZeroIn b r).map fun i => (ST_BAD_PARAM, i + 0x100)) ++
    (List.range 4).map (winFail s c b) ++
    (((argReserved.drop 1).take 1).map fun r => (nonZeroIn b r).map fun i => (ST_BAD_PARAM, i + 0x100)) ++
    (List.range (argRows b)).map (fun i => param (0x184 + 16 * i) (c.opcode != 0x21 || decide (argNew b i ≤ 512))) ++
    ((argReserved.drop 2).map fun r => (nonZeroIn b r).map fun i => (ST_BAD_PARAM, i + 0x100)))

/-! ### Variants that fit (R47, R48, R264) -/

/-- Granule numbers that a cell's fused or field map retires (R47, R48). -/
def retired (s : State) (n c : Nat) : List Nat :=
  let k := n * 576 + c
  ([Config.fusedGranule k false, Config.fusedGranule k true].filter fun g => decide (g < 96)) ++ (s.cell n c).field

def blockState (s : State) (n : Rgn) (b : Nat) : Nat := s.fld (Reg.RGN_BLOCK_STATE n) ⟨2 * b, 2, .ro, 0⟩

/-- Does a variant use any granule of block `b`? -/
def usesBlock (rec : List Byte) (b : Nat) : Bool :=
  (List.range 64).any fun i => leAt rec (0x40 + 12 * (64 * b + i)) 12 != 0

/-- Does variant record `rec` serve position `pos` and fit region `n`? A block that is fenced under R50 shows as failed (Table 2.10); one
that is gated while its region is idle is switched on again before the next plan (R384). -/
def variantFits (s : State) (rec : List Byte) (pos n : Nat) : Bool :=
  let r : Rgn := Fin.ofNat 16 n
  let bad := (List.range 9).filter fun b => blockState s r b == 3
  !rec.isEmpty && (leAt rec 2 2).testBit pos &&
  (List.range 576).all (fun c => (retired s n c).all fun g => !(leAt rec (0x40 + 12 * c) 12).testBit g) &&
  bad.all (fun b => !usesBlock rec b && leAt rec 4 1 == b)

/-- The lowest-numbered variant that serves a position and fits. -/
def selectVariant (s : State) (recs : List (List Byte)) (pos n : Nat) : Option Nat :=
  (List.range recs.length).find? fun v => variantFits s (recs.getD v []) pos n

/-! ### Binding -/

/-- The package and adapter a run command names: its own, or its first session's. -/
def namedPkg (s : State) (c : Cmd) (b : List Byte) : Nat × Nat :=
  if c.opcode = 0x30 then (c.p8 0x20, argAdapter b)
  else match sessionOf s (cmdPart c) (argHandle b 0) with
    | some x => (x.pkg.toNat, x.adapter.toNat)
    | none => (0, 0)

def runVersion (s : State) (c : Cmd) (b : List Byte) : Option Version := activeVer s (cmdPart c) (namedPkg s c b).1

/-- The span: the version's regions and those that hold the sessions' caches (R300, R312). -/
def runSpan (s : State) (c : Cmd) (b : List Byte) : List Nat :=
  (((runVersion s c b).map Version.targets).getD [] ++
    (List.range (argRows b)).flatMap fun i => sessionRgnsOf s c (argHandle b i)).eraseDups

/-! ### Checks 3 to 7 -/

/-- START_ROW below STARTS in every region (Table 11.5). -/
def startOk (s : State) (c : Cmd) (b : List Byte) : Bool :=
  decide (c.p1 0x18 < 16) &&
  match runVersion s c b with
  | none => true
  | some v => v.targets.all fun n => decide (c.p1 0x18 < planStarts s n (planBase v n))

/-- A session row: named before, of another package or adapter than row 0's, or failing check 5 by itself. -/
def rowFail (s : State) (c : Cmd) (b : List Byte) (i : Nat) : Fail :=
  let h := argHandle b i
  if (List.range i).any fun j => argHandle b j == h then some (ST_BAD_PARAM, i)
  else
    firstFail [sessionFail s c h i [.opened],
      match sessionOf s (cmdPart c) h with
      | none => none
      | some x => if (x.pkg.toNat, x.adapter.toNat) = namedPkg s c b then none else some (ST_BAD_PARAM, i)]

/-- Does the variant selected in every target still fit its region (R49, R51)? -/
def versionFits (s : State) (v : Version) : Bool :=
  v.targets.all fun n => variantFits s (v.records.getD (variantAt v (posOf v n)) []) (posOf v n) n

/-- May the version serve a new command: it fits, or a variant of it does, which firmware then selects (R265). -/
def versionServes (s : State) (v : Version) : Bool :=
  v.targets.all fun n => (selectVariant s v.records (posOf v n) n).isSome

def pkgFail (s : State) (c : Cmd) (b : List Byte) : Fail :=
  let a := (namedPkg s c b).2
  if (runVersion s c b).isNone ∨ (runVersion s c b).any (fun v => !versionServes s v) ∨ (a ≠ 0 ∧ (loadedAdapter s (cmdPart c) (namedPkg s c b).1 a).isNone) then
    some (ST_NO_PACKAGE, 0)
  else none

/-- Positions that would reach 65,536 (R229). -/
def seqFail (s : State) (c : Cmd) (b : List Byte) (i : Nat) : Fail :=
  match sessionOf s (cmdPart c) (argHandle b i) with
  | none => none
  | some x => if 65536 < x.len + argNew b i then some (ST_SEQ_LIMIT, i) else none

/-- Is shape register `i` used by the command's start row in some region? -/
def shapeUsed (s : State) (v : Version) (row i : Nat) : Bool :=
  v.targets.any fun n => (startUsed s n (planBase v n) row).testBit i

def shapeOver (s : State) (v : Version) (row : Nat) (b : List Byte) (i : Nat) : Bool :=
  v.targets.any fun n =>
    (startUsed s n (planBase v n) row).testBit i && decide (startMax s n (planBase v n) row i < argShape b i)

def shapeFail (s : State) (c : Cmd) (b : List Byte) : Fail :=
  match runVersion s c b with
  | none => none
  | some v => ((List.range 8).find? (shapeOver s v (c.p1 0x18) b)).map fun i => (ST_SHAPE_EXCEEDS_PLAN, i)

/-- Does a used shape register hold 0 (R135)? -/
def emptyShape (s : State) (c : Cmd) (b : List Byte) : Bool :=
  match runVersion s c b with
  | none => false
  | some v => (List.range 8).any fun i => shapeUsed s v (c.p1 0x18) i && argShape b i == 0

def packetFail (s : State) (c : Cmd) : Fail :=
  firstFail [reserved c ([(0x10, 8), (0x18, 1), (0x19, 1)] ++ if c.opcode = 0x30 then [(0x20, 8)] else []),
    param 0x10 (bufOk c none (c.p8 0x10) 1 s), param 0x18 (decide (c.p1 0x18 < 16)),
    param 0x19 (decide (c.p1 0x19 ≤ bit (c.opcode == 0x22)))]

def blockFail (s : State) (c : Cmd) (b : List Byte) : Fail :=
  firstFail ([argFail s c b, param 0x18 (startOk s c b),
    quarantineFail s (runSpan s c b ++ ((ioWins b).filter fun w => w.limit != 0).map IoWin.rgn)] ++
    (List.range (argRows b)).map (rowFail s c b) ++ [pkgFail s c b] ++
    (List.range (argRows b)).map (seqFail s c b) ++ [shapeFail s c b])

/-- The argument block, read once: the command keeps it from then on (R290; log entry 147). -/
def readArgs (out : ReadOutcome) (c : Cmd) (s : State) : State × BufRead :=
  if c.work.isEmpty then
    let r := readBuf out c none (c.p8 0x10) 1 s
    match r.2 with
    | .bytes b => (r.1.modCmd c.id fun d => { d with work := b }, .bytes b)
    | _ => r
  else (s, .bytes c.work)

/-- An entry that passes its checks is held while a fold channel that its plans use is not READY (R216, R286; log entry
147). -/
def runCheck (out : ReadOutcome) (c : Cmd) (s : State) : State × Verdict :=
  match packetFail s c with
  | some f => (s, .reject f.1 f.2)
  | none =>
    let r := readArgs out c s
    match r.2 with
    | .waiting => (r.1, .wait)
    | .failed st => (r.1, .reject st 0x10)
    | .bytes b =>
      match blockFail r.1 c b with
      | some f => (r.1, .reject f.1 f.2)
      | none => if holdReason r.1 { c with work := b } = 0 then (r.1, .accept) else (showHold c.ring r.1, .wait)

/-! ### Page blocks (R185, R236, R237) -/

/-- One table's growth: the session, its table, the new table tile and the new page blocks. -/
structure Growth where
  h : BitVec 32
  tab : PageTable
  tile : Nat
  blocks : List Nat
  deriving DecidableEq, Repr

/-- The choice made for one session row, table by table; none when it does not fit the need. -/
def growRow (ch : Choice) (i : Nat) (x : Session) (new : Nat) : Option (List Growth) :=
  (List.range x.tables.length).foldr (fun j acc =>
    match acc, x.tables[j]?, ch.groups[j]? with
    | some l, some t, some g =>
      let r := g.rows.getD i ⟨0, []⟩
      if g.rgn.val = t.rgn ∧ r.blocks.length = pagesOf (x.len + new) - t.pages.length then
        some (⟨x.handle, t, r.table, r.blocks⟩ :: l)
      else none
    | _, _, _ => none) (some [])

def growAll (s : State) (ch : Choice) (c : Cmd) (b : List Byte) : Nat → Option (List Growth)
  | 0 => some []
  | k + 1 =>
    match growAll s ch c b k, sessionOf s (cmdPart c) (argHandle b k) with
    | some l, some x => (growRow ch k x (argNew b k)).map (l ++ ·)
    | _, _ => none

/-- Extents that a growth takes: none when the table needs no new page. -/
def growExtents (g : Growth) : List Extent :=
  if g.blocks.isEmpty then []
  else ⟨g.tab.rgn, 1, g.tile, tableTiles (g.tab.pages.length + g.blocks.length)⟩ ::
    g.blocks.map fun t => ⟨g.tab.rgn, 1, t, g.tab.pb⟩

/-- New page blocks are zero where a page does not use them (R226); the model zeroes them whole (log entry 18). -/
def zeroTiles (n tier first : Nat) : Nat → State → State
  | 0, s => s
  | k + 1, s => zeroTiles n tier (first + 1) k (writeTile none n tier first [] s)

def applyGrowth (p : Part) (g : Growth) (s : State) : State :=
  if g.blocks.isEmpty then s
  else
    let s1 := addAllocs p (g.blocks.map fun t => ⟨⟨g.tab.rgn, 1, t, g.tab.pb⟩, .session g.h⟩) s
    let s2 := g.blocks.foldl (fun t b => zeroTiles g.tab.rgn 1 b g.tab.pb t) s1
    editTable p g.h g.tab.rgn g.tab.grp (g.tab.pages ++ g.blocks) g.tile s2

def applyGrowths (p : Part) : List Growth → State → State
  | [], s => s
  | g :: gs, s => applyGrowths p gs (applyGrowth p g s)

/-! ### What acceptance loads (R231, R244, R275, R291) -/

/-- Load a tile-mover window. -/
def setWinOf (n : Rgn) (j chip base tier rgn : Nat) (p : Part) (limit : Nat) (s : State) : State :=
  let hi := Reg.TM_WIN_HI_CHIP.put 0 chip
  let hi := Reg.TM_WIN_HI_REGION.put hi rgn
  let hi := Reg.TM_WIN_HI_TIER.put hi tier
  let hi := Reg.TM_WIN_HI_PARTITION.put hi p.val
  let hi := Reg.TM_WIN_HI_VALID.put hi 1
  (s.setReg (Reg.TM_WIN_LO n j) (BitVec.ofNat 64 base)).setReg (Reg.TM_WIN_HI n j) (Reg.TM_WIN_HI_LIMIT.put hi limit)

def setWin (n : Rgn) (j base tier rgn : Nat) (p : Part) (limit : Nat) (s : State) : State :=
  setWinOf n j (s.fld Reg.FAB_CHIP_ID Reg.FAB_CHIP_ID_ID) base tier rgn p limit s

/-- The windows of a version that reach another chip from one region (R356): none for a model of one chip. -/
def chipWins (v : Version) (n : Nat) : List (Nat × Nat × Nat × Nat × Nat) :=
  if leAt v.manifest 0x1A 2 = 0 then []
  else (List.range 8).filterMap fun j =>
    (Config.ioWindow (slice v.manifest 0x70 48) (leAt v.manifest 0x1C 2) (posOf v n) j).map fun w => (j, w)

/-- Load them from their circuits' entries (R355, R356). -/
def loadChipWins (n : Rgn) (p : Part) : List (Nat × Nat × Nat × Nat × Nat) → State → State
  | [], s => s
  | (j, c, tier, base, limit) :: l, s =>
    loadChipWins n p l (setWinOf n j (s.fld (Reg.FAB_CIRC n c) Reg.FAB_CIRC_PEER_CHIP) base tier n.val p limit s)

/-- The I/O windows, in every region of the span (R291). -/
def loadIo (n : Rgn) (p : Part) (b : List Byte) : List Nat → State → State
  | [], s => s
  | j :: js, s =>
    let w := argWin b j
    loadIo n p b js (if w.limit = 0 then s else setWin n (8 + j) w.off w.tier w.rgn p w.limit s)

/-- A walk-list row (Table 8.2). -/
def walkRow (t : PageTable) (x : Session) (new : Nat) : List Byte :=
  leBytes 4 t.tableTile ++ leBytes 4 t.gen.toNat ++ leBytes 4 (x.len + new) ++ leBytes 4 x.len ++
  leBytes 2 t.pages.length ++ leBytes 2 0 ++ leBytes 4 x.handle.toNat ++ List.replicate 40 0

/-- The walk list of table index `j`: one row a session. -/
def walkList (s : State) (c : Cmd) (b : List Byte) (j : Nat) : List Byte :=
  (List.range (argRows b)).flatMap fun i =>
    match sessionOf s (cmdPart c) (argHandle b i) with
    | none => List.replicate 64 0
    | some x => match x.tables[j]? with
      | none => List.replicate 64 0
      | some t => walkRow t x (argNew b i)

/-- The commands that walk a cache. -/
def isWalkOp (op : Nat) : Bool := op == 0x21 || op == 0x22

/-- The near tiles of a region that hold the walk lists of the unretired commands other than `c`. -/
def listsUsed (s : State) (c : Cmd) : List (Nat × Nat) :=
  (s.cmds.filter fun d => d.unretired && d.id != c.id && isWalkOp d.opcode).flatMap fun d => d.ch.groups.map fun g => (g.rgn.val, g.list)

/-- The walk lists' tiles: in firmware's reserved near space, and each window's its own (R160, R231). -/
def listsFit (s : State) (c : Cmd) (gs : List GroupChoice) : Bool :=
  let l := gs.map fun g => (g.rgn.val, g.list)
  !isWalkOp c.opcode || (l.all (fun x => decide (6144 ≤ x.2) && decide (x.2 < 8192) && !(listsUsed s c).contains x) && l.eraseDups == l)

/-- The walk lists are written at acceptance (R231). -/
def writeLists (c : Cmd) (b : List Byte) (x : Session) : List Nat → State → State
  | [], s => s
  | j :: js, s =>
    match x.tables[j]?, c.ch.groups[j]? with
    | some t, some g => writeLists c b x js (s.store (nearAddr t.rgn (4096 * g.list)) (Config.fit 4096 (walkList s c b j)))
    | _, _ => writeLists c b x js s

/-- The walk windows of a command in the regions `ns`: the first group of a region takes window 12, the next 13. -/
def setWalks (c : Cmd) (b : List Byte) (x : Session) (ns : List Nat) : List Nat → State → State
  | [], s => s
  | j :: js, s =>
    match x.tables[j]?, c.ch.groups[j]? with
    | some t, some g =>
      if ns.contains t.rgn then
        let cfg := Reg.KV_WALK_CFG_ROWS.put (Reg.KV_WALK_CFG_PB.put (Reg.KV_WALK_CFG_EN.put 0 1) (t.pb - 1)) (argRows b)
        let s1 := (s.setReg (Reg.KV_WALK_CFG g.rgn t.grp) cfg).setReg (Reg.KV_WALK_LIST g.rgn t.grp) (BitVec.ofNat 64 g.list)
        setWalks c b x ns js (setWin g.rgn (12 + t.grp) 0 1 t.rgn (cmdPart c) 0 s1)
      else setWalks c b x ns js s
    | _, _ => setWalks c b x ns js s

/-- Set the walk windows of a run command's first session, whose tables are those of every row. -/
def loadWalk (c : Cmd) (b : List Byte) (ns : List Nat) (s : State) : State :=
  match sessionOf s (cmdPart c) (argHandle b 0) with
  | some x => if isWalkOp c.opcode then setWalks c b x ns (List.range x.tables.length) s else s
  | none => s

/-- Route jobs of a list: its records, less the section's padding with zeros (log entry 74). -/
def jobCount (b : List Byte) : Nat → Nat
  | 0 => 0
  | k + 1 => let rest := jobCount (b.drop 64) k
    if 0 < rest then rest + 1 else bit !((b.take 64).all (· == 0))

/-- MOE_JOBS of a region: the selected variant's route jobs. -/
def loadJobs (v : Version) (n : Rgn) (s : State) : State :=
  match sectionIn v 4 n.val with
  | none => s.setReg (Reg.MOE_JOBS n) 0
  | some x =>
    let k := min 256 (jobCount (readTiles s none n.val 1 x.first x.tiles) (64 * x.tiles))
    s.setReg (Reg.MOE_JOBS n) (Reg.MOE_JOBS_COUNT.put (Reg.MOE_JOBS_TILE.put 0 x.first) k)

/-- The windows below 8 that reach a position's WEIGHTS: those that no other use takes (R259; log entry 73). -/
def weightWins (v : Version) (n : Nat) : List Nat :=
  (List.range 8).filter fun j => !((chipWins v n).any fun w => w.1 == j) && leAt v.manifest 0x17 1 != j

/-- Tiles from the base of a position's package space to the end of its WEIGHTS. -/
def weightLimit (v : Version) (n : Nat) : Nat :=
  let pos := posOf v n
  ((placedAt v pos).filter fun x => x.type == 3).foldl (fun k x => max k (x.first + x.tiles - v.bases.getD pos 0)) 0

def loadWeights (n : Rgn) (p : Part) (v : Version) : List Nat → State → State
  | [], s => s
  | j :: js, s => loadWeights n p v js (setWin n j (4096 * v.bases.getD (posOf v n.val) 0) 1 n.val p (weightLimit v n.val) s)

/-- The weight windows, MOE_JOBS and the adapter window of one region. -/
def loadPackage (c : Cmd) (v : Version) (slot : Option Adapter) (n : Rgn) (s : State) : State :=
  let s1 := loadJobs v n (loadWeights n (cmdPart c) v (weightWins v n.val) s)
  let w := leAt v.manifest 0x17 1
  if w = 0xFF then s1
  else
    let p := cmdPart c
    let place : Option (Nat × Nat) := match slot with
      | none => (sectionIn v 6 n.val).map fun (x : Placed) => (x.first, x.tiles)
      | some a => ((s.part p).allocs.find? fun (y : Alloc) =>
          y.owner == .adapter a.base a.id a.ver a.slot && y.ext.rgn == n.val).map fun (y : Alloc) => (y.ext.first, y.ext.tiles)
    match place with
    | none => s1
    | some t => setWin n w (4096 * t.1) 1 n.val p t.2 s1

def loadRegions (c : Cmd) (v : Version) (slot : Option Adapter) (b : List Byte) : List Nat → State → State
  | [], s => s
  | m :: ms, s =>
    let n : Rgn := Fin.ofNat 16 m
    let s1 := loadIo n (cmdPart c) b (List.range 4) s
    loadRegions c v slot b ms
      (if v.targets.contains m then loadPackage c v slot n (loadChipWins n (cmdPart c) (chipWins v m) s1) else s1)

/-! ### Acceptance -/

/-- The rows a command holds: handle, NEW_POS and the edits its snapshot has seen. -/
def heldRows (s : State) (c : Cmd) (b : List Byte) : List (BitVec 32 × Nat × Nat) :=
  (List.range (argRows b)).map fun i =>
    (BitVec.ofNat 32 (argHandle b i), argNew b i,
      ((sessionOf s (cmdPart c) (argHandle b i)).map Session.edits).getD 0)

/-- Session rows and L of row 0, as Table 11.4 gives them. -/
def runReply (s : State) (c : Cmd) (b : List Byte) : Nat × List Byte :=
  if c.opcode = 0x30 then (0, [])
  else (argRows b, leBytes 4 (((sessionOf s (cmdPart c) (argHandle b 0)).map Session.len).getD 0))

/-- A zero shape: the command commits at once and its record is its only effect (R135). -/
def acceptEmpty (c : Cmd) (b : List Byte) (s : State) : State :=
  let r := runReply s c b
  let s1 := acceptAs c.id id s
  match s1.cmd c.id with
  | none => s1
  | some d => finish { d with status := ST_OK_EMPTY, detail := r.1, result := r.2 } false s1

def acceptRun (c : Cmd) (v : Version) (b : List Byte) (ch : Choice) (gs : List Growth) (s : State) : State :=
  let p := cmdPart c
  let slot := loadedAdapter s p (namedPkg s c b).1 (namedPkg s c b).2
  let slot' := if (namedPkg s c b).2 = 0 then none else slot
  let span := runSpan s c b
  let s1 := applyGrowths p gs (acceptAs c.id (fun d => { d with
    span := span, pkg := some (v.pkg, v.ver), adapter := slot'.map fun a => (a.id, a.ver, a.slot), startRow := c.p1 0x18,
    shapes := argShapes b, argBlock := b, work := [], ch := ch, iters := itersFor s v (argShapes b) (c.p1 0x18), remote := v.targets.any fun n => !(chipWins v n).isEmpty }) s)
  let s2 := s1.modCmd c.id fun d => { d with rows := heldRows s1 c b }
  let d := { c with ch := ch }
  let s3 := match sessionOf s2 p (argHandle b 0) with
    | some x => if isWalkOp c.opcode then writeLists d b x (List.range x.tables.length) s2 else s2
    | none => s2
  showDeferred (loadWalk d b span (loadRegions c v slot' b span s3))

/-- The command as admission weighs it, before it is accepted. -/
def asAccepted (s : State) (c : Cmd) (v : Version) (b : List Byte) : Cmd :=
  { c with tick := s.now, seq := s.nextSeq, span := runSpan s c b, pkg := some (v.pkg, v.ver), startRow := c.p1 0x18,
           shapes := argShapes b, iters := itersFor s v (argShapes b) (c.p1 0x18) }

/-- Checks 8 and 9, and acceptance. -/
def runAct (ch : Choice) (c : Cmd) (s : State) : State :=
  match (s.cmd c.id).map Cmd.work with
  | none => s
  | some b =>
    match runVersion s c b with
    | none => s
    | some v =>
      if emptyShape s c b then acceptEmpty c b s
      else
        match growAll s ch c b (argRows b) with
        | none => s
        | some gs =>
          let exts := gs.flatMap growExtents
          if ¬ listsFit s c ch.groups then s
          else if ¬ quotaOk s (cmdPart c) 1 (tilesIn 1 exts) then reject c.id ST_QUOTA 1 s
          else if ¬ (exts.all (isFree s) ∧ disjoint exts) then notPlaced c.id exts s
          else if ¬ timeOk s (cmdPart c) (asAccepted s c v b) then reject c.id ST_ADMIT_DEADLINE 0 s
          else acceptRun c v b ch gs s

def execSessionPrefill (r : Ring) (ch : Choice) (s : State) : Host.Outcome State Fault Refusal :=
  live s (process 0x21 r (runCheck ch.herd) (runAct ch))

def execSessionDecode (r : Ring) (ch : Choice) (s : State) : Host.Outcome State Fault Refusal :=
  live s (process 0x22 r (runCheck ch.herd) (runAct ch))

def execJobRun (r : Ring) (ch : Choice) (s : State) : Host.Outcome State Fault Refusal :=
  live s (process 0x30 r (runCheck ch.herd) (runAct ch))

end Sys2Proof.Machine
end

