-- ==== Sys2Proof/Machine/TierCmds.lean ====
section
/-!
DEFINITION. Space and copies: TIER_ALLOC, TIER_FREE, TIER_COPY, QUOTA_SET, SESSION_PARK and SESSION_RESUME (R184 to R188,
R240 to R242, R296). The copying commands are accepted here, with the moves of their tiles and what their
commit does.
-/

namespace Sys2Proof.Machine

/-! ### TIER_ALLOC (R184, R296) -/

def allocCheck (c : Cmd) (s : State) : Fail :=
  let n := c.p1 0x11
  firstFail [reserved c [(0x10, 1), (0x11, 1), (0x14, 4)], param 0x10 (decide (1 ≤ c.p1 0x10) && decide (c.p1 0x10 ≤ 3)),
    param 0x11 (inPart s c n), param 0x14 (decide (1 ≤ c.p4 0x14)), quarantineFail s [n]]

/-- Firmware places the tiles in a contiguous free range; where there is none the command is rejected (R296). -/
def allocAct (ch : Choice) (c : Cmd) (s : State) : State :=
  let p := cmdPart c
  let e : Extent := ⟨c.p1 0x11, c.p1 0x10, ch.first, c.p4 0x14⟩
  if ¬ quotaOk s p e.tier e.tiles then reject c.id ST_QUOTA e.tier s
  else if ¬ isFree s e then
    notPlaced c.id [e] s
  else commitAs c.id ST_OK e.first [] (addAllocs p [⟨e, .alloc⟩] (acceptAs c.id (fun d => { d with span := [e.rgn] }) s))

def execTierAlloc (r : Ring) (ch : Choice) (s : State) : Host.Outcome State Fault Refusal :=
  live s (process 0x40 r (quiet allocCheck) (allocAct ch))

/-! ### TIER_FREE (R296) -/

def freeExtent (c : Cmd) : Extent := ⟨c.p1 0x11, c.p1 0x10, c.p4 0x18, c.p4 0x14⟩

/-- The near, herd or lent tiles of a command's I/O windows. -/
def windowExtents (c : Cmd) : List Extent :=
  if isRunOp c.opcode then
    ((ioWins c.argBlock).filter fun w => w.limit != 0).map fun w => ⟨w.rgn, w.tier, w.off / 4096, w.limit⟩
  else []

/-- Does an unretired command's I/O window lie in the extent? -/
def inWindows (s : State) (p : Part) (e : Extent) : Bool :=
  s.cmds.any fun c => c.unretired && c.part == some p && (windowExtents c).any (overlap e)

def freeCheck (c : Cmd) (s : State) : Fail :=
  let e := freeExtent c
  firstFail [reserved c [(0x10, 1), (0x11, 1), (0x14, 4), (0x18, 4)], param 0x10 (decide (1 ≤ e.tier) && decide (e.tier ≤ 3)),
    param 0x11 (inPart s c e.rgn), param 0x14 (decide (1 ≤ e.tiles)),
    param 0x18 (heldByAlloc s (cmdPart c) e.rgn e.tier e.first e.tiles), quarantineFail s [e.rgn]]

/-- The tiles go, unless they lie in an I/O window of an unretired command: then the command waits for it. -/
def freeAct (c : Cmd) (s : State) : State := acceptAs c.id (fun d => { d with span := [(freeExtent c).rgn] }) s

/-- The free itself, once no window holds the tiles. -/
def freeWork (c : Cmd) (s : State) : State :=
  let e := freeExtent c
  if inWindows s (cmdPart c) e then s
  else commitAs c.id ST_OK e.tiles [] (cutAllocs (cmdPart c) e (· == .alloc) s)

def execTierFree (r : Ring) (_ : Choice) (s : State) : Host.Outcome State Fault Refusal :=
  live s (process 0x41 r (quiet freeCheck) fun c s => freeWork c (freeAct c s))

/-! ### TIER_COPY (R167, R296) -/

def copyFromCompanion (c : Cmd) : Bool := (c.p1 0x13).testBit 1
def copyAllocs (c : Cmd) : Bool := (c.p1 0x13).testBit 0
def copySrc (c : Cmd) : Extent := ⟨c.p1 0x11, c.p1 0x10, c.p8 0x18, c.p4 0x28⟩
def copyDst (c : Cmd) : Extent := ⟨c.p1 0x11, c.p1 0x12, if copyAllocs c then c.ch.first else c.p8 0x20, c.p4 0x28⟩

def copyCheck (c : Cmd) (s : State) : Fail :=
  let n := c.p1 0x11
  let t := c.p4 0x28
  firstFail [reserved c [(0x10, 1), (0x11, 1), (0x12, 1), (0x13, 1), (0x18, 8), (0x20, 8), (0x28, 4)],
    param 0x10 (copyFromCompanion c || (decide (1 ≤ c.p1 0x10) && decide (c.p1 0x10 ≤ 4))), param 0x11 (inPart s c n),
    param 0x12 (decide (1 ≤ c.p1 0x12) && decide (c.p1 0x12 ≤ 4)),
    param 0x13 (decide (c.p1 0x13 < 4)), param 0x18 (!copyFromCompanion c || c.p8 0x18 % 4096 == 0),
    param 0x28 (decide (1 ≤ t)), quarantineFail s [n]]

def copyAct (ch : Choice) (c : Cmd) (s : State) : State :=
  let p := cmdPart c
  let d := copyDst { c with ch := ch }
  if copyAllocs c ∧ ¬ quotaOk s p d.tier d.tiles then reject c.id ST_QUOTA d.tier s
  else if copyAllocs c ∧ ¬ isFree s d then
    notPlaced c.id [d] s
  else acceptAs c.id (fun x => { x with
    span := [d.rgn], ch := ch, extents := if copyAllocs c then [d] else [],
    resv := if copyAllocs c then [(d.rgn, d.tier, d.tiles)] else [] }) s

def execTierCopy (r : Ring) (ch : Choice) (s : State) : Host.Outcome State Fault Refusal :=
  live s (process 0x42 r (quiet copyCheck) (copyAct ch))

/-- The tile mover's first failure is recorded until VALID is cleared (Table 6.11). -/
def tmError (n : Rgn) (desc tier win cause off : Nat) (s : State) : State :=
  let a := Reg.TM_ERR n
  if s.flag a Reg.TM_ERR_VALID then s
  else
    let v := Reg.TM_ERR_CAUSE.put (Reg.TM_ERR_WIN.put (Reg.TM_ERR_TIER.put (Reg.TM_ERR_DESC.put 0 desc) tier) win) cause
    (s.setReg a (Reg.TM_ERR_VALID.put v 1)).setReg (Reg.TM_ERR_ADDR n) (BitVec.ofNat 64 off)

/-- End a command on a tile-mover failure (R167, R179, R180): TM_ERR, the status, and the tile-mover source. -/
def tmFail (n : Rgn) (id desc tier win cause off status : Nat) (s : State) : State :=
  raiseWith status (rgnSrc n.val 30) false ⟨some id, 0, 0⟩
    (endCommand id status 0 (tmError n desc tier win cause off s))

/-- Bytes of companion memory that a running command still has to read arrive a tile at a time, in order. -/
def needTile (c : Cmd) (base : Nat) (window : Bool) (s : State) : State × Option (List Byte) :=
  readCompanion window (some c.id) (base + c.work.length) 64 s

/-- Take the next companion tile of a running command's source, and ask for the one after it. -/
def feedTile (c : Cmd) (base : Nat) (window : Bool) (total : Nat) (s : State) : State :=
  if total ≤ c.work.length then s
  else if linkLost s then s.modCmd c.id fun d => { d with rdErr := some ST_TIER_ERROR }
  else
    let r := needTile c base window s
    match r.2 with
    | none => r.1
    | some b =>
      let s1 := (dropLines (some c.id) (base + c.work.length) 4096 r.1).modCmd c.id fun d => { d with work := d.work ++ b }
      if c.work.length + 4096 < total then (needTile { c with work := c.work ++ b } base window s1).1 else s1

def writeTiles (p : Option Part) (n tier first : Nat) (b : List Byte) : Nat → State → State
  | 0, s => s
  | k + 1, s => writeTiles p n tier (first + 1) (b.drop 4096) k (writeTile p n tier first (b.take 4096) s)

/-! ### The tiles of a copy (R163, R240, R242, R296)

Firmware has the tile mover copy tile by tile: each is read at its controller and written at another. The command commits when every
one has been written. -/

/-- One tile of a copy: from a tile of a tier, or from bytes at hand, to a tile of a tier of the same region. -/
structure Move where
  rgn : Nat
  src : Option (Nat × Nat)
  data : List Byte
  dst : Nat × Nat
  deriving DecidableEq, Repr

def tileMoves (rgn tier first : Nat) (dst : Nat × Nat) (k : Nat) : List Move :=
  (List.range k).map fun j => ⟨rgn, some (tier, first + j), [], (dst.1, dst.2 + j)⟩
def dataMoves (rgn : Nat) (b : List Byte) (dst : Nat × Nat) (k : Nat) : List Move :=
  (List.range k).map fun j => ⟨rgn, none, slice b (4096 * j) 4096, (dst.1, dst.2 + j)⟩

/-- Tile `t` of a TIER_COPY; from companion memory, once it has come. -/
def copyMove (c : Cmd) (t : Nat) : Option Move :=
  let a := copySrc c
  let d := copyDst c
  if c.p4 0x28 ≤ t ∨ (copyFromCompanion c ∧ c.work.length < 4096 * (t + 1)) then none
  else if copyFromCompanion c then some ⟨d.rgn, none, slice c.work (4096 * t) 4096, (d.tier, d.first + t)⟩
  else some ⟨d.rgn, some (a.tier, a.first + t), [], (d.tier, d.first + t)⟩

/-- The work of TIER_COPY at its commit. -/
def copyWork (c : Cmd) (s : State) : State :=
  let d := copyDst c
  match c.rdErr with
  | some st => endCommand c.id st 0 s
  | none => commitAs c.id ST_OK d.first [] (if copyAllocs c then addAllocs (cmdPart c) [⟨d, .alloc⟩] s else s)

/-! ### SESSION_PARK (R240) -/

def parkTier (c : Cmd) : Nat := c.p1 0x14

/-- Tiles that a table's park copy takes: the blocks below ceil(L / 16), the table, and the lengths. -/
def parkNeed (x : Session) (t : PageTable) : Nat :=
  t.pb * min (pagesOf x.len) t.pages.length + tableTiles (min (pagesOf x.len) t.pages.length) + 1

/-- The park copy of a session: one extent for each table, at the tiles the choice gives. -/
def parkExtents (ch : Choice) (tier : Nat) (x : Session) : List Extent :=
  (List.range x.tables.length).filterMap fun j => (x.tables[j]?).map fun t =>
    ⟨t.rgn, tier, ((ch.groups[j]?).bind fun g => (g.rows.head?).map RowChoice.table).getD 0, parkNeed x t⟩

def parkCheck (c : Cmd) (s : State) : Fail :=
  firstFail [reserved c [(0x10, 4), (0x14, 1), (0x18, 4)], param 0x14 (parkTier c == 2 || parkTier c == 3),
    param 0x18 (decide (1000 ≤ c.p4 0x18) && decide (c.p4 0x18 ≤ 86400000)),
    quarantineFail s (sessionRgnsOf s c (c.p4 0x10)), sessionFail s c (c.p4 0x10) 0 [.opened]]

/-- Acceptance by checks 8 and 9 over extents that the command's commit keeps. -/
def acceptExtents (c : Cmd) (exts : List Extent) (tier : Nat) (f : Cmd → Cmd) (s : State) : State :=
  if ¬ quotaOk s (cmdPart c) tier (tilesIn tier exts) then reject c.id ST_QUOTA tier s
  else if ¬ (exts.all (isFree s) ∧ disjoint exts) then notPlaced c.id exts s
  else acceptAs c.id (fun d => f { d with
    extents := exts, resv := exts.map fun e => (e.rgn, e.tier, e.tiles), span := (exts.map Extent.rgn).eraseDups }) s

def parkAct (ch : Choice) (c : Cmd) (s : State) : State :=
  match sessionOf s (cmdPart c) (c.p4 0x10) with
  | none => s
  | some x =>
    acceptExtents c (parkExtents ch (parkTier c) x) (parkTier c) (fun d => { d with
      ch := ch, rows := [(x.handle, 0, x.edits)] }) s

def execSessionPark (r : Ring) (ch : Choice) (s : State) : Host.Outcome State Fault Refusal :=
  live s (process 0x24 r (quiet parkCheck) (parkAct ch))

/-- The copy of a table: its blocks one after another, the table as the park's edit writes it (R237), and the lengths; W is set
to L (R240). -/
def parkMoves (x : Session) (t : PageTable) (e : Extent) : List Move :=
  let pages := t.pages.take (pagesOf x.len)
  let at' := fun (k : Nat) => (e.tier, e.first + k)
  (pages.zipIdx.flatMap fun b => tileMoves t.rgn 1 b.1 (at' (t.pb * b.2)) t.pb) ++
  dataMoves t.rgn (tableBytes pages) (at' (t.pb * pages.length)) (tableTiles pages.length) ++
  dataMoves t.rgn (leBytes 4 x.len ++ leBytes 4 x.len) (at' (t.pb * pages.length + tableTiles pages.length)) 1

/-- Every near block and table tile of a session goes on the deferred list (R238). -/
def unlinkNear (p : Part) (x : Session) (s : State) : State :=
  let f := fun (a : Alloc) => if a.owner = .session x.handle then { a with owner := .deferred x.handle x.edits } else a
  s.modPart p fun q => { q with allocs := q.allocs.map f }

/-- A park whose copies have completed: the session is PARKED, its near blocks are unlinked. -/
def parkDone (p : Part) (x : Session) (exts : List Extent) (tier ms : Nat) (s : State) : State :=
  let s1 := addAllocs p (exts.map fun e => ⟨e, .park x.handle⟩) (unlinkNear p x s)
  modSession p x.handle (fun y => { y with
    st := .parked, wlen := y.len, parkTier := tier, ttl := 100000 * ms, ttlFrom := some s.now,
    edits := y.edits + 1, parkTiles := exts,
    tables := y.tables.map fun t => { t with
      gen := t.gen + 1, edit := y.edits + 1, pages := t.pages.take (pagesOf y.len) } }) s1

/-- The park's commit: every copy has completed. -/
def parkWork (c : Cmd) (s : State) : State :=
  let p := cmdPart c
  match sessionOf s p (c.p4 0x10) with
  | none => s
  | some x =>
    let s1 := commitAs c.id ST_OK (c.extents.foldl (fun k e => k + e.tiles) 0) []
      (parkDone p x c.extents (parkTier c) (c.p4 0x18) s)
    showSessions p (showDeferred s1)

/-! ### SESSION_RESUME (R242) -/

def resumeCheck (c : Cmd) (s : State) : Fail :=
  firstFail [reserved c [(0x10, 4)], quarantineFail s (sessionRgnsOf s c (c.p4 0x10)),
    sessionFail s c (c.p4 0x10) 0 [.parked]]

/-- New near extents of a table at the tiles the choice gives: the table, then its blocks. -/
def resumeExtents (ch : Choice) (x : Session) : Option (List (List Extent)) :=
  (List.range x.tables.length).foldr (fun j acc =>
    match acc, x.tables[j]?, (ch.groups[j]?).bind fun g => g.rows.head? with
    | some l, some t, some r =>
      if r.blocks.length = t.pages.length then
        some ((⟨t.rgn, 1, r.table, tableTiles t.pages.length⟩ :: r.blocks.map fun b => ⟨t.rgn, 1, b, t.pb⟩) :: l)
      else none
    | _, _, _ => none) (some [])

/-- A resume accepted first stops the clock (R241). -/
def resumeAct (ch : Choice) (c : Cmd) (s : State) : State :=
  let p := cmdPart c
  match sessionOf s p (c.p4 0x10) with
  | none => s
  | some x =>
    match resumeExtents ch x with
    | none => s
    | some l =>
      let s1 := acceptExtents c l.flatten 1 (fun d => { d with ch := ch, rows := [(x.handle, 0, x.edits)] }) s
      if (s1.cmd c.id).all fun d => d.phase == .fetched then s1
      else modSession p x.handle (fun y => { y with ttl := ttlLeft s y, ttlFrom := none }) s1

def execSessionResume (r : Ring) (ch : Choice) (s : State) : Host.Outcome State Fault Refusal :=
  live s (process 0x25 r (quiet resumeCheck) (resumeAct ch))

/-- The copy of a table back into its new blocks, and the new generation of the table. -/
def resumeMoves (t : PageTable) (e : Extent) (new : List Extent) : List Move :=
  let blocks := (new.drop 1).map Extent.first
  (blocks.zipIdx.flatMap fun b => tileMoves t.rgn e.tier (e.first + t.pb * b.2) (1, b.1) t.pb) ++
  dataMoves t.rgn (tableBytes blocks) (1, ((new.head?).map Extent.first).getD 0) (tableTiles blocks.length)

/-- The new tables of a resumed session. -/
def resumedTables (edit : Nat) (ts : List PageTable) (new : List (List Extent)) : List PageTable :=
  (ts.zip new).map fun x => { x.1 with
    gen := x.1.gen + 1, edit := edit, pages := (x.2.drop 1).map Extent.first, tableTile := ((x.2.head?).map Extent.first).getD 0 }

/-- Is a version of the session's package staged in every region of its tables? -/
def stagedFor (s : State) (p : Part) (x : Session) : Bool :=
  (s.part p).versions.any fun v => v.pkg == x.pkg && x.tables.all fun t => v.targets.contains t.rgn

def resumeWork (c : Cmd) (s : State) : State :=
  let p := cmdPart c
  match sessionOf s p (c.p4 0x10) with
  | none => s
  | some x =>
    if ¬ stagedFor s p x then endCommand c.id ST_NO_PACKAGE 0 s
    else
      match resumeExtents c.ch x with
      | none => s
      | some new =>
        let s1 := addAllocs p (new.flatten.map fun e => ⟨e, .session x.handle⟩)
          (dropAllocs p (fun a => a.owner == .park x.handle) s)
        let s2 := modSession p x.handle (fun y => { y with
          st := .opened, parkTiles := [], ttl := 0, ttlFrom := none, edits := y.edits + 1,
          tables := resumedTables (y.edits + 1) y.tables new }) s1
        showSessions p (commitAs c.id ST_OK 0 (leBytes 4 x.len) s2)

/-- The moves of a park or a resume. -/
def sessionMoves (c : Cmd) (s : State) : List Move :=
  match sessionOf s (cmdPart c) (c.p4 0x10) with
  | none => []
  | some x =>
    if c.opcode = 0x24 then (x.tables.zip c.extents).flatMap fun a => parkMoves x a.1 a.2
    else match resumeExtents c.ch x with
      | none => []
      | some new => (x.tables.zip (x.parkTiles.zip new)).flatMap fun a => resumeMoves a.1 a.2.1 a.2.2

/-- Commands whose work is copies. -/
def isCopyOp (op : Nat) : Bool := op == 0x42 || op == 0x24 || op == 0x25

def moveAt (c : Cmd) (s : State) (t : Nat) : Option Move := if c.opcode = 0x42 then copyMove c t else (sessionMoves c s)[t]?
def moveCount (c : Cmd) (s : State) : Nat := if c.opcode = 0x42 then c.p4 0x28 else (sessionMoves c s).length

/-- Has every tile of the command's copies been written? -/
def copiesDone (c : Cmd) (s : State) : Bool :=
  c.stepNo == moveCount c s && s.rgns.toList.all fun r => !(r.reqs.any fun q => q.cmd == some c.id)

/-! ### QUOTA_SET (R186 to R188) -/

/-- Has a SESSION_RESUME of the session been accepted and not yet retired? -/
def resuming (s : State) (p : Part) (h : BitVec 32) : Bool :=
  s.cmds.any fun c => c.opcode == 0x25 && c.unretired && c.part == some p && c.rows.any fun r => r.1 == h

/-- Parked sessions of a tier that RECLAIM may evict: not those a resume has taken (R187). -/
def evictable (s : State) (p : Part) (tier : Nat) : List Session :=
  (s.part p).sessions.filter fun x => x.st == .parked && x.parkTier == tier && !resuming s p x.handle

/-- The session nearest expiry, ties to the lower handle. -/
def nearest (s : State) : List Session → Option Session
  | [] => none
  | x :: xs =>
    match nearest s xs with
    | none => some x
    | some y =>
      if ttlLeft s x < ttlLeft s y ∨ (ttlLeft s x = ttlLeft s y ∧ x.handle.toNat < y.handle.toNat) then some x else some y

/-- Evict until usage is within the quota or no candidate remains; answers how many went. -/
def reclaim (p : Part) (tier : Nat) : Nat → State → State × Nat
  | 0, s => (s, 0)
  | k + 1, s =>
    if usage s p tier ≤ quotaOf s p tier then (s, 0)
    else match nearest s (evictable s p tier) with
      | none => (s, 0)
      | some x =>
        let r := reclaim p tier k (expireSession p x s)
        (r.1, r.2 + 1)

def quotaCheck (c : Cmd) (_ : State) : Fail :=
  firstFail [reserved c [(0x10, 1), (0x11, 1), (0x12, 1), (0x18, 8)], param 0x10 (decide (c.p1 0x10 < 16)),
    param 0x11 (decide (1 ≤ c.p1 0x11) && decide (c.p1 0x11 ≤ 4)), param 0x12 (decide (c.p1 0x12 ≤ 1)),
    param 0x18 (decide (c.p8 0x18 < 2 ^ 40))]

/-- QUOTA_SET ends deep idle as every management command does; it takes its place in the partition's order. -/
def quotaAct (c : Cmd) (s : State) : State :=
  let p : Part := Fin.ofNat 16 (c.p1 0x10)
  let tier := c.p1 0x11
  let s1 := (acceptAs c.id id s).modPart p fun q => { q with
    quota := Vec.modify q.quota (tier - 1) fun _ => c.p8 0x18, quotaSet := Vec.modify q.quotaSet (tier - 1) fun _ => true }
  let r := if (c.p1 0x12).testBit 0 then reclaim p tier (s1.part p).sessions.length s1 else (s1, 0)
  commitAs c.id ST_OK r.2 (leBytes 8 (usage r.1 p tier)) r.1

def execQuotaSet (r : Ring) (_ : Choice) (s : State) : Host.Outcome State Fault Refusal :=
  live s (process 0x43 r (quiet quotaCheck) quotaAct)

end Sys2Proof.Machine
end

