-- ==== Sys2Proof/Machine/Staging.lean ====
section
/-!
DEFINITION. The staging check of a package (R63, R91, R95, R127, R128, R133, R164, R244, R245, R277, R291): contexts, plans,
descriptors and route jobs as they lie in the package space after the copy.
-/

namespace Sys2Proof.Machine

/-! ### Bridges (R38, R39) -/

/-- Bridge of a side is open: the fields of the region's bridge register (R38). -/
def bridgeOpen (s : State) (n : Rgn) (side : Nat) : Bool :=
  (s.reg (Reg.RGN_BRIDGE_STATE n)).getLsbD side

/-- Cell index from the coordinates in the region. -/
def cellAt (gx gy : Nat) : Nat := (gy / 8 * 3 + gx / 8) * 64 + gy % 8 * 8 + gx % 8
def gxOf (c : Nat) : Nat := c / 64 % 3 * 8 + c % 8
def gyOf (c : Nat) : Nat := c / 64 / 3 * 8 + c / 8 % 8

/-- The bridge that a cell's output of a side (0 north, 1 east, 2 south, 3 west) crosses. -/
def crosses (c side : Nat) : Bool :=
  if side = 0 then gyOf c == 0 else if side = 1 then gxOf c == 23 else if side = 2 then gyOf c == 23 else gxOf c == 0

/-- Does a route entry of a cell cross only bridges of `opens` (R39)? -/
def routeStays (opens : Nat → Bool) (c w : Nat) : Bool :=
  (List.range 4).all fun k => !w.testBit k || !crosses c k || opens k

/-! ### Contexts (Tables 4.1, 4.2, 4.8) -/

def allZero (b : List Byte) : Bool := b.all (· == 0)

/-- Does cell `c` have the express port `k` (4 N, 5 E, 6 S, 7 W; R23)? -/
def hasExpress (c k : Nat) : Bool := if k = 4 ∨ k = 6 then c / 8 % 8 == 0 else c % 8 == 0

/-- Cell index named by the first half-word of a record. -/
def recordCell (r : List Byte) : Nat :=
  let w := leAt r 0 2
  w % 16 * 64 + w / 128 % 8 * 8 + w / 16 % 8

/-- A vector route entry: no own input but L, no express port the cell lacks, reserved bits zero. -/
def routeOk (c i w : Nat) : Bool :=
  decide (w < 1024) && (i == 8 || !w.testBit i) &&
  (List.range 4).all (fun k => hasExpress c (4 + k) || (!w.testBit (4 + k) && (i != 4 + k || w == 0)))

def narrowRouteOk (i w : Nat) : Bool := decide (w < 32) && (i == 4 || !w.testBit i)

/-- Steering configuration (Table 4.8): reserved bits zero, and all of it zero without ENABLE. -/
def steerOk (w : Nat) : Bool :=
  w / 2 ^ 21 % 8 == 0 && w / 2 ^ 96 == 0 && (w / 2 ^ 11 % 2 == 1 || w == 0)

def recordOk (opens : Nat → Bool) (r : List Byte) : Bool :=
  let c := recordCell r
  decide (leAt r 0 2 % 16 < 9) && decide (leAt r 0 2 < 1024) && allZero (slice r 2 2) && allZero (slice r 0x3C 4) &&
  allZero (slice r 0x70 16) && steerOk (leAt r 0x60 16) &&
  (List.range 9).all (fun i => routeOk c i (leAt r (4 + 4 * i) 4) && routeStays opens c (leAt r (4 + 4 * i) 4)) &&
  (List.range 5).all (fun i => narrowRouteOk i (leAt r (0x28 + 2 * i) 2) && narrowRouteOk i (leAt r (0x32 + 2 * i) 2) &&
    routeStays opens c (leAt r (0x28 + 2 * i) 2) && routeStays opens c (leAt r (0x32 + 2 * i) 2)) &&
  (List.range 8).all (fun i => leAt r (0x40 + 4 * i) 4 / 2 ^ 13 % 8 == 0 && leAt r (0x40 + 4 * i) 4 / 2 ^ 29 == 0) &&
  (List.range 64).all fun i => !uopReserved (BitVec.ofNat 64 (leAt r (0x80 + 8 * i) 8))

/-- Records in ascending cell order. -/
def recordsOk (opens : Nat → Bool) (b : List Byte) : Nat → Nat → Bool
  | 0, _ => true
  | k + 1, low =>
    let c := recordCell b
    decide (low ≤ c) && recordOk opens (b.take 640) && recordsOk opens (b.drop 640) k (c + 1)

def headerOk (opens : Nat → Bool) (b : List Byte) : Bool :=
  leAt b 0 1 == 1 && leAt b 1 1 == 0 && decide (1 ≤ leAt b 4 2) && decide (leAt b 4 2 ≤ 576) && decide (leAt b 6 2 < 512) &&
  decide (leAt b 8 1 < 16) && allZero (slice b 10 54) && (List.range 4).all fun k => !(leAt b 8 1).testBit k || opens k

/-- A context image, in a region whose bridges `opens` names (R39). -/
def contextOk (opens : Nat → Bool) (b : List Byte) : Bool := headerOk opens b && recordsOk opens (b.drop 64) (leAt b 4 2) 0

/-! ### Descriptors (Table 6.3) -/

def dNat (d : List Byte) (lo w : Nat) : Nat := leNat d / 2 ^ lo % 2 ^ w
def fmtWidth (f : Nat) : Nat :=
  if f = 0 ∨ f = 6 then 32 else if f = 1 ∨ f = 2 then 16 else if f = 11 then 4 else 8

/-- Bytes of a panel of `r` lines and `c` values under a layout (Table 6.2). -/
def panelBytes (layout fmt r c : Nat) : Nat :=
  if layout = 0 then (r + 7) / 8 * (16 * ((c * fmtWidth fmt + 15) / 16)) else (r * c * fmtWidth fmt + 7) / 8

def tilesOf (bytes : Nat) : Nat := (bytes + 4095) / 4096

/-- The formats of the key-value cache (R222): BF16, FP16, E4M3 and E5M2. -/
def cacheFmt (f : Nat) : Bool := decide (1 ≤ f) && decide (f ≤ 4)

/-- R164 for a descriptor of a RUN entry `e`, and R222 for one that reaches the cache: a panel through one of the region's `walks`
walk windows. -/
def descOk (walks e : Nat) (d : List Byte) : Bool :=
  let kind := dNat d 0 4
  let tier := dNat d 4 3
  let layout := dNat d 16 2
  let rows := dNat d 160 12 + 1
  let cols := dNat d 172 12 + 1
  let rd := dNat d 18 2
  let cd := dNat d 20 2
  decide (1 ≤ kind) && decide (kind ≤ 3) && decide (1 ≤ tier) && decide (tier ≤ 4) && (tier != 3 || kind == 3) &&
  decide (dNat d 12 4 < 13) && layout != 3 && dNat d 7 1 == 0 && dNat d 22 10 == 0 && dNat d 152 8 == 0 && dNat d 184 8 == 0 &&
  dNat d 233 23 == 0 && (kind != 3 || (decide (1 ≤ dNat d 230 3) && decide (dNat d 230 3 ≤ 4))) &&
  (layout == 2 || dNat d 112 16 + 1 == tilesOf (panelBytes layout (dNat d 12 4) rows cols)) &&
  (layout != 1 || (rows % 8 == 0 && cols % 8 == 0)) &&
  (layout != 2 || (rows == 1 && cols == 1 && rd == 3 && cd == 3)) &&
  (kind == 3 || (dNat d 192 9 != 0 && dNat d 201 8 != 0)) &&
  (rd == 3 || decide (rows ≤ dimTile e rd)) && (cd == 3 || decide (cols ≤ dimTile e cd)) &&
  (dNat d 209 1 == 0 || dNat d 210 4 != 0) &&
  (layout == 2 || decide (dNat d 8 4 < 12) || decide (12 + walks ≤ dNat d 8 4) || cacheFmt (dNat d 12 4))

/-! ### Plans -/

/-- Entries that an entry leads to. -/
def nextEntries (s : State) (n base i : Nat) : List Nat :=
  let e := planEntry s n base i
  let t := eType e
  if t = 4 then []
  else if t = 3 then (if jAlways e then [jTarget e] else [jTarget e, i + 1])
  else if t = 1 ∧ eBrEn e then (List.range (eBrN e + 1)).map fun k => ebits (planBranch s n base (eBrPtr e + k)) 32 14
  else [i + 1]

/-- Entries reachable from a list of entries, each round adding what they lead to. -/
def reach (s : State) (n base : Nat) : Nat → List Nat → List Nat
  | 0, l => l
  | k + 1, l => reach s n base k (l ++ (l.flatMap (nextEntries s n base)).eraseDups.filter fun x => !l.contains x)

/-- The governed dimensions of an entry hold a start row's maxima (R128). -/
def dimsOk (s : State) (n base row e : Nat) : Bool :=
  (List.range 3).all fun k => !dimUsed e k || dimShp e k == 15 ||
    ((startUsed s n base row).testBit (dimShp e k) &&
      decide (startMax s n base row (dimShp e k) ≤ dimMax e k * dimTile e k))

def ctlRowOk (e w : Nat) : Bool :=
  decide (w < 2 ^ 20) && decide (w / 2 ^ 16 < 9) && w % 4 == eSlot e && !ctlReserved (w % 2 ^ 16)

def entryOk (s : State) (n base walks i : Nat) : Bool :=
  let e := planEntry s n base i
  let k := planEntries s n base
  !entryReserved e && (nextEntries s n base i).all (fun x => decide (x < k)) &&
  (eType e != 1 ||
    (decide (eBrPtr e + (if eBrEn e then eBrN e + 1 else 0) ≤ 16384) && decide (eCtlPtr e + eCtlN e ≤ 16384) &&
     decide (eDBase e + eDPre e + eDIter e + eDPost e ≤ 65536) &&
     (!eBrEn e || (List.range (eBrN e + 1)).all fun j => planBranch s n base (eBrPtr e + j) / 2 ^ 46 == 0) &&
     (List.range (eCtlN e)).all (fun j => ctlRowOk e (planControl s n base (eCtlPtr e + j))) &&
     (List.range (eDPre e + eDIter e + eDPost e)).all fun j => descOk walks e (planDesc s n base (eDBase e + j))))

def startRowOk (s : State) (n base row : Nat) : Bool :=
  decide (startEntry s n base row < planEntries s n base) && startNat s n base row 3 1 == 0 &&
  allZero (s.load (nearAddr n (base + 0x68 + 64 * row)) 24) &&
  (reach s n base (planEntries s n base) [startEntry s n base row]).all fun i =>
    eType (planEntry s n base i) != 1 || dimsOk s n base row (planEntry s n base i)

def planOk (s : State) (n base walks : Nat) : Bool :=
  planNat s n base 0 1 == 1 && decide (1 ≤ planEntries s n base) && decide (planEntries s n base ≤ 16384) &&
  decide (1 ≤ planStarts s n base) && decide (planStarts s n base ≤ 16) && decide (planSemRows s n base ≤ 256) &&
  (List.range (planSemRows s n base)).all (fun k => planNat s n base (0x441 + 8 * k) 3 == 0) &&
  (List.range (planStarts s n base)).all (startRowOk s n base) &&
  (List.range (planEntries s n base)).all (entryOk s n base walks)

/-! ### Route jobs (Table 9.1, R244, R245) -/

def jobOk (j : List Byte) : Bool :=
  let e := leAt j 4 1 + 1
  let k := leAt j 5 1
  let probe := leAt j 6 1 + 1
  leAt j 0 1 == 1 && decide (1 ≤ leAt j 1 1) && decide (leAt j 1 1 ≤ 2) && decide (leAt j 2 1 ≤ 1) &&
  decide (leAt j 3 1 ≤ 2) && (leAt j 2 1 == 1 || leAt j 3 1 == 2) && decide (1 ≤ k) && decide (k ≤ 8) && decide (k ≤ e) &&
  decide (k ≤ probe) && decide (probe ≤ e) && decide (leAt j 7 1 < 7) && decide (leAt j 8 2 < 4096) &&
  decide (leAt j 10 2 < 4096) && (decide (leAt j 12 1 < 8) || leAt j 12 1 == 15) && allZero (slice j 14 2) &&
  decide (1 ≤ leAt j 0x29 1) && decide (leAt j 0x29 1 ≤ 15) && decide (1 ≤ leAt j 0x2B 1) && decide (leAt j 0x2B 1 ≤ 15) &&
  allZero (slice j 0x2C 20)

/-- The jobs' shape registers never exceed their rounds in any start row of the plan. -/
def jobFits (s : State) (n base : Nat) (j : List Byte) : Bool :=
  leAt j 12 1 == 15 || (List.range (planStarts s n base)).all fun r =>
    decide (startMax s n base r (leAt j 12 1) ≤ leAt j 10 2 + 1)

def jobsFrom (b : List Byte) : Nat → List (List Byte)
  | 0 => []
  | k + 1 => b.take 64 :: jobsFrom (b.drop 64) k

/-! ### The whole check of one position -/

/-- Does a plan copy to or from the fold tier, not counting windows that reach another chip (R216)? -/
def planCopiesFold (s : State) (n base : Nat) (far : List Nat) : Bool :=
  (List.range (planEntries s n base)).any fun i =>
    let e := planEntry s n base i
    eType e == 1 && (List.range (eDPre e + eDIter e + eDPost e)).any fun j =>
      let d := planDesc s n base (eDBase e + j)
      dNat d 0 4 == 3 && ((dNat d 4 3 == 3 && !far.contains (dNat d 8 4)) || (dNat d 230 3 == 3 && !far.contains (dNat d 226 4)))

/-- A section of a position as it lies in package space. `plans` are the plans of the whole package: region and byte offset. -/
def placedOk (s : State) (n : Rgn) (plans : List (Nat × Nat)) (walks : Nat) (x : Placed) : Bool :=
  if x.type = 1 then contextOk (bridgeOpen s n) (readTiles s none n.val 1 x.first x.tiles)
  else if x.type = 2 then planOk s n.val (4096 * x.first) walks
  else if x.type = 4 then
    let b := readTiles s none n.val 1 x.first x.tiles
    (jobsFrom b (jobCount b (64 * x.tiles))).all fun j => jobOk j && plans.all fun q => jobFits s q.1 q.2 j
  else true

def positionOk (s : State) (n : Rgn) (plans : List (Nat × Nat)) (walks : Nat) (l : List Placed) : Bool :=
  l.all (placedOk s n plans walks) && decide (l.foldl (fun k x => k + x.tiles) 0 ≤ 24544 * 256)

end Sys2Proof.Machine
end

