-- ==== Sys2Proof/Machine/Packages.lean ====
section
/-!
DEFINITION. Packages and adapters (10_packages.md): the image, its checks, PKG_STAGE, PKG_ACTIVATE, PKG_RETIRE,
ADAPTER_LOAD, ADAPTER_DROP, SIGNATURE_VERIFY and the work of a stage at its commit.
-/

namespace Sys2Proof.Machine

/-! ### The image (Tables 10.1 to 10.5) -/

def iFlags (b : List Byte) : Nat := leAt b 5 1
def iSections (b : List Byte) : Nat := leAt b 6 2
def iPkg (b : List Byte) : Nat := leAt b 8 8
def iVer (b : List Byte) : Nat := leAt b 0x10 4
def iManifest (b : List Byte) : Nat := leAt b 0x14 1
def iPositions (b : List Byte) : Nat := leAt b 0x15 1 + 1
def iVariants (b : List Byte) : Nat := leAt b 0x16 1
def iAdWin (b : List Byte) : Nat := leAt b 0x17 1
def iSlots (b : List Byte) : Nat := leAt b 0x18 2
def iParts (b : List Byte) : Nat := leAt b 0x1A 2
def iAdTiles (b : List Byte) : Nat := leAt b 0x20 4
def iTotal (b : List Byte) : Nat := leAt b 0x24 4
def iCacheSig (b : List Byte) : List Byte := slice b 0x40 48
def iIoSig (b : List Byte) : List Byte := slice b 0x70 48
def iTable (b : List Byte) : List Byte := slice b 0x100 (64 * iSections b)
def iSigned (b : List Byte) : Bool := (iFlags b).testBit 0
/-- The digest that both signatures are over (R262). -/
def iHeaderDigest (b : List Byte) : List Byte := Config.sha384 (slice b 0 0xD0)

/-- A section-table entry. -/
structure Section where
  type : Nat
  pos : Nat
  var : Nat
  first : Nat
  tiles : Nat
  target : Nat
  digest : List Byte
  ok : Bool
  deriving DecidableEq, Repr

def sectionAt (b : List Byte) (i : Nat) : Section :=
  let e := slice b (0x100 + 64 * i) 64
  ⟨leAt e 0 1, leAt e 1 1, leAt e 2 1, leAt e 4 4, leAt e 8 4, leAt e 12 4, slice e 16 48, leAt e 3 1 == 0⟩

def sections (b : List Byte) : List Section := (List.range (iSections b)).map (sectionAt b)

def sectionOk (b : List Byte) (x : Section) : Bool :=
  x.ok && decide (1 ≤ x.type) && decide (x.type ≤ 7) && (x.pos == 0xFF || decide (x.pos < iPositions b)) &&
  (x.var == 0xFF || decide (x.var < iVariants b)) && decide (iManifest b ≤ x.first) &&
  decide (x.first + x.tiles ≤ iTotal b) && (x.type == 3 || x.target == 0)

/-- Item 1 of R260. -/
def imageHeaderOk (b : List Byte) : Bool :=
  leAt b 0 4 == 0x1F6A0C01 && leAt b 4 1 == 1 && decide (iFlags b < 8) && decide (1 ≤ iSections b) &&
  decide (iSections b ≤ 4032) && iPkg b != 0 && iVer b != 0 && decide (1 ≤ iManifest b) && decide (iManifest b ≤ 64) &&
  decide (0x100 + 64 * iSections b ≤ 4096 * iManifest b) && decide (iPositions b ≤ 16) && decide (1 ≤ iVariants b) &&
  decide (iVariants b ≤ 16) && (if (iFlags b).testBit 1 then decide (iAdWin b < 12) else iAdWin b == 0xFF) &&
  decide (iSlots b ≤ 1024) && decide (iParts b < 4096) && decide (leAt b 0x1C 2 ≤ iParts b) && allZero (slice b 0x1E 2) &&
  decide (iAdTiles b ≤ 16384) && decide (iManifest b ≤ iTotal b) && allZero (slice b 0x28 24) &&
  allZero (slice b 0xD0 48) && (sections b).all (sectionOk b)

/-- Bytes of a section in the image. -/
def sectionBytes (img : List Byte) (x : Section) : List Byte := slice img (4096 * x.first) (4096 * x.tiles)

def digestOk (img : List Byte) (x : Section) : Bool := Config.sha384 (sectionBytes img x) == x.digest

/-- The signature block's keys and signatures (Table 10.5). -/
def sigBlock (img : List Byte) : Option (List Byte) :=
  ((sections img).find? fun x => x.type == 7).map (sectionBytes img)
def sigKeys (g : List Byte) : List Byte := slice g 0 436
def signerHash (g : List Byte) : List Byte := Config.sha384 (sigKeys g)
def sigVerifies (g digest : List Byte) : Bool :=
  Config.rsaVerify (slice g 0 388) digest (slice g 0x1B4 384) && Config.slhVerify (slice g 0x184 48) digest (slice g 0x334 16224)

/-! ### The rest copy (R266) -/

/-- SRC, REST_SET and REST lie at one place in PKG_STAGE and another in ADAPTER_LOAD. -/
structure Rest where
  src : Nat
  set : Nat
  rest : Nat
  deriving DecidableEq, Repr

def restOf (c : Cmd) : Rest :=
  if c.opcode = 0x10 then ⟨c.p1 0x1C, c.p2 0x1E, c.p8 0x20⟩ else ⟨c.p1 0x24, c.p2 0x26, c.p8 0x28⟩

def restRgns (r : Rest) : List Nat := (maskRgns (BitVec.ofNat 16 r.set)).map Fin.val

/-- Region, tier and tile of image tile `i`. -/
def restTile (r : Rest) (i : Nat) : Nat × Nat × Nat :=
  let rs := restRgns r
  (rs.getD (i % rs.length) 0, r.src + 2, r.rest + i / rs.length)

def restHeld (s : State) (p : Part) (r : Rest) (tiles : Nat) : Bool :=
  let k := (tiles + (restRgns r).length - 1) / (restRgns r).length
  (restRgns r).all fun n => heldByAlloc s p n (r.src + 2) r.rest k

/-- Parameters of a source: SRC below 4, REST_SET of the partition and non-empty for a tier and zero otherwise. -/
def restFail (s : State) (c : Cmd) (oSrc oSet oRest : Nat) : Fail :=
  let r := restOf c
  firstFail [param oSrc (decide (r.src < 4)),
    param oSet (if r.src < 2 then r.set != 0 && (restRgns r).all (inPart s c) else r.set == 0),
    param oRest (if r.src < 2 then decide (r.rest < 2 ^ 32) else
      r.rest % 4096 == 0 && (r.src == 3 || decide (r.rest < winSize)))]

/-! ### Versions -/

def modVersion (p : Part) (id : Word) (ver : BitVec 32) (f : Version → Version) (s : State) : State :=
  let g := fun (v : Version) => if v.pkg = id ∧ v.ver = ver then f v else v
  s.modPart p fun q => { q with versions := q.versions.map g }

/-- An unretired stage of the same package and version, accepted before this command, other than an aborted one. -/
def otherStage (s : State) (c : Cmd) : Option Cmd :=
  s.cmds.find? fun d => d.opcode == 0x10 && d.live && d.id != c.id && d.part == c.part && d.p8 0x10 == c.p8 0x10 &&
    d.p4 0x18 == c.p4 0x18 && decide (d.seq < c.seq || c.phase == .fetched)

/-! ### PKG_STAGE: acceptance -/

def stageCheck (c : Cmd) (s : State) : Fail :=
  let k := c.p1 0x30
  let ts := targetsOf c
  let p := cmdPart c
  firstFail [reserved c [(0x10, 8), (0x18, 4), (0x1C, 1), (0x1E, 2), (0x20, 8), (0x28, 8), (0x30, 1)],
    param 0x10 (c.p8 0x10 != 0), param 0x18 (c.p4 0x18 != 0), restFail s c 0x1C 0x1E 0x20,
    param 0x28 (ts.all (inPart s c) && ts.eraseDups == ts && decide (c.p8 0x28 < 16 ^ k)),
    param 0x30 (decide (1 ≤ k) && decide (k ≤ 16)),
    param 0x28 (match versionOf s p (c.p8 0x10) (c.p4 0x18) with
      | some v => v.targets == ts
      | none => true),
    param 0x28 (match otherStage s c with
      | some d => targetsOf d == ts
      | none => true),
    quarantineFail s ts]

/-- RESULT of a stage: the variant of each position. -/
def variantWord (vars : List Nat) : List Byte :=
  leBytes 8 ((List.range vars.length).foldl (fun k i => k + vars.getD i 0 * 16 ^ i) 0)

/-- A version already staged in the same targets commits at once; otherwise the stage waits for its turn. -/
def stageAct (ch : Choice) (c : Cmd) (s : State) : State :=
  let p := cmdPart c
  let s1 := acceptAs c.id (fun d => { d with
      span := (targetsOf c).eraseDups, ch := ch, waits := match otherStage s c with | some d => [d.id] | none => [] }) s
  match versionOf s p (c.p8 0x10) (c.p4 0x18) with
  | some v => commitAs c.id ST_OK 0 (variantWord v.variants) s1
  | none => s1

def execPkgStage (r : Ring) (ch : Choice) (s : State) : Host.Outcome State Fault Refusal :=
  live s (process 0x10 r (quiet stageCheck) (stageAct ch))

/-! ### Reading the image while the command runs -/

def companionBase (s : State) (r : Rest) : Nat := if r.src = 2 then winBase s + r.rest else r.rest

/-- Bytes of the image to read: its header says how many tiles there are. -/
def imageTotal (c : Cmd) : Nat := if c.work.length < 4096 then 4096 else 4096 * max 1 (iTotal c.work)

/-- Take the next companion tile of a running stage or load; those of a tier come by the tile mover's requests. -/
def feedImage (c : Cmd) (s : State) : State :=
  let r := restOf c
  if r.src < 2 then s else feedTile c (companionBase s r) (r.src == 2) (imageTotal c) s

/-- What the image read has come to: bytes, more to come, or a status. -/
def imageBytes (c : Cmd) (s : State) : State × BufRead :=
  let r := restOf c
  let p := cmdPart c
  if r.src < 2 ∧ c.stepNo = 0 ∧ ¬ restHeld s p r (imageTotal c / 4096) then (s, .failed ST_BAD_PARAM)
  else match c.rdErr with
    | some st =>
      if c.work.length < 4096 ∨ c.work.length < 4096 * iManifest c.work then (s, .failed st) else (s, .bytes c.work)
    | none => if c.work.length < imageTotal c then (s, .waiting) else (s, .bytes c.work)

/-- The status of a failed read beyond the manifest, when it keeps a section of one of these types from being read. -/
def faultIn (c : Cmd) (img : List Byte) (types : List Nat) : Option Nat :=
  if (sections img).any fun x => types.contains x.type && decide (c.work.length / 4096 < x.first + x.tiles) then c.rdErr else none

/-! ### The package policy (R261, R262) -/

/-- The policy's answer: refuse, wait for Tahr's verification, or go on. -/
def policy (s : State) (p : Part) (img : List Byte) : Verdict :=
  let q := s.part p
  if ¬ iSigned img then (if q.requireSig then .reject ST_AUTH_FAIL 0 else .accept)
  else match sigBlock img with
    | none => .reject ST_AUTH_FAIL 0
    | some g =>
      if q.requireSig ∧ ¬ q.signers.contains (signerHash g) then .reject ST_AUTH_FAIL 0
      else if q.digests.contains (iHeaderDigest img) then .accept
      else .wait

/-- A stage or load that ends with ST_AUTH_FAIL raises the package authentication source (Table 17.2). -/
def authFail (id : Nat) (s : State) : State := raiseWith ST_AUTH_FAIL 12 false ⟨some id, 0, 0⟩ (endCommand id ST_AUTH_FAIL 0 s)

def endWith (id status : Nat) (s : State) : State :=
  if status = ST_AUTH_FAIL then authFail id s else endCommand id status 0 s

/-- The last 256 verified digests of a partition (R262). -/
def addDigest (d : List Byte) (l : List (List Byte)) : List (List Byte) := List.drop (l.length + 1 - 256) (l ++ [d])

/-- Has the manifest been read? -/
def manifestRead (c : Cmd) : Bool := decide (4096 ≤ c.work.length) && decide (4096 * iManifest c.work ≤ c.work.length)

/-- Have all sections of these types been read? -/
def readTypes (c : Cmd) (types : List Nat) : Bool :=
  (sections c.work).all fun x => !types.contains x.type || decide (4096 * (x.first + x.tiles) ≤ c.work.length)

/-- SIGNATURE_VERIFY (R262): Tahr verifies both signatures of a running stage or load that waits for them, before any other section is
copied. -/
def verifySignature (id : Nat) (s : State) : State :=
  match s.cmd id with
  | none => s
  | some c =>
    if (c.opcode = 0x10 ∨ c.opcode = 0x13) ∧ c.phase = .running ∧ manifestRead c ∧ readTypes c [7] ∧
        policy s (cmdPart c) c.work = .wait then
      match sigBlock c.work with
      | none => s
      | some g =>
        tahrTurn (tqVerify id) (fun s =>
          if sigVerifies g (iHeaderDigest c.work) then
            s.modPart (cmdPart c) fun q => { q with digests := addDigest (iHeaderDigest c.work) q.digests }
          else authFail id s) s
    else s

/-! ### Variants (R263, R264) -/

/-- The variant records of an image, variant by variant (absent ones empty). -/
def variantRecords (img : List Byte) : List (List Byte) :=
  (List.range (iVariants img)).map fun v =>
    (((sections img).find? fun x => x.type == 5 && x.var == v).map (sectionBytes img)).getD []

/-! ### Placing one position (R115, R259, R268) -/

/-- Does a variant serve a position (R263)? -/
def serves (recs : List (List Byte)) (var pos : Nat) : Bool := (leAt (recs.getD var []) 2 2).testBit pos

/-- Sections copied for a position: those for it or for every position, of the variants that serve it; no VARIANT or SIGNATURE. -/
def positionSections (img : List Byte) (pos : Nat) : List Section :=
  (sections img).filter fun x => x.type != 5 && x.type != 7 && (x.pos == pos || x.pos == 0xFF) &&
    (x.var == 0xFF || serves (variantRecords img) x.var pos)

/-- The near tile of each section: WEIGHTS by TARGET from the space's base, the others as firmware chooses. -/
def placeSections (pl : Placement) : List Section → List Nat → List Placed
  | [], _ => []
  | x :: xs, l =>
    if x.type = 3 then ⟨x.type, x.var, pl.base + x.target, x.tiles⟩ :: placeSections pl xs l
    else ⟨x.type, x.var, l.headD 0, x.tiles⟩ :: placeSections pl xs (l.drop 1)

def spaceExtents (n : Nat) (pl : Placement) : List Extent := pl.space.map fun x => ⟨n, 1, x.1, x.2⟩

/-- Every section lies in the space and no two overlap; the space holds no tile more than the sections need. -/
def placementOk (n : Nat) (pl : Placement) (l : List Placed) : Bool :=
  let es := l.map fun x => (⟨n, 1, x.first, x.tiles⟩ : Extent)
  es.all (fun e => covered e (spaceExtents n pl)) && disjoint es && disjoint (spaceExtents n pl) &&
  tilesIn 1 (spaceExtents n pl) == tilesIn 1 es

/-- Contexts of the selected variant, which take directory entries. -/
def contexts (l : List Placed) (var : Nat) : List Placed := l.filter fun x => x.type == 1 && (x.var == var || x.var == 0xFF)

/-- Tile ranges of the context store that valid directory entries of a region take. -/
def dirRanges (s : State) (n : Rgn) : List (Nat × Nat) :=
  ((List.range 64).filter fun i => s.flag (Reg.CTX_DIR n i) Reg.CTX_DIR_VALID).map fun i =>
    (s.fld (Reg.CTX_DIR n i) Reg.CTX_DIR_TILE_OFF, s.fld (Reg.CTX_DIR n i) Reg.CTX_DIR_TILES)

/-- Directory entries and context-store ranges that stages in progress have reserved in a region (Table 10.6). -/
structure DirHold where
  entries : List Nat
  ranges : List (Nat × Nat)
  deriving DecidableEq, Repr

/-- What is taken of a region's directory and context store: valid entries, and what the stages other than `id` have reserved. -/
def dirsTaken (s : State) (n : Rgn) (id : Nat) : DirHold :=
  let held := (s.cmds.filter fun c => c.opcode == 0x10 && c.live && c.id != id).flatMap fun c => c.holds.filter fun h => h.1 == n.val
  ⟨((List.range 64).filter fun i => s.flag (Reg.CTX_DIR n i) Reg.CTX_DIR_VALID) ++ held.map fun h => h.2.1,
   dirRanges s n ++ held.map fun h => h.2.2⟩

def inStore (r : Nat × Nat) : Bool := decide (r.1 + r.2 ≤ 6144) && decide (r.2 ≤ 91)
def apart (rs : List (Nat × Nat)) : Bool := disjoint (rs.map fun r => ⟨0, 1, r.1, r.2⟩)

/-- Are the chosen directory entries and store tiles free and enough? -/
def dirsFree (taken : DirHold) (pl : Placement) (cs : List Placed) : Bool :=
  let rs := (pl.dirTiles.zip (cs.map Placed.tiles))
  pl.dirs.length == cs.length && pl.dirTiles.length == cs.length && pl.dirs.eraseDups == pl.dirs &&
  pl.dirs.all (fun i => decide (i < 64) && !taken.entries.contains i) && rs.all inStore && apart (rs ++ taken.ranges)

/-- The lowest room in the context store for a context of `k` tiles, at the end of what is taken. -/
def storeGap (k : Nat) (ranges : List (Nat × Nat)) : Option Nat :=
  ((0 :: ranges.map fun r => r.1 + r.2).filter fun t => inStore (t, k) && !(ranges.any fun r => decide (t < r.1 + r.2) && decide (r.1 < t + k))).foldl
    (fun a t => match a with
      | none => some t
      | some b => some (min b t)) none

/-- Place contexts one after another at the lowest free entry and room: the entry and the first store tile of each. -/
def placeDirs (taken : DirHold) : List Placed → Option (List (Nat × Nat))
  | [] => some []
  | x :: xs =>
    match (List.range 64).find? (fun i => !taken.entries.contains i), storeGap x.tiles taken.ranges with
    | some i, some t => (placeDirs ⟨i :: taken.entries, (t, x.tiles) :: taken.ranges⟩ xs).map ((i, t) :: ·)
    | _, _ => none

/-- Copy the sections of a position into package space. -/
def copySections (img : List Byte) (n : Nat) : List (Section × Placed) → State → State
  | [], s => s
  | (x, q) :: l, s => copySections img n l (writeTiles none n 1 q.first (sectionBytes img x) q.tiles s)

/-- Copy the selected variant's contexts into the context store and write their directory entries (R115). -/
def fillDirs (n : Rgn) : List (Placed × Nat × Nat) → State → State
  | [], s => s
  | (q, i, t) :: l, s =>
    let num := leAt (readTile s none n.val 1 q.first) 2 2
    let base := s.fld (Reg.CTX_STORE_BASE n) Reg.CTX_STORE_BASE_BASE
    let v := Reg.CTX_DIR_TILE_OFF.put (Reg.CTX_DIR_TILES.put (Reg.CTX_DIR_CTX_NUM.put 0 num) q.tiles) t
    fillDirs n l ((copyTiles none n.val 1 q.first n.val 1 (base + t) q.tiles s).setReg (Reg.CTX_DIR n i)
      (Reg.CTX_DIR_VALID.put v 1))

/-! ### The work of a stage (Table 10.6) -/

/-- One target: its position and region, the placement and the placed sections. -/
structure Target where
  pos : Nat
  n : Nat
  pl : Placement
  secs : List Section
  placed : List Placed
  deriving DecidableEq, Repr

def noPlacement : Placement := ⟨0, [], [], [], []⟩

def mkTargets (c : Cmd) (img : List Byte) : List Target :=
  (List.range (targetsOf c).length).map fun i =>
    let pl := c.ch.places.getD i noPlacement
    let x := positionSections img i
    ⟨i, (targetsOf c).getD i 0, pl, x, placeSections pl x pl.sect⟩

def targetTiles (ts : List Target) : Nat := ts.foldl (fun k t => k + t.secs.foldl (fun j x => j + x.tiles) 0) 0

def copyTargets (img : List Byte) : List Target → State → State
  | [], s => s
  | t :: ts, s => copyTargets img ts (copySections img t.n (t.secs.zip t.placed) s)

def fillTargets : List (Target × Nat) → State → State
  | [], s => s
  | (t, v) :: l, s =>
    let cs := contexts t.placed v
    fillTargets l (fillDirs (Fin.ofNat 16 t.n) (cs.zip (t.pl.dirs.zip t.pl.dirTiles)) s)

/-- A package joins the partition's list at its first stage (R297). -/
def orderPkg (p : Part) (id : Word) (s : State) : State :=
  s.modPart p fun q => if q.pkgOrder.contains id then q else { q with pkgOrder := q.pkgOrder ++ [id] }

/-- R291: the adapter window is none of the I/O windows. -/
def adWinOk (img : List Byte) : Bool := decide (iAdWin img < 8) || decide (11 < iAdWin img)

/-- DETAIL of a stage: the tiles copied for each target region. Where they differ the spec gives no one number. -/
def perTarget (ts : List Target) (s : State) : Nat :=
  let k := fun (t : Target) => t.secs.foldl (fun j x => j + x.tiles) 0
  match ts with
  | [] => 0
  | t :: l => if l.all fun u => k u == k t then k t else (Config.freeWord s.free).toNat % 2 ^ 32

/-- Steps 1 and 2 of a stage or load: header, names, positions, table digest, policy. -/
def manifestFail (s : State) (c : Cmd) (img : List Byte) (id ver : Nat) : Verdict :=
  if ¬ imageHeaderOk img ∨ iPkg img ≠ id ∨ iVer img ≠ ver then .reject ST_BAD_PARAM 0
  else if c.opcode = 0x10 ∧ iPositions img ≠ (targetsOf c).length then .reject ST_BAD_PARAM 0
  else if Config.sha384 (iTable img) ≠ slice img 0xA0 48 then .reject ST_AUTH_FAIL 0
  else if iSigned img ∧ ¬ readTypes c [7] then .wait
  else policy s (cmdPart c) img

/-- The extents a target's sections need, wherever they are put: WEIGHTS lie together by their TARGETs. -/
def neededExtents (t : Target) : List Extent :=
  let w := t.secs.filter fun x => x.type == 3
  (if w.isEmpty then [] else [⟨t.n, 1, 0, w.foldl (fun k x => max k (x.target + x.tiles)) 0⟩]) ++
  (t.secs.filter fun x => x.type != 3).map fun x => ⟨t.n, 1, 0, x.tiles⟩

/-- The layer groups that firmware names for a package: at most four in a target's region, with a PB from 1 to 4,096 (R227; log
entry 148). -/
def groupsOk (c : Cmd) (gs : List GroupChoice) : Bool :=
  gs.all (fun g => (targetsOf c).contains g.rgn.val && decide (1 ≤ g.pb) && decide (g.pb ≤ 4096) &&
    decide ((gs.filter fun h => h.rgn == g.rgn).length ≤ 4))

def groupList (gs : List GroupChoice) : List (Nat × Nat) := gs.map fun g => (g.rgn.val, g.pb)

/-- Versions of one PKG_ID with one CACHE_SIG have the same cache layout, and so the same layer groups (Table 10.1). -/
def groupsAgree (s : State) (p : Part) (img : List Byte) (gs : List GroupChoice) : Bool :=
  (s.part p).versions.all fun v => v.pkg.toNat != iPkg img || iCacheSig v.manifest != iCacheSig img || v.groups == groupList gs

/-- The variants selected for the targets (R264). -/
def chosenVars (s : State) (img : List Byte) (ts : List Target) : List (Option Nat) :=
  ts.map fun t => selectVariant s (variantRecords img) t.pos t.n

/-- Directory entries and store ranges that a stage reserves: region, entry, range. -/
def dirHolds (ts : List (Target × Nat)) : List (Nat × Nat × (Nat × Nat)) :=
  ts.flatMap fun x => (x.1.pl.dirs.zip (x.1.pl.dirTiles.zip ((contexts x.1.placed x.2).map Placed.tiles))).map fun d => (x.1.n, d.1, d.2)

/-- Steps 3 and 4: package space in each target region, a variant for each, its directory entries and its room in the context store
(R185, R264). A choice that does not serve though there is room is no choice of firmware's: the stage waits for another
(log entry 151). -/
def reserveStage (c : Cmd) (img : List Byte) (s : State) : State :=
  let p := cmdPart c
  let ts := mkTargets c img
  let exts := ts.flatMap fun t => spaceExtents t.n t.pl
  let vs := chosenVars s img ts
  let vars := vs.map (Option.getD · 0)
  if ¬ quotaOk s p 1 (targetTiles ts) then endCommand c.id ST_QUOTA 1 s
  else if ¬ (ts.all (fun t => placementOk t.n t.pl t.placed) ∧ exts.all (isFree s) ∧ disjoint exts ∧ groupsAgree s p img c.ch.groups) then
    (if roomFor (ts.flatMap neededExtents) s then s else endCommand c.id ST_ADMIT_MEMORY 0 s)
  else if ¬ vs.all Option.isSome then endCommand c.id ST_BAD_PARAM 0 s
  else if ¬ (ts.zip vars).all (fun x => dirsFree (dirsTaken s (Fin.ofNat 16 x.1.n) c.id) x.1.pl (contexts x.1.placed x.2)) then
    (if (ts.zip vars).all (fun x => (placeDirs (dirsTaken s (Fin.ofNat 16 x.1.n) c.id) (contexts x.1.placed x.2)).isSome) then s
     else endCommand c.id ST_ADMIT_MEMORY 0 s)
  else s.modCmd c.id fun d => { d with
    extents := exts, resv := exts.map fun e => (e.rgn, e.tier, e.tiles), holds := dirHolds (ts.zip vars), stepNo := 1 }

/-- The outcome of the steps that need only what has been read: end, wait, or go on with the step `act`. -/
def imageStep (c : Cmd) (id ver : Nat) (types : List Nat) (act : List Byte → State → State) (s : State) : State :=
  let r := restOf c
  if r.src < 2 ∧ ¬ restHeld s (cmdPart c) r (imageTotal c / 4096) then endCommand c.id ST_BAD_PARAM 0 s
  else if ¬ manifestRead c then (match c.rdErr with
    | some st => endCommand c.id st 0 s
    | none => s)
  else match manifestFail s c c.work id ver with
    | .reject st _ => endWith c.id st s
    | .wait => (match faultIn c c.work [7] with
      | some f => endCommand c.id f 0 s
      | none => s)
    | .accept =>
      if readTypes c types then act c.work s
      else match faultIn c c.work types with
        | some f => endCommand c.id f 0 s
        | none => s

/-- A running stage or load goes through the steps before the copy as soon as what they need has been read (Table 10.6). -/
def stageStep (c : Cmd) (s : State) : State :=
  if c.phase ≠ .running ∨ c.stepNo ≠ 0 then s
  else imageStep c (c.p8 0x10) (c.p4 0x18) [5] (reserveStage c) s

/-- Plans of a package that copy to or from the fold tier: region and variant (R216). -/
def foldPlans (s : State) (img : List Byte) (ts : List Target) : List (Nat × Nat) :=
  ts.flatMap fun t =>
    let far := if leAt img 0x1A 2 = 0 then []
      else (List.range 8).filter fun j => (Config.ioWindow (slice img 0x70 48) (leAt img 0x1C 2) t.pos j).isSome
    (t.placed.filter fun x => x.type == 2 && planCopiesFold s t.n (4096 * x.first) far).map fun x => (t.n, x.var)

/-- The plans of every position: region and byte offset. -/
def allPlans (ts : List Target) : List (Nat × Nat) :=
  ts.flatMap fun t => (t.placed.filter fun x => x.type == 2).map fun x => (t.n, 4096 * x.first)

/-- Steps 5 to 8 of a stage whose space is reserved: copy and digests, staging check, directory, the staged version. -/
def installStage (c : Cmd) (img : List Byte) (s : State) : State :=
  let p := cmdPart c
  let ts := mkTargets c img
  let vs := chosenVars s img ts
  let vars := vs.map (Option.getD · 0)
  if ¬ vs.all Option.isSome then endCommand c.id ST_BAD_PARAM 0 s
  else if ¬ (ts.zip vars).all (fun x => dirsFree (dirsTaken s (Fin.ofNat 16 x.1.n) c.id) x.1.pl (contexts x.1.placed x.2)) then
    endCommand c.id ST_ADMIT_MEMORY 0 s
  else if let some f := faultIn c img [1, 2, 3, 4, 6] then endCommand c.id f 0 s
  else if ¬ (ts.flatMap Target.secs ++ (sections img).filter fun x => x.type == 5).all (digestOk img) then authFail c.id s
  else
    let s1 := copyTargets img ts s
    let walks := fun (n : Nat) => (c.ch.groups.filter fun g => g.rgn.val == n).length
    if ¬ (ts.all (fun t => positionOk s1 (Fin.ofNat 16 t.n) (allPlans ts) (walks t.n) t.placed) ∧ adWinOk img ∧
        groupsOk c c.ch.groups ∧ Config.hiddenChecks img) then endCommand c.id ST_BAD_PARAM 0 s
    else
      let id := BitVec.ofNat 64 (iPkg img)
      let ver := BitVec.ofNat 32 (iVer img)
      let s2 := addAllocs p (c.extents.map fun e => ⟨e, .pkg id ver⟩) (fillTargets (ts.zip vars) s1)
      let v : Version := {
        pkg := id, ver := ver, targets := targetsOf c, variants := vars, manifest := slice img 0 (4096 * iManifest img),
        records := variantRecords img, dirs := ts.map fun t => t.pl.dirs, dirTiles := ts.map fun t => t.pl.dirTiles,
        placed := ts.map Target.placed, retiring := false, bases := ts.map fun t => t.pl.base, groups := groupList c.ch.groups,
        folds := foldPlans s1 img ts }
      let s3 := orderPkg p id (s2.modPart p fun q => { q with versions := q.versions ++ [v] })
      commitAs c.id ST_OK (perTarget ts s) (variantWord vars) { s3 with free := s3.free + 1 }

/-- PKG_STAGE's work at its commit: the steps before the copy, if they are still to come, then the others. -/
def stageWork (c : Cmd) (s : State) : State :=
  match quarantineFail s (targetsOf c) with
  | some f => endCommand c.id f.1 f.2 s
  | none =>
    let s1 := stageStep c s
    match s1.cmd c.id, (imageBytes c s1).2 with
    | some d, .bytes img => if d.phase = .running ∧ d.stepNo = 1 then installStage d img s1 else s1
    | _, _ => s1

/-- A later stage of the same image follows the one it waits for (R269): a version that has come to be staged commits it,
and a stage that failed ends it with the same status. While the other has not retired it waits. -/
def followStage (c : Cmd) (s : State) : Option State :=
  match c.waits with
  | [] => none
  | w :: _ =>
    match s.cmd w with
    | some d =>
      if d.phase = .committed then some (commitAs c.id ST_OK d.detail d.result s)
      else if d.phase = .ended ∧ d.status ≠ ST_ABORTED then some (endCommand c.id d.status d.detail s)
      else some s
    | none =>
      match versionOf s (cmdPart c) (c.p8 0x10) (c.p4 0x18) with
      | some v => some (commitAs c.id ST_OK 0 (variantWord v.variants) s)
      | none => none

/-! ### PKG_ACTIVATE and PKG_RETIRE (R271, R272) -/

def pkgFields : List (Nat × Nat) := [(0x10, 8), (0x18, 4), (0x1C, 1)]

/-- Sessions of a package, open or parked. -/
def pkgSessions (s : State) (p : Part) (id : Nat) : Bool := (s.part p).sessions.any fun x => x.pkg.toNat == id

def activateCheck (c : Cmd) (s : State) : Fail :=
  let p := cmdPart c
  let id := c.p8 0x10
  firstFail [reserved c pkgFields, param 0x1C (decide (c.p1 0x1C ≤ 1)),
    match versionOf s p id (c.p4 0x18) with
    | none => none
    | some v => quarantineFail s v.targets,
    match versionOf s p id (c.p4 0x18) with
    | none => some (ST_NO_PACKAGE, 0)
    | some v => if v.retiring then some (ST_NO_PACKAGE, 0) else
      match activeVer s p id with
      | none => none
      | some a => if (iCacheSig a.manifest ≠ iCacheSig v.manifest ∨ iIoSig a.manifest ≠ iIoSig v.manifest) ∧
          pkgSessions s p id then some (ST_BAD_PARAM, 0) else none]

/-- Retire a version: freed at once when idle, marked retiring while bound; answers 0 or 1. -/
def retireVersion (p : Part) (v : Version) (s : State) : State × Nat :=
  let s1 := s.modPart p fun q => { q with active := q.active.filter fun a => !(a.1 == v.pkg && a.2 == v.ver) }
  if boundTo s1 p v.pkg v.ver then (modVersion p v.pkg v.ver (fun w => { w with retiring := true }) s1, 1)
  else (freeAdapters p (freeVersion p v s1), 0)

def activateAct (c : Cmd) (s : State) : State :=
  let p := cmdPart c
  let id := c.p8 0x10
  let ver := BitVec.ofNat 32 (c.p4 0x18)
  let s1 := acceptAs c.id (fun d => { d with span := ((versionOf s p id ver.toNat).map Version.targets).getD [] }) s
  let old := activeVer s1 p id
  let same := (old.map fun v => v.ver == ver).getD false
  let s2 := if same then s1 else
    let s3 := s1.modPart p fun q => { q with
      active := (BitVec.ofNat 64 id, ver) :: q.active.filter fun a => a.1.toNat != id }
    match old with
    | none => s3
    | some v => if c.p1 0x1C = 1 then s3 else (retireVersion p v s3).1
  commitAs c.id ST_OK ver.toNat [] s2

def execPkgActivate (r : Ring) (_ : Choice) (s : State) : Host.Outcome State Fault Refusal :=
  live s (process 0x11 r (quiet activateCheck) activateAct)

/-- Is a stage of the version in progress? Then PKG_RETIRE waits for it (R269). -/
def beingStaged (s : State) (c : Cmd) : Bool :=
  s.cmds.any fun d => d.opcode == 0x10 && d.live && d.part == c.part && d.p8 0x10 == c.p8 0x10 && d.p4 0x18 == c.p4 0x18

def retireCheck (c : Cmd) (s : State) : Fail :=
  firstFail [reserved c pkgFields, param 0x1C (c.p1 0x1C == 0),
    match versionOf s (cmdPart c) (c.p8 0x10) (c.p4 0x18) with
    | none => if beingStaged s c then none else some (ST_NO_PACKAGE, 0)
    | some v => quarantineFail s v.targets]

/-- PKG_RETIRE's work, once no stage of the version is in progress. -/
def retireWork (c : Cmd) (s : State) : State :=
  if beingStaged s c then s
  else match versionOf s (cmdPart c) (c.p8 0x10) (c.p4 0x18) with
    | none => endCommand c.id ST_NO_PACKAGE 0 s
    | some v =>
      let r := retireVersion (cmdPart c) v s
      commitAs c.id ST_OK r.2 [] r.1

def execPkgRetire (r : Ring) (_ : Choice) (s : State) : Host.Outcome State Fault Refusal :=
  live s (process 0x12 r (quiet retireCheck) fun c s => retireWork c (acceptAs c.id id s))

/-! ### Adapters (R274 to R276) -/

/-- The version an adapter is loaded against: the active one, else the most recently staged. -/
def baseVersion (s : State) (p : Part) (id : Nat) : Option Version :=
  match activeVer s p id with
  | some v => some v
  | none => ((s.part p).versions.filter fun v => v.pkg.toNat == id).getLast?

def loadCheck (c : Cmd) (s : State) : Fail :=
  firstFail [reserved c [(0x10, 8), (0x18, 8), (0x20, 4), (0x24, 1), (0x26, 2), (0x28, 8)], param 0x18 (c.p8 0x18 != 0),
    restFail s c 0x24 0x26 0x28,
    quarantineFail s (((baseVersion s (cmdPart c) (c.p8 0x10)).map Version.targets).getD []),
    if (baseVersion s (cmdPart c) (c.p8 0x10)).isNone then some (ST_NO_PACKAGE, 0) else none]

def loadAct (ch : Choice) (c : Cmd) (s : State) : State :=
  acceptAs c.id (fun d => { d with
    ch := ch, span := ((baseVersion s (cmdPart c) (c.p8 0x10)).map Version.targets).getD [] }) s

def execAdapterLoad (r : Ring) (ch : Choice) (s : State) : Host.Outcome State Fault Refusal :=
  live s (process 0x13 r (quiet loadCheck) (loadAct ch))

/-- An adapter image against its base (R274). -/
def adapterOk (img : List Byte) (base : Version) : Bool :=
  iSlots img == 0 && iPositions img == iPositions base.manifest && iParts img == iParts base.manifest &&
  iIoSig img == iIoSig base.manifest &&
  (List.range (iPositions img)).all (fun p =>
    ((sections img).filter fun x => x.type == 3 && x.pos == p).length == 1) &&
  decide (iTotal img - iManifest img - (((sections img).filter fun x => x.type == 7).foldl (fun k x => k + x.tiles) 0)
    ≤ iAdTiles base.manifest)

/-- The adapter's weights for each target: position, region and the tile firmware gives them. -/
def adapterPlaces (c : Cmd) (img : List Byte) (base : Version) : List (Section × Extent) :=
  (List.range base.targets.length).filterMap fun i =>
    ((sections img).find? fun x => x.type == 3 && x.pos == i).map fun x =>
      (x, ⟨base.targets.getD i 0, 1, (c.ch.places.getD i noPlacement).base, x.tiles⟩)

def copyAdapter (img : List Byte) : List (Section × Extent) → State → State
  | [], s => s
  | (x, e) :: l, s => copyAdapter img l (writeTiles none e.rgn 1 e.first (sectionBytes img x) e.tiles s)

/-- Slots of a base that are taken: by loaded versions of adapters, and by loads in progress. -/
def slotsUsed (s : State) (p : Part) (base : Word) (id : Nat) : List Nat :=
  (((s.part p).adapters.filter fun a => a.base == base).map Adapter.slot) ++
  (s.cmds.filter fun d => d.opcode == 0x13 && d.live && d.stepNo == 1 && d.id != id && d.part == some p && d.p8 0x10 == base.toNat).map Cmd.slot

/-- A slot from 1 to ADAPTER_SLOTS and the tiles of every target are reserved once the manifest has been read (Table 10.6, R274, R275). -/
def reserveLoad (c : Cmd) (base : Version) (img : List Byte) (s : State) : State :=
  let p := cmdPart c
  let exts := (adapterPlaces c img base).map Prod.snd
  let used := slotsUsed s p base.pkg c.id
  let free := (List.range (iSlots base.manifest)).filter fun k => !used.contains (k + 1)
  if ¬ adapterOk img base then endCommand c.id ST_BAD_PARAM 0 s
  else if ¬ quotaOk s p 1 (tilesIn 1 exts) then endCommand c.id ST_QUOTA 1 s
  else if ¬ (exts.all (isFree s) ∧ disjoint exts ∧ 1 ≤ c.ch.slot ∧ free.contains (c.ch.slot - 1)) then
    (if roomFor exts s ∧ ¬ free.isEmpty then s else endCommand c.id ST_ADMIT_MEMORY 0 s)
  else s.modCmd c.id fun d => { d with
    extents := exts, resv := exts.map fun e => (e.rgn, e.tier, e.tiles), slot := c.ch.slot, stepNo := 1 }

def loadStep (c : Cmd) (s : State) : State :=
  if c.phase ≠ .running ∨ c.stepNo ≠ 0 then s
  else match baseVersion s (cmdPart c) (c.p8 0x10) with
    | none => endCommand c.id ST_NO_PACKAGE 0 s
    | some base => imageStep c (c.p8 0x18) (c.p4 0x20) [] (reserveLoad c base) s

/-- The copy of an adapter whose slot is reserved, its digests, and the new version takes over (R276). -/
def installAdapter (c : Cmd) (img : List Byte) (base : Version) (s : State) : State :=
  let p := cmdPart c
  let ps := adapterPlaces c img base
  if ¬ adapterOk img base then endCommand c.id ST_BAD_PARAM 0 s
  else if let some f := faultIn c img [3] then endCommand c.id f 0 s
  else if ¬ (ps.map Prod.fst).all (digestOk img) then authFail c.id s
  else
    let id := BitVec.ofNat 64 (iPkg img)
    let ver := BitVec.ofNat 32 (iVer img)
    let f := fun (a : Adapter) => if a.base = base.pkg ∧ a.id = id then { a with dropped := true } else a
    let s1 := addAllocs p (c.extents.map fun e => ⟨e, .adapter base.pkg id ver c.slot⟩) (copyAdapter img ps s)
    let s2 := s1.modPart p fun q => { q with adapters := q.adapters.map f ++ [⟨base.pkg, id, ver, c.slot, false⟩] }
    freeAdapters p (commitAs c.id ST_OK c.slot [] s2)

def loadWork (c : Cmd) (s : State) : State :=
  match baseVersion s (cmdPart c) (c.p8 0x10) with
  | none => endCommand c.id ST_NO_PACKAGE 0 s
  | some base =>
    match quarantineFail s base.targets with
    | some f => endCommand c.id f.1 f.2 s
    | none =>
      let s1 := loadStep c s
      match s1.cmd c.id, (imageBytes c s1).2 with
      | some d, .bytes img => if d.phase = .running ∧ d.stepNo = 1 then installAdapter d img base s1 else s1
      | _, _ => s1

/-- The steps of a stage or load that what has been read allows. -/
def imageSteps (id : Nat) (s : State) : State :=
  match s.cmd id with
  | none => s
  | some c => if c.opcode = 0x10 then stageStep c s else if c.opcode = 0x13 then loadStep c s else s

def execSignatureVerify (id : Nat) (s : State) : Host.Outcome State Fault Refusal :=
  live s fun s => imageSteps id (verifySignature id s)

def dropCheck (c : Cmd) (s : State) : Fail :=
  firstFail [reserved c [(0x10, 8), (0x18, 8)],
    if (loadedAdapter s (cmdPart c) (c.p8 0x10) (c.p8 0x18)).isNone then some (ST_NO_PACKAGE, 0) else none]

def dropAct (c : Cmd) (s : State) : State :=
  let p := cmdPart c
  match loadedAdapter s p (c.p8 0x10) (c.p8 0x18) with
  | none => s
  | some a =>
    let f := fun (x : Adapter) => if x = a then { x with dropped := true } else x
    let s1 := (acceptAs c.id id s).modPart p fun q => { q with adapters := q.adapters.map f }
    freeAdapters p (commitAs c.id ST_OK a.slot [] s1)

def execAdapterDrop (r : Ring) (_ : Choice) (s : State) : Host.Outcome State Fault Refusal :=
  live s (process 0x14 r (quiet dropCheck) dropAct)

end Sys2Proof.Machine
end

