-- ==== Sys2Proof/Machine/SeqStart.lean ====
section
/-!
DEFINITION. Starting a plan (R136, R146, R166, R231, R244): what the sequencer, the tile mover and the dispatcher take at
command start.
-/

namespace Sys2Proof.Machine

/-- The last entry of the table (Table 5.1). -/
def seqLast : Nat := 16383

def semAddr (n : Rgn) (i : Nat) : Nat := Reg.SYNC_SEM n i

/-- Every semaphore to 0, then the plan's initial values in order (R146). -/
def initSems (n : Rgn) (base : Nat) (s : State) : State :=
  let s1 := (List.range 256).foldl (fun t i => t.setReg (semAddr n i) 0) s
  (List.range (min 256 (planSemRows s n base))).foldl (fun t k =>
    t.setReg (semAddr n (planNat t n base (0x440 + 8 * k) 1)) (BitVec.ofNat 64 (planNat t n base (0x444 + 8 * k) 4))) s1

/-- The walk list of walk window `k`, when it is enabled. -/
def walkBytes (s : State) (n : Rgn) (k : Nat) : List Byte :=
  if s.flag (Reg.KV_WALK_CFG n k) Reg.KV_WALK_CFG_EN then
    s.load (nearAddr n (4096 * s.fld (Reg.KV_WALK_LIST n k) Reg.KV_WALK_LIST_TILE)) 4096
  else []

/-- The route jobs MOE_JOBS names. -/
def takeJobs (s : State) (n : Rgn) : List (List Byte) :=
  let t := s.fld (Reg.MOE_JOBS n) Reg.MOE_JOBS_TILE
  (List.range (min 256 (s.fld (Reg.MOE_JOBS n) Reg.MOE_JOBS_COUNT))).map fun j => s.load (nearAddr n (4096 * t + 64 * j)) 64

/-- Does a byte range of a region's near tier hold a poisoned line? -/
def nearPoisoned (s : State) (n off k : Nat) : Bool :=
  let a := nearAddr n off
  s.poison.any fun l => decide (a / 64 ≤ l) && decide (l < (a + k + 63) / 64)

/-- An uncorrectable near line: counted and reported by the controller (R178). -/
def nearUe (n : Rgn) (cmd : Option Nat) (off : Nat) (s : State) : State :=
  raiseWith ST_TIER_ERROR (rgnSrc n.val 32) false ⟨cmd, hereGta s n 1 (off / 4096 * 4096), 0⟩ (s.bump (Reg.NEAR_ECC n) Reg.NEAR_ECC_UE 1)

/-- Ranges of the near tier read at command start: the walk lists and the route jobs (R231, R244). -/
def takenRanges (s : State) (n : Rgn) : List (Nat × Nat) :=
  ((List.range 4).filter fun k => s.flag (Reg.KV_WALK_CFG n k) Reg.KV_WALK_CFG_EN).map
    (fun k => (4096 * s.fld (Reg.KV_WALK_LIST n k) Reg.KV_WALK_LIST_TILE, 4096)) ++
  [(4096 * s.fld (Reg.MOE_JOBS n) Reg.MOE_JOBS_TILE, 64 * min 256 (s.fld (Reg.MOE_JOBS n) Reg.MOE_JOBS_COUNT))]

/-- Where one of them cannot be read (R178, R254). -/
def takenBad (s : State) (n : Rgn) : Option Nat :=
  ((takenRanges s n).find? fun r => decide (0 < r.2) && nearPoisoned s n.val r.1 r.2).map Prod.fst

/-- A write of SEQ_CTRL.GO, or firmware's start of a command's plan: ignored while a plan runs. -/
def seqStart (n : Rgn) (s : State) : State :=
  if s.flag (Reg.SEQ_STATUS n) Reg.SEQ_STATUS_RUNNING then s
  else
    let base := 4096 * s.fld (Reg.SEQ_TABLE_BASE n) Reg.SEQ_TABLE_BASE_BASE
    let row := s.fld (Reg.SEQ_CTRL n) Reg.SEQ_CTRL_START_ROW
    let q : SeqSt := { SeqSt.reset with
      cmd := (s.rgn n).plan, table := base, waitLimit := startWaitLimit s n base row, loads := (s.rgn n).seq.loads,
      shapes := (List.range 8).map fun i => BitVec.ofNat 32 (s.fld (Reg.SEQ_SHAPE n i) Reg.SEQ_SHAPE_VALUE),
      wins := (List.range 16).map fun j => (s.reg (Reg.TM_WIN_LO n j), s.reg (Reg.TM_WIN_HI n j)),
      walks := (List.range 4).map fun k => (s.reg (Reg.KV_WALK_CFG n k), s.fld (Reg.KV_WALK_LIST n k) Reg.KV_WALK_LIST_TILE),
      lists := (List.range 4).map (walkBytes s n), jobs := takeJobs s n,
      past := decide (seqLast < startEntry s n base row) }
    let s1 := (initSems n base s).modRgn n fun r => { r with seq := q, stepAt := s.now, stalled := false }
    let st := Reg.SEQ_STATUS_RUNNING.put (Reg.SEQ_STATUS_PC.put (s.reg (Reg.SEQ_STATUS n)) (startEntry s n base row)) 1
    let st := Reg.SEQ_STATUS_WAIT_KIND.put (Reg.SEQ_STATUS_DONE.put st 0) 0
    let s2 := (s1.setReg (Reg.SEQ_STATUS n) st).setReg (Reg.SEQ_LOOP n) 0
    (s2.setFld (Reg.MOE_STATUS n) Reg.MOE_STATUS_JOB 0).setFld (Reg.MOE_STATUS n) Reg.MOE_STATUS_WAITING (bit (!q.jobs.isEmpty))

end Sys2Proof.Machine
end

