-- ==== Sys2Proof/Machine/Lifecycle.lean ====
section
/-!
DEFINITION. The life of an accepted command (R300 to R304, R313 to R325, R265, R298): dispatch, pre-emption, abort,
commit, deadlines, re-selection of a variant and retirement.
-/

namespace Sys2Proof.Machine

/-! ### Starting a command (R154, R313, R317) -/

/-- Migration of the region from its stand-in is in progress (R375). -/
def migrating (s : State) (n : Nat) : Bool := s.flag (Reg.BOOT_RGN n) Reg.BOOT_RGN_MIGRATING

/-- Is a region free for a plan: none runs, its sequencer is idle, no flush, migration or reload runs, its blocks and services
are on? -/
def rgnFree (s : State) (n : Nat) : Bool :=
  decide (n < 16) &&
  let r : Rgn := Fin.ofNat 16 n
  !migrating s n && (s.rgn r).plan.isNone && !s.flag (Reg.SEQ_STATUS r) Reg.SEQ_STATUS_RUNNING &&
  s.fld (Reg.CTX_FLUSH r) Reg.CTX_FLUSH_FLUSHING == 0 && s.domOn (rgnDom n) && !s.quarantined r &&
  ((List.range 9).all fun b => blockState s r b == 1 || blockState s r b == 3) &&
  (s.rgn r).ballast.isNone && (s.rgn r).seq.loads.all fun o => o.ext || o.cmd.isSome

/-- The command that holds region `n`: the first waiting one in the order of R316 that spans it. -/
def holder (n : Nat) : List Cmd → Option Cmd
  | [] => none
  | c :: cs =>
    if c.span.contains n then
      match holder n cs with
      | none => some c
      | some d => if before d c then some d else some c
    else holder n cs

def holds (s : State) (p : Part) (c : Cmd) (n : Nat) : Bool :=
  match holder n (waitingRuns s p) with
  | some d => d.id == c.id
  | none => false

/-- Plan-free commands that occupy a region: started and not yet retired. -/
def freeRunning (s : State) (n : Nat) : Nat :=
  (s.cmds.filter fun c => isFreeOp c.opcode && c.span.contains n && decide (0 < c.planStart) &&
    (c.phase == .running || c.phase == .committed || c.phase == .ended)).length

/-- A plan-free command may start: in acceptance order, fewer than four in each of its regions, and for a stage no
earlier stage of a target still to end (R269). -/
def freeMayStart (s : State) (c : Cmd) : Bool :=
  c.span.all (fun n => !migrating s n && decide (freeRunning s n < 4) &&
    !(s.cmds.any fun d => isFreeOp d.opcode && d.phase == .accepted && decide (d.seq < c.seq) && d.part == c.part &&
        d.span.contains n && d.waits.isEmpty)) &&
  (c.opcode != 0x10 || !(s.cmds.any fun d => d.opcode == 0x10 && d.live && decide (d.seq < c.seq) &&
    d.span.any fun n => c.span.contains n))

/-- The adapter version that a command is bound to. -/
def boundAdapter (c : Cmd) : Option Adapter :=
  match c.pkg, c.adapter with
  | some b, some a => some ⟨b.1, a.1, a.2.1, a.2.2, false⟩
  | _, _ => none

/-- What a region takes at the start of a plan is the command's own: its windows, its route jobs and its walk lists are those that it was
bound to at its acceptance, whatever was accepted or has run since (R236, R270, R276; log entry 71). -/
def bindRegion (c : Cmd) (v : Version) (m : Nat) (s : State) : State :=
  loadWalk c c.argBlock [m] (loadRegions c v (boundAdapter c) c.argBlock [m] s)

/-- A walk list or route jobs on a poisoned line: the command ends (R178, R231, R254). -/
def startFails (n : Rgn) (id off : Nat) (s : State) : State :=
  nearUe n (some id) off (tmFail n id 0 1 0 1 off ST_TIER_ERROR s)

/-- Start the plan in one region. -/
def startPlan (c : Cmd) (v : Version) (m : Nat) (s : State) : State :=
  let n : Rgn := Fin.ofNat 16 m
  let s1 := (List.range 8).foldl (fun t i =>
    t.setReg (Reg.SEQ_SHAPE n i) (BitVec.ofNat 64 (shapeAt c.shapes i))) (bindRegion c v m s)
  let s2 := (s1.setReg (Reg.SEQ_TABLE_BASE n) (BitVec.ofNat 64 (planBase v m))).setFld (Reg.SEQ_CTRL n)
    Reg.SEQ_CTRL_START_ROW c.startRow
  let s3 := (s2.setFld (Reg.SRV_STATUS n) Reg.SRV_STATUS_RANK (rank c)).setFld (Reg.SRV_STATUS n) Reg.SRV_STATUS_TAG c.tag
  seqStart n (s3.modRgn n fun r => { r with plan := some c.id })

def startPlans (c : Cmd) (v : Version) : List Nat → State → State
  | [], s => s
  | m :: ms, s => startPlans c v ms (startPlan c v m s)

def markStarted (id : Nat) (s : State) : State :=
  s.modCmd id fun d => { d with phase := .running, planStart := max 1 s.now, done := [], ends := [] }

/-- The regions whose walk lists or route jobs cannot be read. -/
def unreadable (v : Version) (s : State) : List (Rgn × Nat) :=
  v.targets.filterMap fun m => (takenBad s (Fin.ofNat 16 m)).map fun off => (Fin.ofNat 16 m, off)

/-- The tile mover could not take what a plan starts with: the command ends with the first of them. -/
def checkTaken (c : Cmd) (v : Version) (s : State) : State :=
  match unreadable v s with
  | [] => s
  | x :: _ => startFails x.1 c.id x.2 s

/-- Start a plan command whose every region it holds and finds free, and whose selected variants fit (R49, R51, R264). -/
def startRun (c : Cmd) (s : State) : State :=
  match c.part, boundVersion s c with
  | some p, some v =>
    if versionFits s v ∧ c.span.all (fun n => holds s p c n && rgnFree s n) then
      checkTaken c v (startPlans c v v.targets (markStarted c.id s))
    else s
  | _, _ => s

/-- A companion source is asked for its first tile. -/
def primeRead (c : Cmd) (s : State) : State :=
  if c.opcode = 0x42 then
    (if copyFromCompanion c then feedTile c (c.p8 0x18) false (4096 * c.p4 0x28) s else s)
  else if c.opcode = 0x10 ∨ c.opcode = 0x13 then feedImage c s
  else s

/-- Start a plan-free command; firmware's placement comes with the start, and a stage or load that has not yet reserved its space takes
another. -/
def startFree (c : Cmd) (ch : Choice) (s : State) : State :=
  if c.phase = .accepted ∧ freeMayStart s c then
    let c' := if c.opcode = 0x10 ∨ c.opcode = 0x13 then { c with ch := ch } else c
    match if c.opcode = 0x10 then followStage c s else none with
    | some t => t
    | none => primeRead c' (markStarted c.id (s.modCmd c.id fun d => { d with ch := c'.ch, waits := [] }))
  else if c.phase = .running ∧ c.stepNo = 0 ∧ (c.opcode = 0x10 ∨ c.opcode = 0x13) then s.modCmd c.id fun d => { d with ch := ch }
  else s

/-! ### COMMIT (R300, R301, R322, R290) -/

/-- Lengths after a run (R235). -/
def commitRow (p : Part) (spec : Bool) (h : BitVec 32) (new : Nat) (s : State) : State :=
  modSession p h (fun x => if spec then { x with wlen := x.len + new } else { x with len := x.len + new, wlen := x.len + new }) s

def commitRows (p : Part) (spec : Bool) : List (BitVec 32 × Nat × Nat) → State → State
  | [], s => s
  | r :: rs, s => commitRows p spec rs (commitRow p spec r.1 r.2.1 s)

/-- L_OUT and W_OUT of every session row, written into the block. -/
def outRows (s : State) (p : Part) : List (BitVec 32 × Nat × Nat) → Nat → List Byte → List Byte
  | [], _, b => b
  | r :: rs, i, b =>
    let x := (s.part p).sessions.find? fun y => y.handle == r.1
    let l := (x.map Session.len).getD 0
    let w := (x.map Session.wlen).getD 0
    outRows s p rs (i + 1) (splice b (0x88 + 16 * i) (leBytes 4 l ++ leBytes 4 w))

/-- Write the session rows of the block back, 64 bytes at a time. -/
def writeArgs (c : Cmd) (b : List Byte) (s : State) : State :=
  if c.rows.isEmpty then s
  else if bufLoc (c.p8 0x10) = 0 then
    writeBuf c none (c.p8 0x10) 0x80 (slice b 0x80 (64 * ((16 * c.rows.length + 63) / 64))) s
  else writeBuf c none (c.p8 0x10) 0 b s

/-- Keep the cost of a committed run in a region, the last 64 of a start row (R322). -/
def keepCost (c : Cmd) (p : Part) (x : Nat × Nat) (s : State) : State :=
  match c.pkg, itersOf c x.1 with
  | some b, some k =>
    if k = 0 then s
    else
      let old := ((costOf s p b.1 b.2 c.startRow x.1).map Cost.runs).getD []
      s.modPart p fun q => { q with
        costs := ⟨b.1, b.2, c.startRow, x.1, ((x.2, 1000 * k) :: old).take 64⟩ ::
          q.costs.filter fun y => !(y.pkg == b.1 && y.ver == b.2 && y.row == c.startRow && y.rgn == x.1) }
  | _, _ => s

def keepCosts (c : Cmd) (p : Part) : List (Nat × Nat) → State → State
  | [], s => s
  | x :: xs, s => keepCosts c p xs (keepCost c p x s)

/-- Commit of a plan command: every region has ended its plan and no poison flag was set. -/
def runWork (c : Cmd) (s : State) : State :=
  match c.part, boundVersion s c with
  | some p, some v =>
    if v.targets.all (fun n => c.done.contains n) then
      if c.poisoned then
        (if c.poisonRerun ∨ c.remote then endCommand c.id ST_INTERNAL 0 s else rerunCommand c.id false s)
      else
        let s1 := commitRows p ((c.p1 0x19).testBit 0 && c.opcode == 0x22) c.rows s
        let s2 := keepCosts c p c.ends (writeArgs c (outRows s1 p c.rows 0 c.argBlock) s1)
        let r := runReply s2 c c.argBlock
        commitAs c.id ST_OK r.1 r.2 s2
    else s
  | _, _ => s

/-- COMMIT: the commit arbiter applies the effects of a command whose work is finished, in one step. The work of a
command that runs no plan is done here. -/
def commitCmd (id : Nat) (s : State) : State :=
  match s.cmd id with
  | none => s
  | some c =>
    if s.fatal then s
    else if c.phase = .running then
      if isRunOp c.opcode then runWork c s
      else if c.opcode = 0x10 then stageWork c s
      else if c.opcode = 0x13 then loadWork c s
      else if isCopyOp c.opcode then
        (if c.rdErr.isNone ∧ ¬ copiesDone c s then s
         else if c.opcode = 0x24 then parkWork c s
         else if c.opcode = 0x25 then resumeWork c s
         else copyWork c s)
      else s
    else if c.phase = .accepted then
      if c.opcode = 0x41 then freeWork c s
      else if c.opcode = 0x12 then retireWork c s
      else s
    else s

/-! ### Undefined content (R302, R320) -/

/-- Is a tile of a fold channel mapped? One that is not reads as zeros whatever was sent to it (R198). -/
def foldMapped (s : State) (n tile : Nat) : Bool :=
  (s.rgns.toList.getD n Region.reset).fold.units.any fun u => u.unit == tile / 4 && u.mask.getLsbD (tile % 4)

/-- Content that an ended command leaves undefined becomes free values (R302). -/
def scramble (p : Option Part) (n tier first : Nat) : Nat → State → State
  | 0, s => s
  | k + 1, s => scramble p n tier (first + 1) k
      (if tier = 3 ∧ ¬ foldMapped s n first then s else writeTile p n tier first (freeTile s.free) { s with free := s.free + 1 })

def scrambleAll (p : Option Part) : List Extent → State → State
  | [], s => s
  | e :: es, s => scrambleAll p es (if e.tier = 1 ∨ e.tier = 2 ∨ e.tier = 3 then scramble p e.rgn e.tier e.first e.tiles s else s)

/-- The bytes of a page block that hold positions from `k` of its page on take free values: the layout of a page (R226) is not in the
image, so which they are is a free value of its CACHE_SIG (log entry 85). -/
def scramblePage (sig : List Byte) (n pb k t : Nat) (s : State) : State :=
  let a := nearAddr n (4096 * t)
  let f := fun (x : Byte × Nat) => if k ≤ Config.pagePosition sig x.2 % 16 then Config.freeByte s.free x.2 else x.1
  { (s.store a ((s.load a (4096 * pb)).zipIdx.map f)) with free := s.free + 1 }

/-- The pages of a table from a length on. -/
def scramblePages (sig : List Byte) (n pb len : Nat) : List (Nat × Nat) → State → State
  | [], s => s
  | (t, i) :: l, s => scramblePages sig n pb len l (if 16 * i + 16 ≤ len then s else scramblePage sig n pb (len - 16 * i) t s)

/-- The cache entries beyond W of a command's sessions are undefined (R302, R320). -/
def scrambleCache (c : Cmd) (s : State) : State :=
  let sig := ((boundVersion s c).map fun v => iCacheSig v.manifest).getD []
  c.rows.foldl (fun t r => match c.part.bind fun p => (t.part p).sessions.find? fun x => x.handle == r.1 with
    | none => t
    | some x => x.tables.foldl (fun u y => scramblePages sig y.rgn y.pb x.wlen y.pages.zipIdx u) t) s

/-- What a killed or ended plan has written is undefined: its I/O windows and its cache entries beyond W (R302, R320). -/
def scrambleRun (c : Cmd) (s : State) : State := scrambleCache c (scrambleAll c.part (windowExtents c) s)

/-! ### JOB_ABORT and ABORT_REQUEST (R303, R304, R320) -/

/-- The unretired command of the same client that JOB_ABORT names: of its partition, or else of the management ring, whose FW_STAGE
Table 11.4 makes abortable (log entry 146). -/
def abortTarget (s : State) (c : Cmd) : Option Cmd :=
  let named := fun (d : Cmd) => d.unretired && d.id != c.id && d.client == c.client && d.tag == c.p2 0x10
  match s.cmds.find? fun d => named d && ringPart d.ring == ringPart c.ring with
  | some d => some d
  | none => s.cmds.find? fun d => named d && d.ring == .mgmt

def abortCheck (c : Cmd) (_ : State) : Fail := reserved c [(0x10, 2)]

/-- JOB_ABORT: late at once with no target or one that is not abortable, else its abort request is on its way. -/
def abortAct (c : Cmd) (s : State) : State :=
  let s1 := acceptAs c.id id s
  match abortTarget s c with
  | none => commitAs c.id ST_ABORT_LATE 2 [] s1
  | some d =>
    if abortable d.opcode then
      (s1.modCmd c.id fun x => { x with phase := .running, waits := [d.id], planStart := max 1 s.now })
    else commitAs c.id ST_ABORT_LATE 3 [] s1

def execJobAbort (r : Ring) (_ : Choice) (s : State) : Host.Outcome State Fault Refusal :=
  live s (process 0x31 r (quiet abortCheck) abortAct)

/-- JOB_ABORTs whose request names a target. -/
def abortsOf (s : State) (id : Nat) : List Nat :=
  (s.cmds.filter fun c => c.opcode == 0x31 && c.phase == .running && c.waits.contains id).map Cmd.id

/-- A waiting command that R318 has kill the running one: it holds a region in which that one's plan runs. -/
def preemptor (s : State) (p : Part) (c : Cmd) : Bool :=
  (waitingRuns s p).any fun w => w.id != c.id && wouldKill s p w c &&
    allRgns.any fun n => holds s p w n.val && (s.rgn n).plan == some c.id

/-- A kill is counted in each region of the span. -/
def countKill (ns : List Nat) (s : State) : State :=
  ns.foldl (fun t m => t.bump (Reg.SRV_STATUS (Fin.ofNat 16 m)) Reg.SRV_STATUS_KILLS 1) s

/-- End the abort's own command: aborted, or late because the target committed first. -/
def endAborts (late : Bool) : List Nat → State → State
  | [], s => s
  | a :: l, s => endAborts late l (commitAs a (if late then ST_ABORT_LATE else ST_OK) (if late then 1 else 0) [] s)

/-- An abort or end request reaches the home arbiter of its target: the target commits first or ends; without a
JOB_ABORT it is a kill for pre-emption, where R318 to R321 allow one. -/
def abortArrives (id : Nat) (s : State) : State :=
  match s.cmd id with
  | none => endAborts true (abortsOf s id) s
  | some c =>
    let as := abortsOf s id
    if ¬ as.isEmpty then
      if c.live then endAborts false as (endCommand id ST_ABORTED 0 s) else endAborts true as s
    else match c.part with
      | none => s
      | some p =>
        if c.phase = .running ∧ preemptor s p c then rerunCommand id true (scrambleRun c (countKill c.span s)) else s

def execAbortRequest (id : Nat) (s : State) : Host.Outcome State Fault Refusal := live s (abortArrives id)

/-! ### DEADLINE_PASS (R325) -/

def deadlinePasses (id : Nat) (s : State) : State :=
  match s.cmd id with
  | none => s
  | some c =>
    if c.unretired ∧ c.deadline ≠ 0 ∧ ¬ c.missed ∧ dueAt c ≤ s.now ∧ c.home < 16 then
      (s.modCmd id fun d => { d with missed := true }).bump (Reg.SRV_STATUS (Fin.ofNat 16 c.home)) Reg.SRV_STATUS_MISSED 1
    else s

def execDeadlinePass (id : Nat) (s : State) : Host.Outcome State Fault Refusal := live s (deadlinePasses id)

/-! ### VARIANT_RESELECT (R49, R51, R265) -/

/-- Take a version out of service in a region, and so altogether, since it runs in all its regions: it loses its activity and is retired
(R49, R51). -/
def retireFrom (p : Part) (v : Version) (s : State) : State := (retireVersion p v s).1

def misfit (s : State) (v : Version) (n : Rgn) : Bool :=
  v.targets.contains n.val && !variantFits s (v.records.getD (variantAt v (posOf v n.val)) []) (posOf v n.val) n.val

/-- Where the contexts of variant `k` go when a version is switched to it: the entries that its old variant gives up, else the lowest
free ones, and the lowest room (log entry 149). -/
def reselectPlace (n : Rgn) (v : Version) (k : Nat) (s : State) : Option (List (Nat × Nat)) :=
  let pos := posOf v n.val
  let cs := contexts (placedAt v pos) k
  let old := v.dirs.getD pos []
  let taken := dirsTaken (clearDirs n old s) n 0
  let first : DirHold := { taken with entries := taken.entries ++ (List.range 64).filter fun i => !old.contains i }
  match placeDirs first cs with
  | some l => some l
  | none => placeDirs taken cs

/-- Switch a version to variant `k` in a region (R265): its contexts are copied from package space into the context store, and their
directory entries replace those of the old variant; MOE_JOBS and SEQ_TABLE_BASE follow. Without room for them the variant cannot
serve. -/
def useVariant (n : Rgn) (p : Part) (v : Version) (k : Nat) (s : State) : State :=
  match reselectPlace n v k s with
  | none => retireFrom p v s
  | some l =>
    let pos := posOf v n.val
    let cs := contexts (placedAt v pos) k
    let s1 := clearDirs n (v.dirs.getD pos []) s
    let v' := { v with variants := v.variants.set pos k, dirs := v.dirs.set pos (l.map Prod.fst),
                       dirTiles := v.dirTiles.set pos (l.map Prod.snd) }
    let s2 := modVersion p v.pkg v.ver (fun _ => v') (fillDirs n (cs.zip l) s1)
    (loadJobs v' n s2).setReg (Reg.SEQ_TABLE_BASE n) (BitVec.ofNat 64 (planBase v' n.val))

/-- Firmware selects again for a version whose selected variant no longer fits a region: the lowest that fits, or the version is retired. -/
def reselectIn (n : Rgn) (p : Part) (v : Version) (s : State) : State :=
  match selectVariant s v.records (posOf v n.val) n.val with
  | none => retireFrom p v s
  | some k => useVariant n p v k s

/-- Live commands bound to a version. -/
def liveOf (s : State) (p : Part) (v : Version) : List Cmd :=
  s.cmds.filter fun c => c.live && c.part == some p && c.pkg == some (v.pkg, v.ver)

/-- VARIANT_RESELECT: the running command of a version that no longer fits is stopped; once its slots are flushed the lowest variant that
fits is put in place, and the command waits to run again. Where none fits the command ends and the version is retired. -/
def reselect (n : Rgn) (id : Nat) (variant : Nat) (s : State) : State :=
  match s.cmd id with
  | none => s
  | some c =>
    match c.part, boundVersion s c with
    | some p, some v =>
      if ¬ c.live ∨ ¬ misfit s v n then s
      else match selectVariant s v.records (posOf v n.val) n.val with
        | none => retireFrom p v (endCommand id ST_NO_PACKAGE 0 s)
        | some k =>
          if k ≠ variant then s
          else if c.phase = .running then rerunCommand id false s
          else if (liveOf s p v).any (fun d => d.phase == .running) ∨
              s.fld (Reg.CTX_FLUSH n) Reg.CTX_FLUSH_FLUSHING ≠ 0 then s
          else useVariant n p v k s
    | _, _ => s

/-- The versions that no longer fit a region and that no live command uses: firmware selects again at once (R49, R51, R265). -/
def settleVersions (n : Rgn) (s : State) : State :=
  (List.finRange 16).foldl (fun t p => ((t.part p).versions.filter fun v => !v.retiring && misfit t v n).foldl
    (fun u v => if (liveOf u p v).isEmpty then reselectIn n p v u else u) t) s

def execVariantReselect (n : Rgn) (id : Nat) (variant : Fin 16) (s : State) : Host.Outcome State Fault Refusal :=
  live s (reselect n id variant.val)

/-! ### COMMAND_RETIRE (R185, R238, R298, R302) -/

/-- Ended or committed, no request of it outstanding at a controller, no flush of its regions running, and nothing it
must follow still there. -/
def mayRetire (s : State) (c : Cmd) : Bool :=
  (c.phase == .ended || c.phase == .committed) &&
  allRgns.all (fun (n : Rgn) => !((s.rgn n).reqs.any fun q => q.cmd == some c.id && !(q.killed && q.remote.isSome))) &&
  c.span.all (fun n => decide (16 ≤ n) || c.phase == .committed ||
    s.fld (Reg.CTX_FLUSH (Fin.ofNat 16 n)) Reg.CTX_FLUSH_FLUSHING == 0) &&
  c.waits.all (fun w => !(s.cmds.any fun d => d.id == w))

/-- The edit at the end of a command without commit: page blocks beyond W go (R185, R235, R237). -/
def cutTable (p : Part) (x : Session) (t : PageTable) (s : State) : State :=
  let k := pagesOf x.wlen
  if k < t.pages.length then
    match lowestFree s t.rgn 1 (tableTiles k) with
    | none => modSession p x.handle (fun y => { y with trim := true }) s
    | some tile => editTable p x.handle t.rgn t.grp (t.pages.take k) tile s
  else s

def cutTables (p : Part) (x : Session) : List PageTable → State → State
  | [], s => s
  | t :: ts, s => cutTables p x ts (cutTable p x t s)

def cutRows (p : Part) : List (BitVec 32 × Nat × Nat) → State → State
  | [], s => s
  | r :: rs, s => cutRows p rs (match (s.part p).sessions.find? fun x => x.handle == r.1 with
    | none => s
    | some x => cutTables p x x.tables s)

/-- What an ended command that had started leaves undefined: TIER_COPY's destination, or what its plan has written. -/
def scrambleEnd (c : Cmd) (s : State) : State :=
  if c.phase ≠ .ended ∨ c.planStart = 0 then s
  else if c.opcode = 0x42 then (if copyAllocs c then s else scrambleAll c.part [copyDst c] s)
  else if isRunOp c.opcode then scrambleRun c s
  else s

/-- Edits that had no free table tile at a command's end are made as soon as one is free (R185, R235). -/
def trimSessions (p : Part) (s : State) : State :=
  ((s.part p).sessions.filter fun x => x.trim && x.st == .opened && !busy s p x.handle).foldl
    (fun t x => cutTables p x x.tables (modSession p x.handle (fun y => { y with trim := false }) t)) s

/-- The earliest of a list of commands in the order of acceptance. -/
def earliest : List Cmd → Option Cmd
  | [] => none
  | c :: cs => match earliest cs with
    | none => some c
    | some d => if d.seq < c.seq then some d else some c

/-- Stages that waited for one that ended without commit (R269): they end with its status; after an abort the earliest of them
runs the stage itself, and the others wait for that one. -/
def endFollowers (c : Cmd) (s : State) : State :=
  if c.opcode = 0x10 ∧ c.phase = .ended then
    let l := s.cmds.filter fun d => d.opcode == 0x10 && d.live && d.waits.contains c.id
    if c.status ≠ ST_ABORTED then (l.map Cmd.id).foldl (fun t i => endCommand i c.status c.detail t) s
    else match earliest l with
      | none => s
      | some e => l.foldl (fun t d => t.modCmd d.id fun x => { x with waits := if d.id = e.id then [] else [e.id] }) s
  else s

/-- What the end of a command leaves to firmware before its record is written. -/
def settleEnd (c : Cmd) (s : State) : State :=
  let s1 := endFollowers c (scrambleEnd c s)
  match c.part with
  | none => s1
  | some p => if c.phase = .ended ∧ isRunOp c.opcode then cutRows p c.rows s1 else s1

def retireCommand (id : Nat) (s : State) : State :=
  match s.cmd id with
  | none => s
  | some c =>
    if mayRetire s c ∧ ¬ s.fatal then
      let s1 := finish c false (settleEnd c s)
      match c.part with
      | none => s1
      | some p => showDeferred (trimSessions p (freeRetired p s1))
    else s

def execCommandRetire (id : Nat) (s : State) : Host.Outcome State Fault Refusal := live s (retireCommand id)

end Sys2Proof.Machine
end

