-- ==== Sys2Proof/Machine/Contexts.lean ====
section
/-!
DEFINITION. Context slots (04_contexts.md): switch orders, credits and sweeps, loads and flushes, and freezing a block.
-/

namespace Sys2Proof.Machine

def modSeq (n : Nat) (f : SeqSt → SeqSt) (s : State) : State := s.modRgn n fun r => { r with seq := f r.seq }

/-! ### Holders (R107) -/

def tokensOf (c : Cell) : List Flit :=
  c.vin.toList.flatten ++ c.sin.toList.flatten ++ c.cin.toList.flatten ++
  (c.vout.toList ++ c.sout.toList ++ c.cout.toList).filterMap id ++ c.outPend.map Prod.snd

/-- Does a cell hold slot `sl`? -/
def Cell.holds (c : Cell) (sl : Nat) : Bool :=
  (tokensOf c).any (fun f => f.slot.val == sl) || (c.slots.toList.getD sl SlotSt.empty).busy ||
  (c.slots.toList.getD sl SlotSt.empty).pc != 0 || (c.pair.any fun t => t.toNat % 4 == sl) ||
  c.bank.any fun b => b.2 == sl

/-- Cells of a region that are not as power-on leaves them. -/
def cellsOf (s : State) (n : Nat) : List (Nat × Cell) := s.cells.filter fun p => p.1 / 576 == n

/-- The tile mover holds a slot while a request issued for it is outstanding or its data is not yet delivered. -/
def moverHolds (s : State) (n : Rgn) (sl : Nat) : Bool :=
  (s.rgn n).reqs.any (fun q => q.slot == some sl && !q.killed) || (s.rgn n).descs.any fun d => d.slot.val == sl && !d.buf.isEmpty

/-- A block switch holds a slot while it buffers a token of it. -/
def switchHolds (s : State) (n : Rgn) (sl b : Nat) : Bool :=
  ((s.rgn n).ctlOut ++ (s.rgn n).sclOut).any fun p => p.1 == b && p.2.slot.val == sl

/-- Credit count of a slot. -/
def credits (s : State) (n : Rgn) (sl : Nat) : Nat :=
  ((cellsOf s n.val).filter fun p => p.2.holds sl).length + bit (moverHolds s n sl) +
  ((List.range 9).filter (switchHolds s n sl)).length

/-- The tile mover or a block switch comes to hold a slot (R108). -/
def touchMover (n : Rgn) (sl : Slot) (s : State) : State :=
  s.modRgn n fun r => { r with touched := r.touched ||| (1#4 <<< sl.val) }

/-- An IDLE slot that is held again is DRAINING (R100). -/
def normSlot (n : Rgn) (sl : Nat) (s : State) : State :=
  if s.slotState n sl = slotIdle ∧ 0 < credits s n sl then s.setSlotState n sl slotDraining else s

def normSlots (n : Rgn) (s : State) : State := normSlot n 3 (normSlot n 2 (normSlot n 1 (normSlot n 0 s)))

/-! ### Drained slots (R108, R109) -/

/-- Regions of a region's partition; itself alone when it is unassigned. -/
def partRgns (s : State) (n : Rgn) : List Rgn :=
  match s.partOf n with
  | some p => maskRgns (s.part p).mask
  | none => [n]

/-- Is slot `sl` held by, or has it been touched at, some holder since the last sweep? -/
def notClean (s : State) (n : Rgn) (sl : Nat) : Bool :=
  (cellsOf s n.val).any (fun p => p.2.holds sl || p.2.touched.getLsbD sl) || moverHolds s n sl ||
  (List.range 9).any (switchHolds s n sl) || (s.rgn n).touched.getLsbD sl

/-- BRIDGE_MASK of the context loaded in a slot. -/
def slotBridges (s : State) (n : Rgn) (sl : Nat) : Nat :=
  let e := s.fld (Reg.CTX_SLOT_STATE n) ⟨24 + 6 * sl, 6, .ro, 0⟩
  let off := 4096 * (s.fld (Reg.CTX_STORE_BASE n) Reg.CTX_STORE_BASE_BASE + s.fld (Reg.CTX_DIR n e) Reg.CTX_DIR_TILE_OFF)
  (s.byte (nearAddr n.val (off + 8))).toNat % 16

/-- Slot named by the RUN entry being run: not yet one that waits at its start for a SYNC load or for its switch order (R105,
R130). -/
def runningSlot (s : State) (n : Rgn) : Option Nat :=
  if s.flag (Reg.SEQ_STATUS n) Reg.SEQ_STATUS_RUNNING ∧ (s.rgn n).seq.phase ≠ .entry ∧ (s.rgn n).seq.order.isNone then
    let e := planEntry s n.val (s.rgn n).seq.table (s.fld (Reg.SEQ_STATUS n) Reg.SEQ_STATUS_PC)
    if eType e = 1 then some (eSlot e) else none
  else none

def cleanCount (s : State) (n : Rgn) (sl : Nat) : Nat := (s.rgn n).clean.toList.getD sl 0

/-- Two consecutive clean sweeps, in every region of the partition for a context that crosses bridges (R109). -/
def drainedHere (s : State) (n : Rgn) (sl : Nat) : Bool := decide (2 ≤ cleanCount s n sl) && runningSlot s n != some sl
/-- Is the slot the active one of a region? -/
def isActive (s : State) (n : Rgn) (sl : Nat) : Bool := s.slotState n sl == slotActive || (s.slotState n sl == slotFlushing && s.activeSlot n == sl)
def drained (s : State) (n : Rgn) (sl : Nat) : Bool :=
  drainedHere s n sl &&
  (slotBridges s n sl == 0 || (partRgns s n).all fun m => m == n || (drainedHere s m sl && !isActive s m sl))

/-! ### Switch orders (R102 to R106) -/

/-- Set the active slot in the cells of a block. -/
def setActive (n : Nat) (sl : Slot) (s : State) : List Nat → State
  | [] => s
  | c :: cs => setActive n sl (s.setCell n c { s.cell n c with active := sl }) cs

def blockCells (b : Nat) : List Nat := (List.range 64).map (· + 64 * b)

def switchBlocks (n : Rgn) (sl : Slot) : List Nat → State → State
  | [], s => s
  | b :: bs, s =>
    switchBlocks n sl bs (
      if (s.rgn n).frozen.getLsbD b then s.modRgn n fun r => { r with missed := r.missed ||| (1#9 <<< b) }
      else setActive n.val sl s (blockCells b))

/-- The root applies a switch order: the active slot of every cell, and the slot states. -/
def applySwitch (n : Rgn) (sl : Slot) (s : State) : State :=
  let old := s.activeSlot n
  let s1 := switchBlocks n sl (List.range 9) s
  let s2 := if old ≠ sl.val ∧ s1.slotState n old = slotActive then
      (s1.modRgn n fun r => { r with activeAt := Vec.modify r.activeAt old fun _ => s.now }).setSlotState n old (if drained s1 n old ∧ ¬ notClean s1 n old then slotIdle else slotDraining)
    else s1
  let s3 := s2.setFld (Reg.CTX_SLOT_STATE n) Reg.CTX_SLOT_STATE_ACTIVE sl.val
  let st := s3.slotState n sl.val
  if st = slotIdle ∨ st = slotDraining then s3.setSlotState n sl.val slotActive else s3

/-- May an order to slot `sl` be released in region `n` (R105)? A load order of the plan for the slot, issued before the entry
that asks for the switch, comes first (R130). -/
def mayRelease (s : State) (n : Rgn) (sl : Nat) : Bool :=
  let st := s.slotState n sl
  (st == slotIdle || st == slotActive || st == slotDraining) && !((s.rgn n).seq.loads.any fun o => o.slot == sl && !o.ext)

/-- SWITCH_ORDER (R102): the sequencer's order is released. -/
def switchOrder (n : Rgn) (s : State) : State :=
  match (s.rgn n).seq.order with
  | some (sl, false) =>
    if mayRelease s n sl then modSeq n.val (fun q => { q with order := none }) (applySwitch n (Fin.ofNat 4 sl) s) else s
  | _ => s

def execSwitchOrder (n : Rgn) (s : State) : Host.Outcome State Fault Refusal := live s (switchOrder n)

def switchAll (sl : Slot) : List Rgn → State → State
  | [], s => s
  | n :: ns, s => switchAll sl ns (applySwitch n sl s)

/-- CHIP_SWITCH_ORDER (R103): the chip switch unit passes the order to every region of the partition. DEDUCED: R105 does not say
in which regions the slot must be ready, and the order takes effect in all of them, so all of them must be (log entry 138). -/
def chipSwitch (n : Rgn) (s : State) : State :=
  match (s.rgn n).seq.order with
  | some (sl, true) =>
    if (partRgns s n).all fun m => mayRelease s m sl then
      modSeq n.val (fun q => { q with order := none }) (switchAll (Fin.ofNat 4 sl) (partRgns s n) s)
    else s
  | _ => s

def execChipSwitchOrder (n : Rgn) (s : State) : Host.Outcome State Fault Refusal := live s (chipSwitch n)

/-! ### SWEEP (R108, R109, R114) -/

def heldBits (f : Nat → Bool) : BitVec 4 :=
  BitVec.ofNat 4 (bit (f 0) + 2 * bit (f 1) + 4 * bit (f 2) + 8 * bit (f 3))

/-- What a slot's sweeps bring about: a flush completes, a draining slot is idle. -/
def settleSlot (n : Rgn) (sl : Nat) (s : State) : State :=
  let flushing := s.flag (Reg.CTX_FLUSH n) (flushingFld sl)
  let st := s.slotState n sl
  if flushing ∧ st ≠ slotLoading then
    if 2 ≤ cleanCount s n sl then
      let s1 := s.setFld (Reg.CTX_FLUSH n) (flushingFld sl) 0
      if st = slotFlushing then s1.setSlotState n sl (if s.activeSlot n = sl then slotActive else slotIdle) else s1
    else s
  else if st = slotDraining ∧ drained s n sl then s.setSlotState n sl slotIdle
  else s

def sweep (n : Rgn) (s : State) : State :=
  let dirty := notClean s n
  let s1 := s.modRgn n fun r => { r with
    clean := Vector.ofFn fun (i : Fin 4) => if dirty i.val then 0 else r.clean[i] + 1,
    touched := heldBits fun sl => moverHolds s n sl || (List.range 9).any (switchHolds s n sl) }
  let s2 := s1.modCells n fun _ c => { c with touched := heldBits c.holds }
  settleSlot n 3 (settleSlot n 2 (settleSlot n 1 (settleSlot n 0 (normSlots n s2))))

def execSweep (n : Rgn) (s : State) : Host.Outcome State Fault Refusal := live s (sweep n)

/-! ### Loads (R110 to R113) -/

/-- Byte offset of the image that a directory entry names. -/
def imageOff (s : State) (n : Rgn) (e : Nat) : Nat :=
  4096 * (s.fld (Reg.CTX_STORE_BASE n) Reg.CTX_STORE_BASE_BASE + s.fld (Reg.CTX_DIR n e) Reg.CTX_DIR_TILE_OFF)

def imageRecord (s : State) (n : Rgn) (e k : Nat) : List Byte := s.load (nearAddr n.val (imageOff s n e + 64 + 640 * k)) 640

/-- The check of R113 before a load writes any cell. DEDUCED: a bit of BLOCK_MASK for a block without a record makes no field
invalid; R113 asks only that each record's block be in it (log entry 40). -/
def imageCheck (s : State) (n : Rgn) (e : Nat) : Bool :=
  let h := s.load (nearAddr n.val (imageOff s n e)) 64
  let blocks := (List.range (leAt h 4 2)).map fun k => leNat (s.load (nearAddr n.val (imageOff s n e + 64 + 640 * k)) 2) % 16
  s.flag (Reg.CTX_DIR n e) Reg.CTX_DIR_VALID && leAt h 0 1 == 1 && decide (1 ≤ leAt h 4 2) && decide (leAt h 4 2 ≤ 576) &&
  decide (leAt h 6 2 < 512) && decide (leAt h 8 1 < 16) && blocks.all (fun b => (leAt h 6 2).testBit b && decide (b < 9) && decide (blockState s n b < 2)) &&
  (List.range 4).all fun k => !(leAt h 8 1).testBit k || bridgeOpen s n k

def modLoads (n : Rgn) (f : List LoadOrder → List LoadOrder) (s : State) : State :=
  modSeq n.val (fun q => { q with loads := f q.loads }) s

def dropLoad (n : Rgn) (o : LoadOrder) (s : State) : State :=
  let s1 := modLoads n (fun l => l.erase o) s
  let s2 := if o.ext then s1.setFld (Reg.CTX_LOAD n) Reg.CTX_LOAD_PENDING 0 else s1
  let more := (s2.rgn n).seq.loads.any fun x => x.slot == o.slot && !x.ext
  if ¬ o.ext ∧ ¬ more ∧ (s2.rgn n).syncLoad = some o.slot then
    let s3 := modSeq n.val (fun q => { q with waitFrom := none }) (s2.modRgn n fun r => { r with syncLoad := none })
    (s3.setFld (Reg.SEQ_STATUS n) Reg.SEQ_STATUS_WAIT_KIND 0).setFld (Reg.SEQ_STATUS n) Reg.SEQ_STATUS_WAIT_OBJ 0
  else s2

/-- A load order that fails: RESULT of CTX_LOAD, the command's status, and the sequencer source with the entry, the slot
and the cause. -/
def failLoad (n : Rgn) (o : LoadOrder) (status : Nat) (s : State) : State :=
  let s1 := dropLoad n o s
  let s2 := if o.ext then s1.setFld (Reg.CTX_LOAD n) Reg.CTX_LOAD_RESULT 3 else s1
  let s3 := match o.cmd with
    | some id => endCommand id status 0 s2
    | none => s2
  raiseWith status (rgnSrc n.val 28) false ⟨o.cmd, 0, BitVec.ofNat 128 (o.entry + 256 * o.slot + 65536 * status)⟩ s3

/-- The oldest order for a slot. -/
def firstLoad (s : State) (n : Rgn) (sl : Nat) : Option LoadOrder := (s.rgn n).seq.loads.find? fun o => o.slot == sl

def loadStart (n : Rgn) (sl : Nat) (s0 : State) : State :=
  let s := normSlots n s0
  match firstLoad s n sl with
  | none => s
  | some o =>
    let st := s.slotState n sl
    if o.started ∨ ¬ (st = slotEmpty ∨ st = slotIdle) then s
    else if imageCheck s n o.entry then
      (modLoads n (fun l => l.replace o { o with started := true }) s).setSlotState n sl slotLoading
    else failLoad n o ST_INTERNAL s

def execLoadStart (n : Rgn) (sl : Slot) (s : State) : Host.Outcome State Fault Refusal := live s (loadStart n sl.val)

def recordPtr (r : List Byte) (k : Nat) : Ptr :=
  let w := leAt r (0x40 + 4 * k) 4
  ⟨BitVec.ofNat 13 w, BitVec.ofNat 13 w, BitVec.ofNat 13 (w / 2 ^ 16)⟩

/-- A slot of a cell as a record leaves it (R88). -/
def recordSlot (r : List Byte) : SlotSt :=
  { loaded := true, own := none, pc := 0, elem := 0, busy := false, config := r.take 128,
    prog := (List.range 64).map fun i => BitVec.ofNat 64 (leAt r (0x80 + 8 * i) 8),
    ptrs := Vector.ofFn fun (k : Fin 8) => recordPtr r k.val, unit := 0, vtok := [], stok := none }

/-- Put a slot's configuration into a cell; its pairing register lets go of the slot (R120), and its micro-ops are whole. -/
def Cell.putSlot (sl : Nat) (x : SlotSt) (c : Cell) : Cell :=
  { c with
    slots := Vec.modify c.slots sl fun _ => x,
    pair := c.pair.filter fun t => t.toNat % 4 != sl,
    chk := c.chk.filter fun k => !(decide (10000 + 64 * sl ≤ k.1) && decide (k.1 < 10064 + 64 * sl)) }

def loadCells (n : Rgn) (sl e : Nat) (s : State) : List Nat → State
  | [] => s
  | k :: ks =>
    let r := imageRecord s n e k
    let c := recordCell r
    loadCells n sl e (if c < 576 then s.setCell n.val c ((s.cell n.val c).putSlot sl (recordSlot r)) else s) ks

/-- Every cell of the region gets its record, or an empty one (R92). -/
def writeContext (n : Rgn) (sl e : Nat) (s : State) : State :=
  let s1 := s.modCells n fun _ c => c.putSlot sl SlotSt.empty
  let k := leNat (s1.load (nearAddr n.val (imageOff s1 n e + 4)) 2)
  loadCells n sl e s1 (List.range k)

/-- The slot holds no context any more, in the sequencer and in every cell (R100, R113). -/
def emptySlot (n : Rgn) (sl : Nat) (s : State) : State := (s.modCells n fun _ c => c.putSlot sl SlotSt.empty).setSlotState n sl slotEmpty

/-- Does the image hold a poisoned line? -/
def imagePoisoned (s : State) (n : Rgn) (e : Nat) : Bool :=
  let t := imageOff s n e / 4096
  (List.range (s.fld (Reg.CTX_DIR n e) Reg.CTX_DIR_TILES)).any fun k => tilePoisoned s n.val 1 (t + k)

/-- The tile of the image that cannot be read: the first with a poisoned line, or else its first. -/
def imageTile (s : State) (n : Rgn) (e : Nat) : Nat :=
  let t := imageOff s n e / 4096
  t + (((List.range (s.fld (Reg.CTX_DIR n e) Reg.CTX_DIR_TILES)).find? fun k => tilePoisoned s n.val 1 (t + k)).getD 0)

/-- After a load, a flush that waited for it acts on the state it leaves. -/
def lateFlush (n : Rgn) (sl : Nat) (s : State) : State :=
  if s.flag (Reg.CTX_FLUSH n) (flushingFld sl) then flushSlot n sl s else s

def loadComplete (n : Rgn) (sl : Nat) (out : ReadOutcome) (s : State) : State :=
  match firstLoad s n sl with
  | none => s
  | some o =>
    if ¬ o.started then s
    else
      let out' := if (out = .ok ∨ out = .corrected) ∧ imagePoisoned s n o.entry then .uncorrectable else out
      match out' with
      | .ok | .corrected =>
        let s1 := writeContext n sl o.entry s
        let s2 := (s1.setFld (Reg.CTX_SLOT_STATE n) ⟨24 + 6 * sl, 6, .ro, 0⟩ o.entry).setSlotState n sl slotIdle
        let s3 := dropLoad n o (s2.modRgn n fun r => { r with clean := Vec.modify r.clean sl fun _ => 0 })
        lateFlush n sl (if o.ext then s3.setFld (Reg.CTX_LOAD n) Reg.CTX_LOAD_RESULT 1 else s3)
      | .uncorrectable =>
        lateFlush n sl (tierUe o.cmd n.val 1 (imageTile s n o.entry) (failLoad n o ST_TIER_ERROR (emptySlot n sl s)))
      | .timeout => lateFlush n sl (failLoad n o ST_TIER_TIMEOUT (emptySlot n sl s))

def execLoadComplete (n : Rgn) (sl : Slot) (out : ReadOutcome) (s : State) : Host.Outcome State Fault Refusal :=
  live s (loadComplete n sl.val out)

/-- Is a load order one that starts at once: the first of a slot that is EMPTY or IDLE (R110)? -/
def loadFree (s : State) (n : Rgn) (o : LoadOrder) : Bool :=
  let st := (normSlots n s).slotState n o.slot
  firstLoad s n o.slot == some o && (st == slotEmpty || st == slotIdle)

/-- LOAD_WAIT_EXPIRY (R111): the first order of the slot that still waits when its bound has run out is cancelled. -/
def loadExpires (n : Rgn) (sl : Nat) (s : State) : State :=
  match (s.rgn n).seq.loads.find? fun o =>
      o.slot == sl && !o.started && decide (o.tick + o.bound ≤ s.now) && !loadFree s n o with
  | none => s
  | some o =>
    let s1 := dropLoad n o s
    let s2 := if o.ext then s1.setFld (Reg.CTX_LOAD n) Reg.CTX_LOAD_RESULT 2 else s1
    match o.cmd with
    | some id => endCommand id ST_SLOT_BUSY 0 s2
    | none => s2

def execLoadWaitExpiry (n : Rgn) (sl : Slot) (s : State) : Host.Outcome State Fault Refusal := live s (loadExpires n sl.val)

/-- CTX_LOAD (R111). -/
def doCtxLoad (n : Rgn) (v : Word) (s : State) : State :=
  let a := Reg.CTX_LOAD n
  let s1 := plainWrite a v s
  if Reg.CTX_LOAD_GO.get v = 1 ∧ ¬ s.flag a Reg.CTX_LOAD_PENDING then
    let sl := Reg.CTX_LOAD_SLOT.get v
    let bound := s.fld (Reg.CTX_LOAD_WAIT n) Reg.CTX_LOAD_WAIT_TICKS
    let st := (normSlots n s).slotState n sl
    let free := (st == slotEmpty || st == slotIdle) && (firstLoad s n sl).isNone
    if bound = 0 ∧ ¬ free then s1.setFld a Reg.CTX_LOAD_RESULT 2
    else
      let o : LoadOrder := ⟨Reg.CTX_LOAD_ENTRY.get v, sl, s.now, bound, none, false, true⟩
      (modLoads n (fun l => l ++ [o]) s1).setFld a Reg.CTX_LOAD_PENDING 1
  else s1

def execCtxLoad (who : Requester) (n : Rgn) (v : Word) (s : State) : Host.Outcome State Fault Refusal :=
  live s (guardWrite who (Reg.CTX_LOAD n) 8 v (doCtxLoad n v))

/-- CTX_FLUSH (R114): one flush for each 1 of FLUSH. -/
def doCtxFlush (n : Rgn) (v : Word) (s : State) : State :=
  (List.range 4).foldl (fun t sl => if v.getLsbD sl then flushSlot n sl t else t) s

def execCtxFlush (who : Requester) (n : Rgn) (v : Word) (s : State) : Host.Outcome State Fault Refusal :=
  live s (guardWrite who (Reg.CTX_FLUSH n) 8 v (doCtxFlush n v))

/-! ### Freezing (R106, R121) -/

/-- SCAN_STATUS.FROZEN of the selected block. -/
def showFrozen (n : Rgn) (s : State) : State :=
  let b := s.fld (Reg.SCAN_CTRL n) Reg.SCAN_CTRL_BLOCK
  s.setFld (Reg.SCAN_STATUS n) Reg.SCAN_STATUS_FROZEN (bit ((s.rgn n).frozen.getLsbD b))

/-- Words of the slots' scan states that the cells do not hold themselves: what a scan has put there goes with the freeze. -/
def dropSlotWords (c : Cell) : Cell := { c with resid := c.resid.filter fun p => !(decide (0x290 ≤ p.1) && decide (p.1 < 0x2D0)) }

/-- A block resumes; it applies the last switch order it received. The stall monitor has not counted while any block of the region
was frozen (R121). -/
def unfreezeBlock (n : Rgn) (b : Nat) (s0 : State) : State :=
  let off := ~~~ (1#9 <<< b)
  let s := s0.modCells n fun ix c => if cellBlk ix = b then dropSlotWords c else c
  let s1 := if (s.rgn n).missed.getLsbD b then setActive n.val (Fin.ofNat 4 (s.activeSlot n)) s (blockCells b) else s
  s1.modRgn n fun r => { r with
    frozen := r.frozen &&& off, freezing := r.freezing &&& off, missed := r.missed &&& off,
    stepAt := if r.frozen ≠ 0 ∧ r.frozen &&& off = 0 then r.stepAt + (s.now - max r.frozenFrom r.stepAt) else r.stepAt }

/-- A write of SCAN_CTRL. -/
def doScanCtrl (n : Rgn) (v : Word) (s : State) : State :=
  let b := Reg.SCAN_CTRL_BLOCK.get v
  let s1 := plainWrite (Reg.SCAN_CTRL n) v s
  showFrozen n (
    if 9 ≤ b then s1
    else if Reg.SCAN_CTRL_FREEZE.get v = 1 then s1.modRgn n fun r => { r with freezing := r.freezing ||| (1#9 <<< b) }
    else unfreezeBlock n b s1)

def execFreeze (who : Requester) (n : Rgn) (v : Word) (s : State) : Host.Outcome State Fault Refusal :=
  live s fun s => if Reg.SCAN_CTRL_FREEZE.get v = 1 then guardWrite who (Reg.SCAN_CTRL n) 8 v (doScanCtrl n v) s else s

def execUnfreeze (who : Requester) (n : Rgn) (v : Word) (s : State) : Host.Outcome State Fault Refusal :=
  live s fun s => if Reg.SCAN_CTRL_FREEZE.get v = 0 then guardWrite who (Reg.SCAN_CTRL n) 8 v (doScanCtrl n v) s else s

/-- FROZEN (R121): the block has finished its handshakes and stopped. -/
def blockFrozen (n : Rgn) (b : Blk) (s : State) : State :=
  if (s.rgn n).freezing.getLsbD b.val then
    showFrozen n (s.modRgn n fun r => { r with
      frozen := r.frozen ||| (1#9 <<< b.val), frozenFrom := if r.frozen = 0 then s.now else r.frozenFrom })
  else s

def execFrozen (n : Rgn) (b : Blk) (s : State) : Host.Outcome State Fault Refusal := live s (blockFrozen n b)

end Sys2Proof.Machine
end

