-- ==== Sys2Proof/Machine/Sync.lean ====
section
/-!
DEFINITION. Semaphores, chip barriers and setting them by hand (R146 to R157).
-/

namespace Sys2Proof.Machine

/-! ### Semaphores (R147, R148) -/

def semValue (s : State) (n : Rgn) (i : Nat) : Nat := s.fld (semAddr n i) Reg.SYNC_SEM_VALUE

/-- A count of `k`: the sum, or 0xFFFF_FFFF and the semaphore overflow source (Table 17.5). -/
def addSem (forced : Bool) (n : Rgn) (i k : Nat) (s : State) : State :=
  let v := semValue s n i + k
  let s1 := s.setReg (semAddr n i) (BitVec.ofNat 64 (min v 0xFFFFFFFF))
  if 0xFFFFFFFF < v then
    raiseDetail (rgnSrc n.val 29) (s.rgn n).plan (i + 256 * bit forced + 2 ^ 64 * (s.reg (Reg.SEQ_STATUS n)).toNat) s1
  else s1

/-- A signal of `k`. -/
def signalSem (n : Rgn) (i k : Nat) (s : State) : State := addSem false n i k s

/-- A forced SET replaces the value; a forced ADD counts as a signal (R156). -/
def forceSem (n : Rgn) (i : Nat) (add : Bool) (v : Nat) (s : State) : State :=
  if add then addSem true n i v s else s.setReg (semAddr n i) (BitVec.ofNat 64 (v % 2 ^ 32))

/-! ### SEQ_STATUS waiting (R155) -/

/-- The tick up to which the present wait has counted as progress (R155): to now, or to its limit. -/
def waitCredit (s : State) (n : Rgn) : Nat :=
  let k := s.fld (Reg.SEQ_STATUS n) Reg.SEQ_STATUS_WAIT_KIND
  match (s.rgn n).seq.waitFrom with
  | some t => if k = 1 ∨ k = 2 then min s.now (t + (s.rgn n).seq.waitLimit) else 0
  | none => 0

/-- The stall monitor takes note of it: no cell has stepped, so a stall that has been raised stays raised (R44). -/
def creditWait (n : Rgn) (s : State) : State := s.modRgn n fun r => { r with stepAt := max r.stepAt (waitCredit s n) }

/-- The sequencer starts, or goes on, waiting for an object; the progress bound runs from the start of the wait. -/
def waitOn (n : Rgn) (kind obj : Nat) (s : State) : State :=
  let a := Reg.SEQ_STATUS n
  if s.fld a Reg.SEQ_STATUS_WAIT_KIND = kind ∧ s.fld a Reg.SEQ_STATUS_WAIT_OBJ = obj then s
  else
    modSeq n.val (fun q => { q with waitFrom := some s.now })
      (((creditWait n s).setFld a Reg.SEQ_STATUS_WAIT_KIND kind).setFld a Reg.SEQ_STATUS_WAIT_OBJ obj)

/-- The stall monitor sees progress at a tick (R44). -/
def stepped (n : Rgn) (t : Nat) (s : State) : State :=
  s.modRgn n fun r => { r with stepAt := max r.stepAt t, stalled := false }

/-- Is the sequencer in a wait that counts as progress? -/
def waitProgress (s : State) (n : Rgn) : Bool :=
  match (s.rgn n).seq.waitFrom with
  | none => false
  | some t =>
    let k := s.fld (Reg.SEQ_STATUS n) Reg.SEQ_STATUS_WAIT_KIND
    (k == 1 || k == 2) && decide (s.now < t + (s.rgn n).seq.waitLimit)

/-- The wait ends; while it lasted within its limit it was progress. -/
def waitOver (n : Rgn) (s : State) : State :=
  modSeq n.val (fun q => { q with waitFrom := none })
    (((creditWait n s).setFld (Reg.SEQ_STATUS n) Reg.SEQ_STATUS_WAIT_KIND 0).setFld (Reg.SEQ_STATUS n) Reg.SEQ_STATUS_WAIT_OBJ 0)

/-! ### Chip barriers (R152, R153) -/

def waitsAt (s : State) (n : Rgn) (b : Nat) : Bool :=
  s.flag (Reg.SEQ_STATUS n) Reg.SEQ_STATUS_RUNNING && s.fld (Reg.SEQ_STATUS n) Reg.SEQ_STATUS_WAIT_KIND == 2 &&
  s.fld (Reg.SEQ_STATUS n) Reg.SEQ_STATUS_WAIT_OBJ == b

/-- A released member goes on past its wait. -/
def passBarrier (b : Nat) : List Rgn → State → State
  | [], s => s
  | n :: ns, s =>
    passBarrier b ns (if waitsAt s n b then waitOver n (modSeq n.val (fun q => { q with took := q.took + 1 }) s) else s)

/-- The release (R152): ARRIVED is cleared, GEN rises, every waiting member goes on. -/
def releaseBar (b : Nat) (s : State) : State :=
  let a := Reg.BAR_STATE b
  let s1 := (s.setFld a Reg.BAR_STATE_ARRIVED 0).setFld a Reg.BAR_STATE_GEN (s.fld a Reg.BAR_STATE_GEN + 1)
  passBarrier b allRgns s1

/-- Why an arrival at a broken barrier ends its command (R153): the cause that broke it. -/
def brokenStatus (s : State) (b : Nat) : Nat :=
  ((s.barCause.find? fun x => x.1 == b).map Prod.snd).getD ST_INTERNAL

def endPlanOf (n : Rgn) (status : Nat) (s : State) : State :=
  match (s.rgn n).plan with
  | some id => endCommand id status 0 s
  | none => s

/-- An arrival (R152, R153). -/
def arrive (n : Rgn) (b : Nat) (s : State) : State :=
  let st := Reg.BAR_STATE b
  let members := s.fld (Reg.BAR_CFG b) Reg.BAR_CFG_MEMBERS
  if s.flag st Reg.BAR_STATE_BROKEN then endPlanOf n (brokenStatus s b) s
  else if ¬ s.flag (Reg.BAR_CFG b) Reg.BAR_CFG_ENABLE ∨ ¬ members.testBit n.val then
    raiseBarrier (s.rgn n).plan b (endPlanOf n ST_INTERNAL (breakBar ST_INTERNAL b s))
  else
    let arrived := s.fld st Reg.BAR_STATE_ARRIVED ||| 2 ^ n.val
    let s1 := waitOn n 2 b (s.setFld st Reg.BAR_STATE_ARRIVED arrived)
    if arrived = members then releaseBar b s1 else s1

/-- BROKEN and ARRIVED are cleared together (R153). -/
def clearBar (b : Nat) (s : State) : State :=
  let a := Reg.BAR_STATE b
  { (s.setFld a Reg.BAR_STATE_BROKEN 0).setFld a Reg.BAR_STATE_ARRIVED 0 with
    barCause := s.barCause.filter fun x => x.1 != b }

/-- A write of BAR_CFG: one that disables the barrier breaks it (R153). -/
def doBarCfg (b : Nat) (v : Word) (s : State) : State :=
  let s1 := plainWrite (Reg.BAR_CFG b) v s
  if s.flag (Reg.BAR_CFG b) Reg.BAR_CFG_ENABLE ∧ Reg.BAR_CFG_ENABLE.get v = 0 ∧ ¬ s.flag (Reg.BAR_STATE b) Reg.BAR_STATE_BROKEN then
    raiseBarrier none b (breakBar ST_INTERNAL b s1)
  else s1

/-- A write of BAR_STATE: W1C of BROKEN clears ARRIVED too (R153); FORCE_RELEASE releases whatever ARRIVED holds (R156),
but a broken barrier only by clearing BROKEN. -/
def doBarState (b : Nat) (v : Word) (s : State) : State :=
  let a := Reg.BAR_STATE b
  let was := s.flag a Reg.BAR_STATE_BROKEN
  let s1 := if was ∧ Reg.BAR_STATE_BROKEN.get v = 1 then clearBar b s else s
  if Reg.BAR_STATE_FORCE_RELEASE.get v = 1 ∧ ¬ s1.flag a Reg.BAR_STATE_BROKEN then releaseBar b s1 else s1

def execBrokenClear (who : Requester) (b : Fin 64) (v : Word) (s : State) : Host.Outcome State Fault Refusal :=
  live s fun s => if Reg.BAR_STATE_BROKEN.get v = 1 then guardWrite who (Reg.BAR_STATE b.val) 8 v (doBarState b.val v) s else s

def execForceRelease (who : Requester) (b : Fin 64) (v : Word) (s : State) : Host.Outcome State Fault Refusal :=
  live s fun s =>
    if Reg.BAR_STATE_FORCE_RELEASE.get v = 1 then guardWrite who (Reg.BAR_STATE b.val) 8 v (doBarState b.val v) s else s

/-! ### SYNC_FORCE (R156, R157) -/

def doSyncForce (n : Rgn) (v : Word) (s : State) : State :=
  let s1 := plainWrite (Reg.SYNC_FORCE n) v s
  if Reg.SYNC_FORCE_GO.get v = 1 then
    forceSem n (Reg.SYNC_FORCE_SEM.get v) (Reg.SYNC_FORCE_MODE.get v == 1) (Reg.SYNC_FORCE_VALUE.get v) s1
  else s1

def execSyncForceGo (who : Requester) (n : Rgn) (v : Word) (s : State) : Host.Outcome State Fault Refusal :=
  live s fun s => if Reg.SYNC_FORCE_GO.get v = 1 then guardWrite who (Reg.SYNC_FORCE n) 8 v (doSyncForce n v) s else s

/-- Command SYNC_FORCE: REGION, OBJECT, MODE, VALUE. A barrier must belong to the partition. -/
def syncCheck (c : Cmd) (s : State) : Fail :=
  let m := c.p1 0x12
  firstFail [reserved c [(0x10, 1), (0x11, 1), (0x12, 1), (0x14, 4)], param 0x10 (inPart s c (c.p1 0x10)),
    param 0x11 (m != 2 || (decide (c.p1 0x11 < 64) &&
      s.fld (Reg.BAR_CFG (c.p1 0x11)) Reg.BAR_CFG_PARTITION == (cmdPart c).val)),
    param 0x12 (decide (m ≤ 2)), quarantineFail s [c.p1 0x10]]

def syncAct (c : Cmd) (s : State) : State :=
  let n : Rgn := Fin.ofNat 16 (c.p1 0x10)
  let s1 := acceptAs c.id (fun d => { d with span := [n.val] }) s
  let s2 :=
    if c.p1 0x12 = 2 then
      (if s1.flag (Reg.BAR_STATE (c.p1 0x11)) Reg.BAR_STATE_BROKEN then s1 else releaseBar (c.p1 0x11) s1)
    else forceSem n (c.p1 0x11) (c.p1 0x12 == 1) (c.p4 0x14) s1
  commitAs c.id ST_OK 0 [] s2

def execSyncForce (r : Ring) (_ : Choice) (s : State) : Host.Outcome State Fault Refusal :=
  live s (process 0x50 r (quiet syncCheck) syncAct)

end Sys2Proof.Machine
end

