-- ==== Sys2Proof/Machine/Sequencer.lean ====
section
/-!
DEFINITION. The table sequencer (R126 to R145, R155, R158): starting and stopping a plan, the four kinds of entry, the
iterations of a RUN entry, summaries and branches, and the end of a plan.
-/

namespace Sys2Proof.Machine

/-! ### The sequencer's state -/

def seqRunning (s : State) (n : Rgn) : Bool := s.flag (Reg.SEQ_STATUS n) Reg.SEQ_STATUS_RUNNING
def seqPc (s : State) (n : Rgn) : Nat := s.fld (Reg.SEQ_STATUS n) Reg.SEQ_STATUS_PC
/-- The sequencer continues at an entry. One past the table's last is none, and the next event of the plan finds it so (R127). -/
def setPc (n : Rgn) (pc : Nat) (s : State) : State :=
  if pc ≤ seqLast then s.setFld (Reg.SEQ_STATUS n) Reg.SEQ_STATUS_PC pc else modSeq n.val (fun q => { q with past := true }) s
/-- The entry at the program counter. -/
def seqEntry (s : State) (n : Rgn) : Nat := planEntry s n (s.rgn n).seq.table (seqPc s n)

/-- The sequencer stops without a command to end. -/
def seqStop (n : Rgn) (s : State) : State :=
  let s1 := (dropArrival n s).modRgn n fun r => { r with
    seq := { SeqSt.reset with loads := r.seq.loads }, ctlOut := [], sclOut := [],
    descs := r.descs.filter fun d => d.cmd.isSome, reqs := r.reqs.map fun q => if q.cmd.isNone then { q with killed := true } else q }
  (waitOver n (s1.setFld (Reg.SEQ_STATUS n) Reg.SEQ_STATUS_RUNNING 0)).setFld (Reg.SEQ_SUMMARY n) Reg.SEQ_SUMMARY_QUEUED 0

/-- End the command of a plan with a status (R126, R127): the sequencer fault source names the entry. -/
def planFail (n : Rgn) (status : Nat) (s : State) : State :=
  let q := (s.rgn n).seq
  let s1 := match q.cmd with
    | some id => endCommand id status 0 s
    | none => flushAll n (seqStop n s)
  raiseWith status (rgnSrc n.val 28) false ⟨q.cmd, 0, (s.reg (Reg.SEQ_STATUS n)).setWidth 128⟩ s1

/-- What a fetch at the present entry reads (R126): near-tier offset and bytes. -/
def fetchRange (s : State) (n : Rgn) (what : FetchKind) : Nat × Nat :=
  let e := seqEntry s n
  let t := (s.rgn n).seq.table
  match what with
  | .entries => (t + 0x001000 + 256 * (seqPc s n / 8), 256)
  | .branchRows => (t + 0x081000 + 8 * eBrPtr e, 8 * (eBrN e + 1))
  | .controlRows => (t + 0x0A1000 + 4 * eCtlPtr e, 4 * eCtlN e)
  | .descriptors => (t + 0x0B1000 + 32 * eDBase e, 32 * (eDPre e + eDIter e + eDPost e))

def fetchBad (s : State) (n : Rgn) (what : FetchKind) : Bool :=
  let r := fetchRange s n what
  nearPoisoned s n.val r.1 r.2

/-- A fetch of the plan fails on such a line: the command ends, and the line is reported. -/
def fetchUe (n : Rgn) (what : FetchKind) (s : State) : State :=
  nearUe n (s.rgn n).seq.cmd (fetchRange s n what).1 (planFail n ST_TIER_ERROR s)

/-- GROUP_FETCH (R126): a fetch sets timing only, unless it fails. -/
def groupFetch (n : Rgn) (what : FetchKind) (out : ReadOutcome) (s : State) : State :=
  if ¬ seqRunning s n then s
  else match out with
    | .ok | .corrected => if fetchBad s n what then fetchUe n what s else s
    | .uncorrectable => fetchUe n what s
    | .timeout => planFail n ST_TIER_TIMEOUT s

def execGroupFetch (n : Rgn) (what : FetchKind) (out : ReadOutcome) (s : State) : Host.Outcome State Fault Refusal :=
  live s (groupFetch n what out)

/-! ### SEQ_CTRL (R146, R158) -/

/-- ABORT: issuing stops at once, the tile mover cancels, the slots are flushed, and the command is ended at its arbiter. -/
def seqAbort (n : Rgn) (s : State) : State :=
  if ¬ seqRunning s n then s
  else match (s.rgn n).seq.cmd with
    | some id => endCommand id ST_ABORTED 0 (stopPlan n id s)
    | none => flushAll n (seqStop n s)

/-- GO: a plan starts, and ends at once where what it takes at its start cannot be read. -/
def seqGo (n : Rgn) (s : State) : State :=
  if seqRunning s n then s
  else
    let s1 := seqStart n s
    match takenBad s1 n with
    | some off => nearUe n (s1.rgn n).seq.cmd off (planFail n ST_TIER_ERROR s1)
    | none => s1

def doSeqCtrl (n : Rgn) (v : Word) (s : State) : State :=
  let s1 := plainWrite (Reg.SEQ_CTRL n) v s
  let s2 := if Reg.SEQ_CTRL_GO.get v = 1 then seqGo n s1 else s1
  if Reg.SEQ_CTRL_ABORT.get v = 1 then seqAbort n s2 else s2

def execSeqGo (who : Requester) (n : Rgn) (v : Word) (s : State) : Host.Outcome State Fault Refusal :=
  live s fun s => if Reg.SEQ_CTRL_GO.get v = 1 then guardWrite who (Reg.SEQ_CTRL n) 8 v (doSeqCtrl n v) s else s

def execSeqAbort (who : Requester) (n : Rgn) (v : Word) (s : State) : Host.Outcome State Fault Refusal :=
  live s fun s => if Reg.SEQ_CTRL_ABORT.get v = 1 then guardWrite who (Reg.SEQ_CTRL n) 8 v (doSeqCtrl n v) s else s

/-! ### Starting an entry -/

/-- May the sequencer act at the start of an entry? Not while a SYNC load is outstanding (R130). -/
def atEntry (s : State) (n : Rgn) : Bool :=
  seqRunning s n && (s.rgn n).seq.phase == .entry && (s.rgn n).syncLoad.isNone && !s.pwr.hold

/-- An entry the sequencer cannot run: past the plan's entries, of a reserved TYPE or with a reserved value (R127), or on a
line that cannot be read. The status that ends the command. -/
def entryFault (s : State) (n : Rgn) : Option Nat :=
  if fetchBad s n .entries then some ST_TIER_ERROR
  else if (s.rgn n).seq.past ∨ planEntries s n (s.rgn n).seq.table ≤ seqPc s n ∨ entryReserved (seqEntry s n) then some ST_INTERNAL
  else none

/-- Run an entry of TYPE `t` with `f`; the other types are other events. -/
def atType (t : Nat) (n : Rgn) (f : Nat → State → State) (s : State) : State :=
  if ¬ atEntry s n then s
  else match entryFault s n with
    | some st => if st = ST_TIER_ERROR then fetchUe n .entries s else planFail n st s
    | none => if eType (seqEntry s n) = t then f (seqEntry s n) s else s

/-- LOAD (R130): the order, then the next entry, at once or when the load has completed. -/
def seqLoad (n : Rgn) (e : Nat) (s : State) : State :=
  let o : LoadOrder := ⟨lEntry e, lSlot e, s.now, lBound e, (s.rgn n).seq.cmd, false, false⟩
  let s1 := setPc n (seqPc s n + 1) (modLoads n (fun l => l ++ [o]) s)
  if lSync e ∧ seqRunning s1 n then waitOn n 3 (lSlot e) (s1.modRgn n fun r => { r with syncLoad := some (lSlot e) }) else s1

def execLoad (n : Rgn) (s : State) : Host.Outcome State Fault Refusal := live s (atType 2 n (seqLoad n))

/-- A loop counter in SEQ_LOOP. -/
def ctrFld (c : Nat) : Fld := ⟨16 * c, 16, .ro, 0⟩

/-- JUMP (R129). -/
def seqJump (n : Rgn) (e : Nat) (s : State) : State :=
  if jAlways e then setPc n (jTarget e) s
  else
    let c := s.fld (Reg.SEQ_LOOP n) (ctrFld (jCtr e))
    let c' := (if c = 0 then jCount e else c) - 1
    setPc n (if c' = 0 then seqPc s n + 1 else jTarget e) (s.setFld (Reg.SEQ_LOOP n) (ctrFld (jCtr e)) c')

def execJump (n : Rgn) (s : State) : Host.Outcome State Fault Refusal := live s (atType 3 n (seqJump n))

/-- HALT (R132): nothing further is issued. -/
def seqHalt (n : Rgn) (_ : Nat) (s : State) : State := waitOver n (modSeq n.val (fun q => { q with phase := .halted }) s)

def execHalt (n : Rgn) (s : State) : Host.Outcome State Fault Refusal := live s (atType 4 n (seqHalt n))

/-! ### The end of a plan (R132, R144) -/

/-- Scalar tokens that the block switches hold for the summary port: the local outputs of the cells (0, 0). -/
def emptySummary (n : Rgn) (s : State) : State :=
  let s1 := (modSeq n.val (fun q => { q with summary := [] }) s).setFld (Reg.SEQ_SUMMARY n) Reg.SEQ_SUMMARY_QUEUED 0
  s1.modCells n fun c x => if c % 64 = 0 then { x with sout := x.sout.set 4 none } else x

def planEnds (n : Rgn) (s : State) : State :=
  let r := s.rgn n
  if seqRunning s n ∧ r.seq.phase = .halted ∧ (r.descs.all fun d => d.cmd != r.seq.cmd) ∧
      (r.port.asks.all fun a => a.cmd != r.seq.cmd || a.type != 0x04) ∧ r.seq.signals = [] ∧
      (r.seq.loads.all fun l => l.ext || l.cmd != r.seq.cmd) then
    let s1 := emptySummary n s
    let s2 := ((s1.setFld (Reg.SEQ_STATUS n) Reg.SEQ_STATUS_DONE 1).setFld (Reg.SEQ_STATUS n) Reg.SEQ_STATUS_RUNNING 0)
    let s3 := s2.modRgn n fun r => { r with plan := none, idleFrom := s.now, seq := { SeqSt.reset with loads := r.seq.loads } }
    let s4 := (s3.setFld (Reg.SRV_STATUS n) Reg.SRV_STATUS_RANK 0).setFld (Reg.SRV_STATUS n) Reg.SRV_STATUS_TAG 0
    let rate := s.fld (Reg.RGN_RATE n) Reg.RGN_RATE_STEPS
    let s4 := s4.setFld (Reg.MOE_STATUS n) Reg.MOE_STATUS_WAITING 0
    let s5 := match r.seq.cmd with
      | none => s4
      | some id => s4.modCmd id fun c => { c with
          done := c.done ++ [n.val], ends := c.ends ++ [(n.val, (s.now - c.planStart) * rate)] }
    irqRaise (evRgn n.val 0) (s5.reg (Reg.SEQ_STATUS n)) s5
  else s

def execPlanDone (n : Rgn) (s : State) : Host.Outcome State Fault Refusal := live s (planEnds n)

/-! ### The actions of a RUN entry (R131) -/

/-- What the sequencer does at one point of an entry, in order. -/
inductive SeqAct where
  | wait (w : Wait)
  | control
  | extent
  /-- Issue rows `first` to `first + k - 1` of the entry's descriptor rows. -/
  | issue (first k : Nat)
  /-- The signals of a level follow the descriptors just issued. -/
  | signals (level : Nat)
  deriving DecidableEq, Repr

def actWaits (e l : Nat) : List SeqAct := ([eW0 e, eW1 e].filter fun w => w.n != 0 && w.level == l).map .wait
def actCtl (e l : Nat) : List SeqAct := if eCtlAt e = l ∧ eCtlN e ≠ 0 then [.control] else []

/-- At the start of an entry. -/
def startActs (e : Nat) : List SeqAct := actWaits e 0 ++ actCtl e 0 ++ [.issue 0 (eDPre e)]

/-- First and last iteration of an output tile: with RED, the first and last value of DIM2. -/
def firstOfTile (e : Nat) (idx : List Nat) : Bool := !eRed e || idx.getD 2 0 == 0
def lastOfTile (e : Nat) (shapes : List (BitVec 32)) (idx : List Nat) : Bool :=
  !eRed e || idx.getD 2 0 + 1 == dimTiles e shapes 2

/-- At one iteration. -/
def iterActs (e : Nat) (shapes : List (BitVec 32)) (idx : List Nat) : List SeqAct :=
  (if firstOfTile e idx then actWaits e 1 ++ actCtl e 1 ++ (if eExt e then [.extent] else []) else []) ++
  actWaits e 2 ++ actCtl e 2 ++ [.issue (eDPre e) (eDIter e), .signals 2] ++
  (if lastOfTile e shapes idx then [.issue (eDPre e + eDIter e) (eDPost e), .signals 1] else [])

/-! ### Each action -/

/-- The wait (R147, R152): true once it is taken. -/
def takeWait (n : Rgn) (w : Wait) (s : State) : State × Bool :=
  if w.bar then (if waitsAt s n w.sem then (s, false) else (arrive n w.sem s, false))
  else if w.n ≤ semValue s n w.sem then
    (waitOver n (s.setReg (semAddr n w.sem) (BitVec.ofNat 64 (semValue s n w.sem - w.n))), true)
  else (waitOn n 1 w.sem s, false)

def noVlc : BitVec 6 := 16

/-- A control-token row (R134): its target block and the token. -/
def ctlFlit (w : Nat) : Nat × Flit :=
  (ebits w 16 4, ⟨BitVec.ofNat 128 (ebits w 0 16), Fin.ofNat 4 w, false, false, false, noVlc, 0, false, none⟩)

/-- Hand the control tokens of an entry to their block switches; a reserved row ends the command. -/
def sendControl (n : Rgn) (e : Nat) (s : State) : State × Bool :=
  let rows := (List.range (eCtlN e)).map fun i => planControl s n (s.rgn n).seq.table (eCtlPtr e + i)
  if fetchBad s n .controlRows then (fetchUe n .controlRows s, false)
  else if 16384 < eCtlPtr e + eCtlN e ∨ (rows.any fun w => ebits w 20 12 != 0 || decide (8 < ebits w 16 4)) then (planFail n ST_INTERNAL s, false)
  else
    let fs := rows.map ctlFlit
    (fs.foldl (fun t p => touchMover n p.2.slot t) (s.modRgn n fun r => { r with ctlOut := r.ctlOut ++ fs }), true)

/-- Output dimensions of an entry, in order: with RED, those before DIM2. -/
def outDims (e : Nat) : List Nat := (List.range 3).filter fun k => dimUsed e k && (k != 2 || !eRed e)

/-- Blocks of an entry's footprint: BLOCK_MASK of the context loaded in its slot (Table 4.1). -/
def slotBlocks (s : State) (n : Rgn) (sl : Nat) : Nat :=
  let e := s.fld (Reg.CTX_SLOT_STATE n) ⟨24 + 6 * sl, 6, .ro, 0⟩
  leNat (s.load (nearAddr n.val (imageOff s n e + 6)) 2) % 512

/-- The extent token (R141), for every block of the footprint. -/
def sendExtent (n : Rgn) (e : Nat) (s : State) : State :=
  let q := (s.rgn n).seq
  let ext := (outDims e).map fun k => dimExtent e q.shapes k (q.idx.getD k 0)
  let v := ext.getD 0 0 % 65536 + 65536 * (ext.getD 1 0 % 65536)
  let f : Flit := ⟨BitVec.ofNat 128 v, Fin.ofNat 4 (eSlot e), false, false, false, noVlc, 0, false, none⟩
  let bs := (List.range 9).filter fun b => (slotBlocks s n (eSlot e)).testBit b
  touchMover n f.slot (s.modRgn n fun r => { r with sclOut := r.sclOut ++ bs.map fun b => (b, f) })

/-- TM_STATUS as the descriptors in progress make it (R172). -/
def showMover (n : Rgn) (s : State) : State :=
  let k := (s.rgn n).descs.length
  (s.setFld (Reg.TM_STATUS n) Reg.TM_STATUS_ACTIVE (min 16 k)).setFld (Reg.TM_STATUS n) Reg.TM_STATUS_BUSY (bit (k != 0))

/-- Issue one descriptor with the tile indices and extents of the iteration (R138, R165). -/
def issueDesc (n : Rgn) (e row : Nat) (s : State) : State :=
  let q := (s.rgn n).seq
  let d : Desc := { id := s.nextId, row := row, bytes := planDesc s n q.table row, cmd := q.cmd, slot := Fin.ofNat 4 (eSlot e),
                    idx := (List.range 3).map fun k => q.idx.getD k 0,
                    ext := (List.range 3).map fun k => dimExtent e q.shapes k (q.idx.getD k 0),
                    next := 0, acked := 0, wrote := 0, buf := [], cnt := [], got := [] }
  let s1 := { s with nextId := s.nextId + 1 }
  s1.modRgn n fun r => { r with
    descs := r.descs ++ [d],
    seq := { r.seq with issued := r.seq.issued ++ [d.id], group := r.seq.group ++ [d.id] } }

def issueRows (n : Rgn) (e first : Nat) : Nat → State → State
  | 0, s => s
  | k + 1, s => issueRows n e (first + 1) k (issueDesc n e first s)

def issueGroup (n : Rgn) (e first k : Nat) (s : State) : State × Bool :=
  let s0 := modSeq n.val (fun q => { q with group := [] }) s
  if k = 0 then (s0, true)
  else if fetchBad s n .descriptors then (fetchUe n .descriptors s, false)
  else if 65536 < eDBase e + first + k then (planFail n ST_INTERNAL s, false)
  else (showMover n (issueRows n e (eDBase e + first) k s0), true)

/-- Ids of a list that are still descriptors in progress. -/
def stillOut (s : State) (n : Rgn) (ids : List Nat) : List Nat := ids.filter fun i => (s.rgn n).descs.any fun d => d.id == i

/-- Apply every signal whose descriptors have completed, in order (R131). -/
def applySignals (n : Rgn) : List (List Nat × Nat × Nat) → State → State
  | [], s => s
  | g :: gs, s =>
    if (stillOut s n g.1).isEmpty then
      applySignals n gs (signalSem n g.2.1 g.2.2 (modSeq n.val (fun q => { q with signals := q.signals.erase g }) s))
    else applySignals n gs s

def settleSignals (n : Rgn) (s : State) : State := applySignals n (s.rgn n).seq.signals s

/-- Put the signals of a level behind the descriptors `ids`. -/
def queueSignals (n : Rgn) (e level : Nat) (ids : List Nat) (s : State) : State :=
  let gs := ([eS0 e, eS1 e].filter fun w => w.n != 0 && w.level == level).map fun w => (ids, w.sem, w.n)
  settleSignals n (modSeq n.val (fun q => { q with signals := q.signals ++ gs }) s)

/-- One action; false when the sequencer has to wait or has ended the command. -/
def seqAct (n : Rgn) (e : Nat) (a : SeqAct) (s : State) : State × Bool :=
  match a with
  | .wait w => takeWait n w s
  | .control => sendControl n e s
  | .extent => (sendExtent n e s, true)
  | .issue first k => issueGroup n e first k s
  | .signals l => (queueSignals n e l (s.rgn n).seq.group s, true)

/-- Actions in order until one waits; `took` counts those done. -/
def seqActs (n : Rgn) (e : Nat) : List SeqAct → State → State × Bool
  | [], s => (s, true)
  | a :: as, s =>
    let r := seqAct n e a s
    if r.2 ∧ seqRunning r.1 n then seqActs n e as (modSeq n.val (fun q => { q with took := q.took + 1 }) r.1) else (r.1, false)

/-! ### RUN (R131) -/

/-- The entry becomes the running one of its slot (R145). -/
def enterEntry (n : Rgn) (e : Nat) (s : State) : State :=
  modSeq n.val (fun q => { q with
    phase := .start, idx := [0, 0, 0], took := 0, issued := [], group := [],
    running := (eSlot e, eSumEn e, eSumSem e) :: q.running.filter fun x => x.1 != eSlot e }) s

/-- The switch of step 1: an order is issued unless the slot is active; nothing goes on before it is released. The ACTIVE field
names a slot also while none is active, as after reset, so the slot's state decides with it (R105). -/
def seqSwitch (n : Rgn) (e : Nat) (s : State) : State × Bool :=
  if (s.rgn n).seq.order.isSome then (s, false)
  else if s.activeSlot n = eSlot e ∧ isActive s n (eSlot e) then (if s.fld (Reg.SEQ_STATUS n) Reg.SEQ_STATUS_WAIT_KIND = 3 then waitOver n s else s, true)
  else (waitOn n 3 (eSlot e) (modSeq n.val (fun q => { q with order := some (eSlot e, eChipSw e) }) s), false)

/-- Step 1 and 2 of R131, as far as they go. -/
def runEntry (n : Rgn) (e : Nat) (s : State) : State :=
  let r := seqSwitch n e s
  if ¬ r.2 then r.1
  else
    let q := seqActs n e ((startActs e).drop (r.1.rgn n).seq.took) r.1
    if q.2 then modSeq n.val (fun q => { q with phase := .iterate, took := 0, group := [] }) q.1 else q.1

/-- RUN: an entry starts, or one that waits at its start goes on. -/
def seqRun (n : Rgn) (s : State) : State :=
  if s.pwr.hold then s
  else if seqRunning s n ∧ (s.rgn n).seq.phase = .start then runEntry n (seqEntry s n) s
  else atType 1 n (fun e t => runEntry n e (enterEntry n e t)) s

def execRun (n : Rgn) (s : State) : Host.Outcome State Fault Refusal := live s (seqRun n)

/-! ### ITERATION (R131, R137) -/

/-- The next iteration in loop order, DIM2 innermost. -/
def nextIdx (e : Nat) (shapes : List (BitVec 32)) (idx : List Nat) : Option (List Nat) :=
  let i0 := idx.getD 0 0
  let i1 := idx.getD 1 0
  let i2 := idx.getD 2 0
  if i2 + 1 < dimTiles e shapes 2 then some [i0, i1, i2 + 1]
  else if i1 + 1 < dimTiles e shapes 1 then some [i0, i1 + 1, 0]
  else if i0 + 1 < dimTiles e shapes 0 then some [i0 + 1, 0, 0]
  else none

/-- The entry has issued its last descriptor: its level-0 signals wait for all of them, and the next entry starts, unless the
entry branches. -/
def endEntry (n : Rgn) (e : Nat) (s : State) : State :=
  let s1 := queueSignals n e 0 (s.rgn n).seq.issued s
  if ¬ seqRunning s1 n then s1
  else if eBrEn e then modSeq n.val (fun q => { q with phase := .branch }) s1
  else setPc n (seqPc s1 n + 1) (modSeq n.val (fun q => { q with phase := .entry }) s1)

def seqIterate (n : Rgn) (s : State) : State :=
  let q := (s.rgn n).seq
  let e := seqEntry s n
  if ¬ (seqRunning s n ∧ q.phase = .iterate) ∨ s.pwr.hold then s
  else if entryIters e q.shapes = 0 then endEntry n e s
  else
    let r := seqActs n e ((iterActs e q.shapes q.idx).drop q.took) s
    if ¬ r.2 then r.1
    else match nextIdx e q.shapes q.idx with
      | some idx => modSeq n.val (fun q => { q with idx := idx, took := 0 }) r.1
      | none => endEntry n e r.1

def execIteration (n : Rgn) (s : State) : Host.Outcome State Fault Refusal := live s (seqIterate n)

/-! ### Summaries and branches (R143 to R145) -/

def showSummary (n : Rgn) (s : State) : State :=
  s.setFld (Reg.SEQ_SUMMARY n) Reg.SEQ_SUMMARY_QUEUED (s.rgn n).seq.summary.length

/-- A scalar token that cell (0, 0) of a block has routed to its local output reaches the summary port, if it has room. -/
def summaryArrives (n : Rgn) (b : Nat) (s : State) : State :=
  let c := s.cell n.val (64 * b)
  match c.sout.toList.getD 4 none with
  | none => s
  | some f =>
    if 16 ≤ (s.rgn n).seq.summary.length ∨ blockState s n b ≠ 1 ∨ (s.rgn n).frozen.getLsbD b then s
    else
      let s1 := s.setCell n.val (64 * b) { c with sout := c.sout.set 4 none }
      let s2 := showSummary n (modSeq n.val (fun q => { q with summary := q.summary ++ [f] }) s1)
      match (s.rgn n).seq.running.find? fun x => x.1 == f.slot.val with
      | some x => if f.sig ∧ x.2.1 then signalSem n x.2.2 1 s2 else s2
      | none => s2

def execSummaryToken (n : Rgn) (b : Blk) (s : State) : Host.Outcome State Fault Refusal := live s (summaryArrives n b.val)

/-- The oldest queued token of a slot and the queue without it. -/
def takeSummary (sl : Nat) : List Flit → Option (Flit × List Flit)
  | [] => none
  | f :: fs =>
    if f.slot.val = sl then some (f, fs)
    else (takeSummary sl fs).map fun r => (r.1, f :: r.2)

/-- BRANCH: every descriptor of the entry has completed, so that its signals are applied too. -/
def seqBranch (n : Rgn) (s : State) : State :=
  let q := (s.rgn n).seq
  let e := seqEntry s n
  if ¬ (seqRunning s n ∧ q.phase = .branch) then s
  else if ¬ (stillOut s n q.issued).isEmpty then waitOn n 5 0 s
  else match takeSummary (eSlot e) q.summary with
    | none => waitOn n 4 0 s
    | some (f, rest) =>
      let s1 := waitOver n (modSeq n.val (fun q => { q with summary := rest, phase := .answer }) s)
      let s2 := (s1.setFld (Reg.SEQ_SUMMARY n) Reg.SEQ_SUMMARY_VALUE (f.data.toNat % 2 ^ 32)).setFld (Reg.SEQ_SUMMARY n)
        Reg.SEQ_SUMMARY_SLOT f.slot.val
      irqRaise (evRgn n.val 1) 0 (showSummary n s2)

def execBranch (n : Rgn) (s : State) : Host.Outcome State Fault Refusal := live s (seqBranch n)

/-- Is an FP32 value less than another? Neither is a NaN, and the zeros are equal. -/
def f32Nan (v : BitVec 32) : Bool := v.extractLsb' 23 8 == 255 && v.extractLsb' 0 23 != 0
def f32Key (v : BitVec 32) : Int :=
  let m : Int := (v.extractLsb' 0 31).toNat
  if v.msb then -m else m
def f32Lt (a b : BitVec 32) : Bool := !f32Nan a && !f32Nan b && decide (f32Key a < f32Key b)

/-- Branch row choice (Table 5.8). -/
def branchRow (mode k : Nat) (bounds : List (BitVec 32)) (v : BitVec 32) : Nat :=
  if mode = 0 then (if v.toInt < 0 then 0 else min v.toInt.toNat (k - 1))
  else (bounds.findIdx? fun b => if mode = 1 then f32Lt v b else decide (v.toInt < b.toInt)).getD (k - 1)

/-- BRANCH_ANSWER: the host's row, and the entry it leads to. -/
def seqAnswer (n : Rgn) (s : State) : State :=
  let q := (s.rgn n).seq
  let e := seqEntry s n
  if ¬ (seqRunning s n ∧ q.phase = .answer) then s
  else if fetchBad s n .branchRows then fetchUe n .branchRows s
  else
    let rows := (List.range (eBrN e + 1)).map fun i => planBranch s n q.table (eBrPtr e + i)
    let v := BitVec.ofNat 32 (s.fld (Reg.SEQ_SUMMARY n) Reg.SEQ_SUMMARY_VALUE)
    let r := branchRow (eBrMode e) (eBrN e + 1) (rows.map fun w => BitVec.ofNat 32 (ebits w 0 32)) v
    if 16384 < eBrPtr e + eBrN e + 1 ∨ (rows.any fun w => ebits w 46 18 != 0) then planFail n ST_INTERNAL s
    else
      setPc n (ebits (rows.getD r 0) 32 14) (modSeq n.val (fun q => { q with phase := .entry })
        (s.setFld (Reg.SEQ_SUMMARY n) Reg.SEQ_SUMMARY_ROW r))

def execBranchAnswer (n : Rgn) (s : State) : Host.Outcome State Fault Refusal := live s (seqAnswer n)

/-! ### WAIT_LIMIT_EXPIRY (R155) -/

/-- A semaphore or barrier wait has passed its limit: it counts as progress no more. No cell has stepped, so a stall that has been
raised stays raised (R44). -/
def waitExpires (n : Rgn) (s : State) : State :=
  if waitProgress s n then s
  else
    let s1 := match (s.rgn n).seq.waitFrom with
      | some _ => creditWait n s
      | none => s
    modSeq n.val (fun q => { q with waitFrom := none }) s1

def execWaitLimitExpiry (n : Rgn) (s : State) : Host.Outcome State Fault Refusal := live s (waitExpires n)

end Sys2Proof.Machine
end

