-- ==== Sys2Proof/Machine/AxiumOps.lean ====
section
/-!
DEFINITION. The Axium port's sending side (R339 to R342, R350 to R356): messages as flits, credits and the replay buffer,
and the circuit table.
-/

namespace Sys2Proof.Machine

def modPort (n : Nat) (f : Port → Port) (s : State) : State := s.modRgn n fun r => { r with port := f r.port }

/-! ### Port states and circuits (Tables 14.3, 14.14) -/

def portDown : Nat := 0
def portTraining : Nat := 1
def portLinked : Nat := 2
def portHello : Nat := 3
def portJoined : Nat := 4
def portFailed : Nat := 5
def portState (s : State) (n : Rgn) : Nat := s.fld (Reg.FAB_PORT_STATUS n) Reg.FAB_PORT_STATUS_STATE
def setPortState (n : Rgn) (st : Nat) (s : State) : State := s.setFld (Reg.FAB_PORT_STATUS n) Reg.FAB_PORT_STATUS_STATE st

def circFree : Nat := 0
def circBinding : Nat := 1
def circBound : Nat := 2
def circLost : Nat := 3
def circUnbinding : Nat := 4
def circState (s : State) (n : Rgn) (c : Nat) : Nat := s.fld (Reg.FAB_CIRC n c) Reg.FAB_CIRC_STATE
def circPeer (s : State) (n : Rgn) (c : Nat) : Nat := s.fld (Reg.FAB_CIRC n c) Reg.FAB_CIRC_PEER_CHIP
def circPart (s : State) (n : Rgn) (c : Nat) : Nat := s.fld (Reg.FAB_CIRC n c) Reg.FAB_CIRC_PEER_PARTITION

def circOf (s : State) (n : Rgn) (c : Nat) : Option Circuit := (s.rgn n).port.circuits.find? fun x => x.index == c
def modCirc (n : Rgn) (c : Nat) (f : Circuit → Circuit) (s : State) : State :=
  modPort n (fun p => { p with circuits := p.circuits.map fun x => if x.index = c then f x else x }) s

/-- Requests of the region outstanding on a circuit. -/
def circUse (s : State) (n : Rgn) (c : Nat) : Nat :=
  ((s.rgn n).reqs.filter fun q => (q.remote.map Prod.fst) == some c && !q.killed).length +
  ((s.rgn n).port.asks.filter fun a => a.circuit == c).length

/-- FAB_CIRC.OUTSTANDING and FAB_PORT_STATUS.BOUND follow the state. -/
def showCirc (n : Rgn) (c : Nat) (s : State) : State :=
  let s1 := s.setFld (Reg.FAB_CIRC n c) Reg.FAB_CIRC_OUTSTANDING (min 256 (circUse s n c))
  s1.setFld (Reg.FAB_PORT_STATUS n) Reg.FAB_PORT_STATUS_BOUND
    ((s.rgn n).port.circuits.filter fun x => circState s n x.index == circBound).length

/-- The BOUND entry of the port whose PEER_CHIP is `chip` (R355). -/
def circTo (s : State) (n : Rgn) (chip : Nat) : Option Nat :=
  ((s.rgn n).port.circuits.find? fun x => circState s n x.index == circBound && circPeer s n x.index == chip).map Circuit.index

/-! ### Messages and flits -/

/-- Message types (Table 14.5). -/
def axGet : Nat := 0x01
def axPut : Nat := 0x02
def axData : Nat := 0x03
def axSignal : Nat := 0x04
def axAsk : Nat := 0x08
def axGrant : Nat := 0x09
def axRecall : Nat := 0x0A
def axReturn : Nat := 0x0B
def axProbe : Nat := 0x10
def axAckT : Nat := 0x11
def axNak : Nat := 0x12
def axHello : Nat := 0x20

/-- Does the type travel on the response channel (R342)? -/
def onResponse (ty : Nat) : Bool := ty == axData || ty == axAckT || ty == axNak || ty == axGrant

/-- The 32-byte header (Table 14.4) and what follows it. -/
def axBytes (ty cause reqId tag arg : Nat) (gta : BitVec 128) (body : List Byte) : List Byte :=
  leBytes 1 ty ++ leBytes 1 cause ++ leBytes 2 reqId ++ leBytes 2 tag ++ [0, 0] ++ leBytes 8 arg ++ leBytes 16 gta.toNat ++ body

/-- A message cut into the payloads of its flits. -/
def cutFlits (response : Bool) (circuit : Nat) : Nat → List Byte → List AxFlit
  | 0, _ => []
  | k + 1, b =>
    ⟨0, 0, 0, response, circuit, 0, false, b.take 244, false⟩ ::
      (if b.length ≤ 244 then [] else cutFlits response circuit k (b.drop 244))

/-- Flits that a message of `k` bytes takes. -/
def flitsFor (k : Nat) : Nat := (k + 243) / 244

/-- Credits a flit gives back: the request channel first. -/
def owedCredits (p : Port) : Nat × Bool := if 0 < p.owed[0] then (min 255 p.owed[0], false) else (min 255 p.owed[1], true)

def vcIx (response : Bool) : Nat := if response then 1 else 0

/-- Put a KIND 0 flit on the link: it takes a credit and a SEQ and stays in the replay buffer. -/
def putFlit (f : AxFlit) (p : Port) : Port :=
  let o := owedCredits p
  let g := { f with seq := p.nextSeq, ack := p.lastGood, credits := o.1, creditVc := o.2 }
  { p with sent := p.sent ++ [g], replay := p.replay ++ [g], nextSeq := p.nextSeq + 1,
           credits := Vec.modify p.credits (vcIx f.response) (· - 1), owed := Vec.modify p.owed (vcIx o.2) (· - o.1) }

/-- Send waiting flits in order, each channel as far as its credits and the 512-flit replay buffer allow; before the port
is JOINED only those of a HELLO. -/
def drainFlits (joined : Bool) : List AxFlit → Port → Port
  | [], p => p
  | f :: fs, p =>
    if (joined ∨ f.hello) ∧ 0 < p.credits.toList.getD (vcIx f.response) 0 ∧ p.replay.length < 512 then drainFlits joined fs (putFlit f p)
    else drainFlits joined fs { p with waiting := p.waiting ++ [f] }

/-- Do flits pass (Table 14.3)? -/
def linkOpen (s : State) (n : Rgn) : Bool := decide (portLinked ≤ portState s n) && decide (portState s n ≤ portJoined)

def drainPort (n : Rgn) (s : State) : State :=
  if linkOpen s n then modPort n (fun p => drainFlits (portState s n == portJoined) p.waiting { p with waiting := [] }) s else s

/-- Send a message on a circuit. -/
def axSend (n : Rgn) (circuit ty cause reqId tag arg : Nat) (gta : BitVec 128) (body : List Byte) (s : State) : State :=
  let b := axBytes ty cause reqId tag arg gta body
  drainPort n (modPort n (fun p => { p with waiting := p.waiting ++ cutFlits (onResponse ty) circuit (flitsFor b.length) b }) s)

/-- Send a flit of another KIND (R340). -/
def axPlain (n : Rgn) (kind circuit : Nat) (s : State) : State :=
  modPort n (fun p =>
    let o := owedCredits p
    { p with sent := p.sent ++ [⟨kind, p.nextSeq, p.lastGood, false, circuit, o.1, o.2, [], false⟩],
             owed := Vec.modify p.owed (vcIx o.2) (· - o.1) }) s

/-- Send a request that is not a tile request, and keep it until it is answered. -/
def axRequest (n : Rgn) (circuit ty tag arg : Nat) (cmd desc : Option Nat) (offer : BitVec 32) (s : State) : State :=
  let id := s.nextId
  let s1 := modPort n (fun p => { p with asks := p.asks ++ [⟨BitVec.ofNat 16 id, circuit, ty, cmd, desc, offer, s.now⟩] })
    { s with nextId := id + 1 }
  showCirc n circuit (axSend n circuit ty 0 (id % 65536) tag arg 0 [] s1)

end Sys2Proof.Machine
end

