-- ==== Sys2Proof/Machine/Places.lean ====
section
/-!
DEFINITION. The places of a transfer's tiles (R159, R162, R165 to R167, R189, R190, R230 to R232, R355): a descriptor's fields, the
elements in range, where each tile lies, and the end of a command on a failed check.
-/

namespace Sys2Proof.Machine

/-! ### Fields of a descriptor (Table 6.3) -/

def Desc.kind (d : Desc) : Nat := dNat d.bytes 0 4
def Desc.count (d : Desc) : Nat := dNat d.bytes 112 16 + 1
def Desc.blocks (d : Desc) : Nat := dNat d.bytes 192 9
def Desc.links (d : Desc) : Nat := dNat d.bytes 201 8
def Desc.layout (d : Desc) : Nat := dNat d.bytes 16 2
def Desc.win (d : Desc) (dst : Bool) : Nat := if dst then dNat d.bytes 226 4 else dNat d.bytes 8 4
def Desc.tier (d : Desc) (dst : Bool) : Nat := if dst then dNat d.bytes 230 3 else dNat d.bytes 4 3
def Desc.sigEn (d : Desc) : Bool := dNat d.bytes 209 1 == 1
def Desc.sigN (d : Desc) : Nat := dNat d.bytes 210 4
def Desc.sigRgn (d : Desc) : Rgn := Fin.ofNat 16 (dNat d.bytes 214 4)
def Desc.sigSem (d : Desc) : Nat := dNat d.bytes 218 8

/-- A signed 24-bit stride. -/
def stride (d : Desc) (lo : Nat) : Int := (BitVec.ofNat 24 (dNat d.bytes lo 24)).toInt

/-- The window tile of tile `t` of the transfer (R165). -/
def windowTile (d : Desc) (t : Nat) : Int :=
  dNat d.bytes 32 32 + (d.idx.getD 0 0 : Int) * stride d 64 + (d.idx.getD 1 0 : Int) * stride d 88 +
    (d.idx.getD 2 0 : Int) * stride d 128 + t

def Desc.rows (d : Desc) : Nat := dNat d.bytes 160 12 + 1
def Desc.cols (d : Desc) : Nat := dNat d.bytes 172 12 + 1
/-- Flits of a transfer (R162, R168, R169): the 128-bit words of the panel, or of its whole tiles. -/
def Desc.flits (d : Desc) : Nat :=
  let w := fmtWidth (dNat d.bytes 12 4)
  if d.layout = 0 then (d.rows + 7) / 8 * ((d.cols * w + 15) / 16)
  else if d.layout = 1 then (d.rows * d.cols * w + 127) / 128
  else 256 * d.count

/-! ### Which bits of a tile are in range (R138, R162, R170) -/

def rangeOf (d : Desc) (lo full : Nat) : Nat := if dNat d.bytes lo 2 = 3 then full else min full (d.ext.getD (dNat d.bytes lo 2) 0)
def Desc.lines (d : Desc) : Nat := rangeOf d 18 d.rows
def Desc.vals (d : Desc) : Nat := rangeOf d 20 d.cols

/-- Is bit `p` of the transfer part of an in-range element? -/
def bitIn (d : Desc) (p : Nat) : Bool :=
  let w := fmtWidth (dNat d.bytes 12 4)
  if d.layout = 0 then
    let wpb := (d.cols * w + 15) / 16
    decide (8 * (p / 128 / wpb) + p % 128 / 16 < d.lines) && decide ((p / 128 % wpb * 16 + p % 16) / w < d.vals)
  else if d.layout = 1 then
    let b := p / w / 64
    let nb := d.cols / 8
    decide (8 * (b / nb) + p / w % 64 / 8 < d.lines) && decide (8 * (b % nb) + p / w % 8 < d.vals)
  else true

/-- The in-range bits of a byte, and of a tile. -/
def byteMask (d : Desc) (j : Nat) : Byte :=
  BitVec.ofNat 8 ((List.range 8).foldl (fun m i => m + if bitIn d (8 * j + i) then 2 ^ i else 0) 0)
def tileMask (d : Desc) (t : Nat) : List Byte := (List.range 4096).map fun j => byteMask d (4096 * t + j)

def maskBytes (mask b : List Byte) : List Byte := List.zipWith (· &&& ·) b mask
/-- Old bytes with the masked bits of new ones. -/
def mergeBytes (mask old new : List Byte) : List Byte :=
  List.zipWith (fun (m : Byte) (p : Byte × Byte) => (p.1 &&& ~~~ m) ||| (p.2 &&& m)) mask (old.zip new)

/-! ### Where a tile lies (R159, R165 to R167, R189, R190, R230 to R232, R355) -/

/-- Where a tile of a transfer lies: in the region's own space, on another chip, or nowhere (a walk read beyond the visible
length, which delivers zeros). -/
inductive Place where
  | here (tier tile : Nat)
  | there (circuit : Nat) (gta : BitVec 128)
  | nothing
  /-- A failed check: TM_ERR cause, status, and OFFSET. -/
  | bad (cause status off : Nat)
  /-- A walk error (R232). -/
  | walkErr (off : Nat)
  deriving DecidableEq, Repr

/-- A lot of the lent tier of a region (R358). -/
def lotAt (s : State) (n : Rgn) (lot : Nat) : Option Borrow := s.borrows.find? fun b => b.rgn == n.val && b.lot == lot

def remotePlace (s : State) (n : Rgn) (chip tier off : Nat) : Place :=
  match circTo s n chip with
  | none => .bad 8 ST_NO_CIRCUIT off
  | some c => .there c (mkGta chip n.val tier (circPart s n c) off)

/-- A tile of the region's own tiers, or of a lot it has borrowed. -/
def ownPlace (s : State) (n : Rgn) (tier tile : Nat) : Place :=
  if tier = 4 then
    match lotAt s n (tile / 2 ^ 18) with
    | none => .bad 4 ST_INTERNAL (4096 * tile)
    | some b =>
      if circState s n b.circuit = circBound then
        .there b.circuit (mkGta b.chip n.val 2 (circPart s n b.circuit) (b.lenderLot * 2 ^ 30 + 4096 * (tile % 2 ^ 18)))
      else .bad 8 ST_NO_CIRCUIT (4096 * tile)
  else if tile < tierCap s n tier then .here tier tile
  else .bad 4 ST_INTERNAL (4096 * tile)

/-- A tile through walk window `k` (R230 to R232). -/
def walkPlace (s : State) (n : Rgn) (k : Nat) (write : Bool) (tile : Nat) : Place :=
  let q := (s.rgn n).seq
  let cfg := (q.walks.getD k (0, 0)).1
  let pb := Reg.KV_WALK_CFG_PB.get cfg + 1
  let rows := min 64 (Reg.KV_WALK_CFG_ROWS.get cfg)
  if tierCap s n 1 ≤ (q.walks.getD k (0, 0)).2 then .bad 4 ST_INTERNAL (4096 * (q.walks.getD k (0, 0)).2)
  else if tile / 2 ^ 31 % 2 = 1 then (if write then .walkErr (4096 * tile) else ownPlace s n 1 (q.walks.getD k (0, 0)).2)
  else
    let r := tile / (4096 * pb)
    let p := tile / pb % 4096
    let row := slice (q.lists.getD k []) (64 * r) 64
    let vis := leAt row 0x08 4
    let at' := 4096 * leAt row 0x00 4 + 8 * p
    let e := leNat (s.load (nearAddr n at') 8)
    let usable := e / 2 ^ 63 % 2 == 1 && decide (p < leAt row 0x10 2)
    if rows ≤ r ∨ vis = 0 ∨ vis ≤ 16 * p then (if write then .walkErr (4096 * tile) else .nothing)
    else if nearPoisoned s n.val at' 8 then .bad 1 ST_TIER_ERROR at'
    else if ¬ usable ∨ (write ∧ 16 * p + 16 ≤ leAt row 0x0C 4) then .walkErr (4096 * tile)
    else ownPlace s n 1 (e % 2 ^ 32 + tile % pb)

/-- The place of tile `t` of a descriptor, after the checks of R167 in the table's order. A window to another
chip skips the end of the tier's space alone (R355). DEDUCED (log entry 153). -/
def placeOf (s : State) (n : Rgn) (d : Desc) (dst : Bool) (t : Nat) : Place :=
  let w := d.win dst
  let write := dst || d.kind == 2
  let x := (s.rgn n).seq.wins.getD w (0, 0)
  let chip := Reg.TM_WIN_HI_CHIP.get x.2
  let rgn := Reg.TM_WIN_HI_REGION.get x.2
  let tier := Reg.TM_WIN_HI_TIER.get x.2
  let part := Reg.TM_WIN_HI_PARTITION.get x.2
  let mine := chip == myChip s && rgn == n.val && (s.partOf n).map Fin.val == some part
  let walk := decide (12 ≤ w) && Reg.KV_WALK_CFG_EN.get (((s.rgn n).seq.walks.getD (w - 12) (0, 0)).1) == 1
  let tile := windowTile d t
  let off := 4096 * (Reg.TM_WIN_LO_BASE.get x.1 + tile.toNat)
  if Reg.TM_WIN_HI_VALID.get x.2 ≠ 1 ∨ d.tier dst ≠ tier ∨ (walk ∧ ¬ (tier = 1 ∧ mine)) then .bad 3 ST_INTERNAL off
  else if tile < 0 then .bad 4 ST_INTERNAL off
  else if walk then walkPlace s n (w - 12) write tile.toNat
  else if Reg.TM_WIN_HI_LIMIT.get x.2 ≤ tile.toNat then .bad 4 ST_INTERNAL off
  else
    let own := if chip = myChip s then ownPlace s n tier (off / 4096) else .nothing
    match own with
    | .bad 4 st o => .bad 4 st o
    | _ =>
      if (s.partOf n).map Fin.val ≠ some part then .bad 5 ST_INTERNAL off
      else if rgn ≠ n.val then .bad 6 ST_INTERNAL off
      else if chip = myChip s then own else remotePlace s n chip tier off

/-- Does the descriptor reach another chip, and over which circuit (R355)? -/
def remoteCircuit (s : State) (n : Rgn) (d : Desc) : Option Nat :=
  match placeOf s n d (d.kind == 3) 0 with
  | .there c _ => some c
  | _ => match placeOf s n d false 0 with
    | .there c _ => some c
    | _ => none

/-! ### Ending a command on a failure -/

/-- TM_ERR, the end of the command, or of a plan started without one, and the tile-mover source (R167, R179, Table 6.4). -/
def tmEnd (n : Rgn) (cmd : Option Nat) (desc tier win cause off status : Nat) (s : State) : State :=
  match cmd with
  | some id => tmFail n id desc tier win cause off status s
  | none =>
    raiseWith status (rgnSrc n.val 30) false ⟨none, 0, 0⟩
      (flushAll n (seqStop n (tmError n desc tier win cause off s)))

def endOn (n : Rgn) (d : Desc) (dst : Bool) (p : Place) (s : State) : State :=
  match p with
  | .bad cause status off =>
    let t := showMover n (tmEnd n d.cmd d.row (d.tier dst) (d.win dst) cause off status s)
    if cause = 1 then nearUe n d.cmd off t else t
  | .walkErr off =>
    showMover n (tmEnd n d.cmd d.row (d.tier dst) (d.win dst) 4 off ST_INTERNAL (s.setFld (Reg.KV_STATUS n) Reg.KV_STATUS_WALK_ERR 1))
  | _ => s

end Sys2Proof.Machine
end

