-- ==== Sys2Proof/Machine/Copies.lean ====
section
/-!
DEFINITION. Tile requests (R43, R163, R174, R180): the queues of a region's controllers, and the copies and image reads that firmware
has the tile mover make for TIER_COPY, SESSION_PARK, SESSION_RESUME, PKG_STAGE and ADAPTER_LOAD.
-/

namespace Sys2Proof.Machine

/-! ### Controllers (R43, R175) -/

/-- The controller of a tile: near channels 0 to 11, the herd channel, the fold channel, the Axium port. -/
def tileCtl (tier tile : Nat) : Nat := if tier = 1 then tile % 12 else if tier = 2 then 12 else if tier = 3 then 13 else 14
def placeCtl : Place → Nat
  | .here t k => tileCtl t k
  | _ => 14
def reqCtl (q : Req) : Nat := if q.remote.isSome then 14 else tileCtl q.tier (q.addr / 4096)

/-- Does a request take a place at a controller: its own, or that of the write which its answer brings? -/
def reqAt (k : Nat) (q : Req) : Bool := reqCtl q == k || q.dst.any fun d => tileCtl d.1 d.2 == k

/-- The tile mover holds 32 requests at a controller. -/
def atLimit (s : State) (n : Rgn) (k : Nat) : Bool := decide (32 ≤ ((s.rgn n).reqs.filter (reqAt k)).length)

def placeTier : Place → Nat
  | .here t _ => t
  | .there _ _ => 4
  | _ => 0

/-! ### Issuing a request -/

/-- The tag of a command's packet, as messages carry it. -/
def cmdTag (s : State) (cmd : Option Nat) : Nat := ((cmd.bind s.cmd).map Cmd.tag).getD 0

/-- The bytes of a line among those of a tile. -/
def lineMask (mask : List Byte) (i : Nat) : List Byte := slice mask (64 * i) 64

def noneIn (mask : List Byte) : Bool := mask.all (· == 0)
def allIn (mask : List Byte) : Bool := mask.all (· == 0xFF)
def fullMask : List Byte := List.replicate 4096 0xFF

/-- Line mask of a TILE_PUT: bit i set when line i is written. -/
def putArg (mask : List Byte) : Nat :=
  (List.range 64).foldl (fun a i => a + if noneIn (lineMask mask i) then 0 else 2 ^ i) 0
/-- Byte enables, one bit a byte. -/
def enableBlock (mask : List Byte) : List Byte :=
  (List.range 512).map fun j =>
    BitVec.ofNat 8 ((List.range 8).foldl (fun a i => a + if mask.getD (8 * j + i) 0 = 0 then 0 else 2 ^ i) 0)

/-- Does some line hold both bytes that are written and bytes that are not? -/
def partLines (mask : List Byte) : Bool :=
  (List.range 64).any fun i => !noneIn (lineMask mask i) && !((lineMask mask i).all (· != 0))

/-- The end of the queue takes a request: at a controller of the region, or as a message on the port. `q` says what it is for. -/
def queueReq (n : Rgn) (q : Req) (mask : List Byte) (p : Place) (s : State) : State :=
  let id := s.nextId
  let add := fun (x : Req) => settleLuns n (({ s with nextId := id + 1 }).modRgn n fun r => { r with reqs := r.reqs ++ [x] })
  let q1 := { q with id := id, tier := placeTier p, tick := s.now }
  match p with
  | .here tier tile => add { q1 with
      addr := 4096 * tile,
      blk := if tier = 3 ∧ ¬ q.write then (unitOf (s.rgn n).fold (tile / 4)).map fun u => physBlock s n u.phys else none }
  | .there c gta =>
    let tag := cmdTag s q.cmd
    let s1 := add { q1 with addr := gtaOff gta, remote := some (c, id % 65536) }
    let enables := if partLines mask then enableBlock mask else []
    showCirc n c (
      if q.write then axSend n c axPut (if enables.isEmpty then 0 else 128) (id % 65536) tag (putArg mask) gta (q.data ++ enables) s1
      else axSend n c axGet 0 (id % 65536) tag 0 gta [] s1)
  | _ => s

def blankReq : Req :=
  { id := 0, desc := none, cmd := none, tier := 0, addr := 0, tile := 0, write := false, data := [], tick := 0, slot := none,
    remote := none, killed := false, blk := none, dst := none }

/-- A request of a descriptor. -/
def issueReq (n : Rgn) (d : Desc) (t : Nat) (write : Bool) (data mask : List Byte) (p : Place) (s : State) : State :=
  touchMover n d.slot (queueReq n { blankReq with
    desc := some d.id, cmd := d.cmd, tile := t, write := write, data := data, slot := some d.slot.val } mask p s)

/-- A request of a command that firmware carries out. -/
def fwRequest (n : Rgn) (id t : Nat) (write : Bool) (data : List Byte) (dst : Option (Nat × Nat)) (p : Place) (s : State) : State :=
  queueReq n { blankReq with cmd := some id, tile := t, write := write, data := data, dst := dst } fullMask p s

/-! ### Copies (R296, R240, R242, R358) -/

/-- Write a tile of a copy to its destination. -/
def putMoved (id : Nat) (n : Rgn) (t : Nat) (dst : Nat × Nat) (b : List Byte) (s : State) : State :=
  match ownPlace s n dst.1 dst.2 with
  | .bad cause st off => tmFail n id 0 dst.1 0 cause off st s
  | p => fwRequest n id t true b none p s

/-- Start one move: ask for the tile it reads, or write the bytes it has. -/
def startMove (c : Cmd) (t : Nat) (m : Move) (s : State) : State :=
  let n : Rgn := Fin.ofNat 16 m.rgn
  match m.src with
  | none => putMoved c.id n t m.dst m.data s
  | some a => match ownPlace s n a.1 a.2 with
    | .bad cause st off => tmFail n c.id 0 a.1 0 cause off st s
    | p => fwRequest n c.id t false [] (some m.dst) p s

/-- Have both controllers of a move room for it (R43)? -/
def moveFits (s : State) (m : Move) : Bool :=
  let n : Rgn := Fin.ofNat 16 m.rgn
  !atLimit s n (tileCtl m.dst.1 m.dst.2) && m.src.all fun a => !atLimit s n (tileCtl a.1 a.2)

/-- Start the moves of a running copy, in order, as the controllers have room. -/
def pumpCopy : Nat → Nat → State → State
  | 0, _, s => s
  | k + 1, id, s =>
    match s.cmd id with
    | none => s
    | some c =>
      if isCopyOp c.opcode ∧ c.phase = .running ∧ ¬ s.pwr.hold then
        match moveAt c s c.stepNo with
        | none => s
        | some m =>
          if moveFits s m then
            pumpCopy k id (startMove c c.stepNo m (s.modCmd id fun x => { x with stepNo := x.stepNo + 1 }))
          else s
      else s

def copyFuel : Nat := 64

/-! ### Reading an image from a tier (R266, R267) -/

def isImageOp (op : Nat) : Bool := op == 0x10 || op == 0x13

/-- Is a request of the command outstanding? -/
def asksFor (s : State) (id : Nat) : Bool := allRgns.any fun n => (s.rgn n).reqs.any fun q => q.cmd == some id && !q.killed

/-- A running stage or load asks for the next tile of its rest copy. -/
def feedRest (id : Nat) (s : State) : State :=
  match s.cmd id with
  | none => s
  | some c =>
    let r := restOf c
    let i := c.work.length / 4096
    if isImageOp c.opcode ∧ c.phase = .running ∧ ¬ s.pwr.hold ∧ c.rdErr.isNone ∧ r.src < 2 ∧ c.work.length < imageTotal c ∧
        (c.stepNo = 1 ∨ restHeld s (cmdPart c) r (imageTotal c / 4096)) ∧ ¬ asksFor s id then
      let t := restTile r i
      let n : Rgn := Fin.ofNat 16 t.1
      match ownPlace s n t.2.1 t.2.2 with
      | .bad cause st off => tmFail n id 0 t.2.1 0 cause off st s
      | p => fwRequest n id i false [] none p s
    else s

/-- Firmware goes on with a command. -/
def pump (id : Nat) (s : State) : State := feedRest id (imageSteps id (pumpCopy copyFuel id s))

/-- A request of a command that firmware carries out has ended well: a write is done, a tile read is written to its place, and a
tile of an image joins those read before it. -/
def fwDone (n : Rgn) (q : Req) (b : List Byte) (s : State) : State :=
  match q.cmd with
  | none => s
  | some id =>
    pump id (
      if q.write then s
      else match q.dst with
        | some d => putMoved id n q.tile d b s
        | none => s.modCmd id fun c => { c with work := c.work ++ b })

end Sys2Proof.Machine
end

