-- ==== Sys2Proof/Machine/TileMover.lean ====
section
/-!
DEFINITION. The tile mover (R161 to R172, R178 to R180, R228 to R232, R355): READ, WRITE and COPY, the tier controllers' answers,
timeouts and patrol scrub.
-/

namespace Sys2Proof.Machine

/-! ### Issuing requests (R43, R165, R172, R180) -/

def modDesc (n : Rgn) (d : Nat) (f : Desc → Desc) (s : State) : State :=
  s.modRgn n fun r => { r with descs := r.descs.map fun x => if x.id = d then f x else x }

/-- A descriptor in progress: one of the 16 oldest of its region. -/
def inProgress (s : State) (n : Rgn) (d : Nat) : Option Desc := ((s.rgn n).descs.take 16).find? fun x => x.id == d

/-- The signal check, before the first request (R167). -/
def signalBad (s : State) (n : Rgn) (d : Desc) : Bool := d.sigEn && s.partOf d.sigRgn != s.partOf n

/-- A step of a descriptor of the given KIND, unless its signal check fails. -/
def withDesc (n : Rgn) (d kind : Nat) (f : Desc → State → State) (s : State) : State :=
  match inProgress s n d with
  | none => s
  | some x =>
    if x.kind ≠ kind ∨ s.pwr.hold then s
    else if x.next = 0 ∧ signalBad s n x then showMover n (tmEnd n x.cmd x.row (x.tier false) (x.win false) 9 0 ST_INTERNAL s)
    else f x s

/-! ### READ (R168, R170) -/

/-- Blocks a descriptor names, and its links, ascending. -/
def bitsOf (m k : Nat) : List Nat := (List.range k).filter m.testBit
def Desc.blockList (d : Desc) : List Nat := bitsOf d.blocks 9
def Desc.linkList (d : Desc) : List Nat := bitsOf d.links 8

def blockFenced (s : State) (n : Rgn) (b : Nat) : Bool := decide (2 ≤ blockState s n b)

/-- Copies of a tile for fenced blocks are dropped, the fault of R40 is raised for each, and the command does not commit (R39). -/
def dropFenced (n : Rgn) (cmd : Option Nat) (sl : Nat) : List Nat → State → State
  | [], s => s
  | b :: bs, s =>
    dropFenced n cmd sl bs
      (if blockFenced s n b then
        endPlanOf n ST_INTERNAL (raiseDetail (rgnSrc n.val (3 * b + 1)) cmd (256 * 8 + 4096 * sl + 2 ^ 14 * 2) s)
       else s)

/-- Ask for the descriptor's next tile; one that is wholly beyond the shape is delivered as zeros without a read. -/
def readNext (n : Rgn) (x : Desc) (s : State) : State :=
  if x.count ≤ x.next then s
  else
    let p := placeOf s n x false x.next
    let take := fun (z : Desc) => { z with next := z.next + 1 }
    let s0 := dropFenced n x.cmd x.slot.val x.blockList s
    let zero := fun (t : State) => modDesc n x.id (fun z => { z with next := z.next + 1, buf := z.buf ++ [(x.next, List.replicate 4096 0)] }) t
    match p with
    | .bad _ _ _ | .walkErr _ => endOn n x false p s
    | .nothing => zero s0
    | _ =>
      if noneIn (tileMask x x.next) then zero s0
      else if atLimit s n (placeCtl p) then s
      else issueReq n x x.next false [] [] p (modDesc n x.id take s0)

def execRead (n : Rgn) (d : Nat) (s : State) : Host.Outcome State Fault Refusal :=
  live s fun s => withDesc n d 1 (readNext n) s

/-! ### WRITE (R169, R170) -/

/-- The bytes of a tile of a WRITE, once its 256 flits, or the descriptor's last one, have arrived; what follows is padding. -/
def collected (x : Desc) (t : Nat) : Option (List Byte) :=
  (List.range 256).foldr (fun i acc =>
    match acc, x.got.find? fun g => g.1 == 256 * t + i with
    | some b, some g => some (leBytes 16 g.2.toNat ++ b)
    | some b, none => if x.flits ≤ 256 * t + i then some (List.replicate 16 0 ++ b) else none
    | none, _ => none) (some [])

/-- Write the next collected tile; one with nothing in range is not written. -/
def writeNext (n : Rgn) (x : Desc) (s : State) : State :=
  if x.count ≤ x.next then s
  else match collected x x.next with
    | none => s
    | some b =>
      let p := placeOf s n x false x.next
      let mask := tileMask x x.next
      let drop := fun (z : Desc) => { z with next := z.next + 1, got := z.got.filter fun g => g.1 / 256 != x.next }
      match p with
      | .bad _ _ _ | .walkErr _ => endOn n x false p s
      | .nothing => s
      | _ =>
        if noneIn mask then modDesc n x.id (fun z => { drop z with acked := z.acked + 1 }) s
        else if atLimit s n (placeCtl p) then s
        else issueReq n x x.next true b mask p (modDesc n x.id drop s)

def execWrite (n : Rgn) (d : Nat) (s : State) : Host.Outcome State Fault Refusal :=
  live s fun s => withDesc n d 2 (writeNext n) s

/-! ### COPY (R161, R165) -/

/-- Write the tile whose turn it is, once it has been read, or read the next one: the requests of one descriptor reach each
controller in tile order (R172). -/
def copyNext (n : Rgn) (x : Desc) (s : State) : State :=
  match x.buf.find? fun y => y.1 == x.wrote with
  | some y =>
    let p := placeOf s n x true x.wrote
    (match p with
    | .bad _ _ _ | .walkErr _ => endOn n x true p s
    | .nothing => s
    | _ =>
      if atLimit s n (placeCtl p) then s
      else issueReq n x x.wrote true y.2 fullMask p
        (modDesc n x.id (fun z => { z with wrote := z.wrote + 1, buf := z.buf.filter fun w => w.1 != x.wrote }) s))
  | none =>
    if x.count ≤ x.next then s
    else
      let p := placeOf s n x false x.next
      match p with
      | .bad _ _ _ | .walkErr _ => endOn n x false p s
      | .nothing => modDesc n x.id (fun z => { z with next := z.next + 1, buf := z.buf ++ [(x.next, List.replicate 4096 0)] }) s
      | _ =>
        if atLimit s n (placeCtl p) then s
        else issueReq n x x.next false [] [] p (modDesc n x.id (fun z => { z with next := z.next + 1 }) s)

def execCopy (n : Rgn) (d : Nat) (s : State) : Host.Outcome State Fault Refusal :=
  live s fun s => withDesc n d 3 (copyNext n) s

/-! ### The controllers' answers (R178 to R180) -/

def dropReq (n : Rgn) (r : Nat) (s : State) : State := s.modRgn n fun x => { x with reqs := x.reqs.filter fun q => q.id != r }

/-- A late response is discarded and counted. -/
def countLate (n : Rgn) (s : State) : State := s.bump (Reg.TM_STATUS n) Reg.TM_STATUS_LATE 1

/-- Give a descriptor the bytes of a tile it has read. -/
def deliver (n : Rgn) (d t : Nat) (b : List Byte) (s : State) : State :=
  modDesc n d (fun z => { z with buf := z.buf ++ [(t, b)] }) s
def acked (n : Rgn) (d : Nat) (s : State) : State := modDesc n d (fun z => { z with acked := z.acked + 1 }) s

def reqDesc (s : State) (n : Rgn) (q : Req) : Option Desc := q.desc.bind fun i => (s.rgn n).descs.find? fun d => d.id == i

/-- The status of a failed image read: firmware ends the stage or load at the step that needs the tile (Table 10.6). -/
def imageFails (id status : Nat) (s : State) : State :=
  imageSteps id (s.modCmd id fun c => { c with rdErr := some (c.rdErr.getD status) })

/-- Does a request read an image for a stage or a load? -/
def reqImage (s : State) (q : Req) : Bool := q.desc.isNone && (q.cmd.bind s.cmd).any fun c => isImageOp c.opcode

/-- The request's tile fails: TM_ERR, the end of its command, and its other requests cancelled (R179). -/
def reqFails (n : Rgn) (q : Req) (cause status : Nat) (s : State) : State :=
  if reqImage s q then imageFails (q.cmd.getD 0) status (showMover n (tmError n 0 q.tier 0 cause q.addr s)) else
  let d := reqDesc s n q
  let dst := q.write && (d.map Desc.kind) == some 3
  showMover n (tmEnd n q.cmd ((d.map Desc.row).getD 0) q.tier ((d.map fun x => x.win dst).getD 0) cause q.addr status s)

def reqMask (s : State) (n : Rgn) (q : Req) : List Byte :=
  match reqDesc s n q with
  | some d => if d.kind = 3 then fullMask else tileMask d q.tile
  | none => fullMask

/-- Is one of the tile's lines that `use` names poisoned? -/
def badLine (s : State) (a : Nat) (use : Nat → Bool) : Bool :=
  (List.range 64).any fun i => use i && s.poison.contains (a / 64 + i)

/-- The write itself (R170, R178): in-range bits only; a full line clears its poison. -/
def storeMasked (p : Option Part) (n : Rgn) (tier tile : Nat) (b mask : List Byte) (s : State) : State :=
  let a := tileAddr n tier tile
  let s1 := s.store a (mergeBytes mask (readTile s p n tier tile) b)
  { s1 with keys := Assoc.put keyDefault (a / 4096) (keyFor s p tier) s1.keys,
            poison := s1.poison.filter fun l => !(decide (a / 64 ≤ l) && decide (l < a / 64 + 64) && allIn (lineMask mask (l - a / 64))) }

/-- Lines of its tile that a request reads: those with a byte in range, or of a write those it merges (R170). -/
def reqReads (s : State) (n : Rgn) (q : Req) (i : Nat) : Bool :=
  let m := lineMask (reqMask s n q) i
  !noneIn m && !(q.write && allIn m)

/-- The line that an uncorrectable read has met: one of those the request reads, and the spec does not say which (log entry 52). -/
def badIndex (s : State) (n : Rgn) (q : Req) : Nat :=
  let l := (List.range 64).filter (reqReads s n q)
  l.getD (Config.freeIndex s.free % max 1 l.length) 0

/-- A near or herd request ends well, unless it meets a poisoned line. -/
def reqGood (n : Rgn) (q : Req) (s : State) : State :=
  let mask := reqMask s n q
  let a := tileAddr n q.tier (q.addr / 4096)
  let near := q.tier == 1
  if badLine s a (reqReads s n q) then lineUe n near q.cmd q.addr (reqFails n q 1 ST_TIER_ERROR s)
  else
    let read := maskBytes mask (readTile s (s.partOf n) n q.tier (q.addr / 4096))
    let s1 := if q.write then storeMasked (s.partOf n) n q.tier (q.addr / 4096) q.data mask s else s
    match q.desc with
    | none => fwDone n q read s1
    | some d => if q.write then acked n d s1 else deliver n d q.tile read s1

/-- Is the request the oldest that its controller has still to answer (R43, R174)? -/
def isOldest (s : State) (n : Rgn) (q : Req) : Bool := ((s.rgn n).reqs.find? fun y => reqCtl y == reqCtl q) == some q

/-- TIER_RESPONSE: a near or herd controller answers the oldest request of its queue; the fold controller and other chips answer
by their own events. -/
def tierResponds (n : Rgn) (r : Nat) (out : ReadOutcome) (s : State) : State :=
  match (s.rgn n).reqs.find? fun q => q.id == r with
  | none => s
  | some q =>
    if q.remote.isSome ∨ ¬ (q.tier = 1 ∨ q.tier = 2) ∨ ¬ isOldest s n q then s
    else if q.killed then countLate n (dropReq n r s)
    else
      let s1 := dropReq n r s
      match out with
      | .ok => reqGood n q s1
      | .corrected => reqGood n q (lineCe n (q.tier == 1) q.addr s1)
      | .uncorrectable =>
        let line := tileAddr n q.tier (q.addr / 4096) / 64 + badIndex s n q
        lineUe n (q.tier == 1) q.cmd q.addr
          (reqFails n q 1 ST_TIER_ERROR (poisonLine line { s1 with free := s.free + 1 }))
      | .timeout => s

def execTierResponse (n : Rgn) (r : Nat) (out : ReadOutcome) (s : State) : Host.Outcome State Fault Refusal :=
  live s (tierResponds n r out)

/-! ### REQUEST_TIMEOUT (R180) -/

def tierTimeout (s : State) (n : Rgn) (tier : Nat) : Nat := max 1 (s.fld (Reg.TM_TIMEOUT n (tier - 1)) Reg.TM_TIMEOUT_TICKS)

/-- The request stays at its controller, so that its answer is late. -/
def requestTimes (n : Rgn) (r : Nat) (s : State) : State :=
  match (s.rgn n).reqs.find? fun q => q.id == r with
  | none => s
  | some q =>
    if q.killed ∨ s.now < q.tick + tierTimeout s n q.tier then s
    else
      let s1 := s.modRgn n fun x => { x with reqs := x.reqs.map fun y => if y.id = r then { y with killed := true } else y }
      let s2 := reqFails n q 2 ST_TIER_TIMEOUT s1
      match q.remote with
      | some c => showCirc n c.1 s2
      | none => s2

def execRequestTimeout (n : Rgn) (r : Nat) (s : State) : Host.Outcome State Fault Refusal := live s (requestTimes n r)

/-! ### DESCRIPTOR_COMPLETE (R131, R171, R354) -/

/-- Flits that link number `li` of `nl` carries of the first `k` flits. -/
def linkShare (k nl li : Nat) : Nat := (k + nl - 1 - li) / nl

def linkCount (d : Desc) (b y : Nat) : Nat := ((d.cnt.find? fun p => p.1 == 8 * b + y).map Prod.snd).getD 0

/-- Are flits of a READ still on their way to the local ports of the cells they go to (R25, R131)? -/
def flitsUnderWay (s : State) (n : Rgn) (d : Nat) : Bool :=
  (cellsOf s n.val).any fun p =>
    p.2.vin.toList.any (fun l => l.any fun f => f.desc == some d) ||
    (p.2.vout.toList.take 8).any fun o => o.any fun f => f.desc == some d

/-- Has every named block that is not fenced accepted the first `k` flits? -/
def delivered (s : State) (n : Rgn) (d : Desc) (k : Nat) : Bool :=
  (d.blockList.filter fun b => !blockFenced s n b).all fun b =>
    (List.range d.linkList.length).all fun li => decide (linkShare k d.linkList.length li ≤ linkCount d b (d.linkList.getD li 0))

def descDone (s : State) (n : Rgn) (d : Desc) : Bool :=
  if d.kind = 1 then d.next == d.count && !((s.rgn n).reqs.any fun q => q.desc == some d.id) && delivered s n d (256 * d.count) &&
    !flitsUnderWay s n d.id
  else d.acked == d.count

/-- The signal of a completed descriptor: to a semaphore of the partition, or to the peer region on the circuit. -/
def descSignal (n : Rgn) (d : Desc) (circuit : Option Nat) (s : State) : State :=
  if ¬ d.sigEn then s
  else match circuit with
    | some c => axRequest n c axSignal (cmdTag s d.cmd) (d.sigSem + 256 * d.sigN) d.cmd (some d.id) 0 s
    | none => signalSem d.sigRgn d.sigSem d.sigN s

def descComplete (n : Rgn) (d : Nat) (s : State) : State :=
  match inProgress s n d with
  | none => s
  | some x =>
    if descDone s n x then
      let c := remoteCircuit s n x
      let s1 := showMover n (s.modRgn n fun r => { r with descs := r.descs.filter fun y => y.id != d })
      settleSignals n (descSignal n x c s1)
    else s

def execDescriptorComplete (n : Rgn) (d : Nat) (s : State) : Host.Outcome State Fault Refusal := live s (descComplete n d)

/-! ### PATROL_SCRUB (R176 to R178) -/

/-- A line is read; one that is poisoned fails as an uncorrectable read does (R178). -/
def scrub (n : Rgn) (near : Bool) (line : Nat) (out : ScrubOutcome) (s : State) : State :=
  let tier := if near then 1 else 2
  let a := if near then Reg.NEAR_SCRUB n else Reg.HERD_SCRUB n
  let lines := 64 * tierCap s n tier
  if ¬ s.flag a Reg.NEAR_SCRUB_ENABLE ∨ lines ≤ line then s
  else
    let s1 := if line + 1 = lines then s.bump a Reg.NEAR_SCRUB_PASSES 1 else s
    let l := tileAddr n tier 0 / 64 + line
    if s.poison.contains l then lineUe n near none (64 * line) s1
    else match out with
      | .clean => s1
      | .corrected => lineCe n near (64 * line) s1
      | .uncorrectable => lineUe n near none (64 * line) (poisonLine l s1)

def execPatrolScrub (n : Rgn) (near : Bool) (line : Nat) (out : ScrubOutcome) (s : State) : Host.Outcome State Fault Refusal :=
  live s (scrub n near line out)

end Sys2Proof.Machine
end

