-- ==== Sys2Proof/Machine/FoldCmds.lean ====
section
/-!
DEFINITION. The fold channel (R193 to R217): unit writes, programs and erases, codeword reads, wear, refresh, checkpoints, the
power-fail flush, recovery and the mailbox.
-/

namespace Sys2Proof.Machine

/-! ### The channel (R193, R194, R207) -/

/-- Units of the logical capacity of a channel, which is a whole number of GiB. -/
def logicalUnits (rawGib : Nat) : Nat := rawGib * 57 / 64 * 65536

/-- The two copies of the metadata area: on the two lowest targets, on two LUNs of the one target, or in two planes of the one LUN.
DESIGN CHOICE: the first block of each, and no more (log entry 145). -/
def metaBlocks (s : State) (n : Rgn) : List Nat :=
  let lun := foldLunBlocks s n
  if 2 ≤ foldTargets s n then [0, foldLuns s n * lun] else if 2 ≤ foldLuns s n then [0, lun] else [0, 1]

/-! ### What the registers show -/

/-- Blocks of a channel that are not free and good. -/
def usedBlocks (f : Fold) : List FoldBlock := f.blocks.filter fun b => b.st != 0

def maxPe (f : Fold) : Nat := f.blocks.foldl (fun k b => max k b.pe) 0

/-- FREE_PCT, READ_ONLY with its hysteresis (R208), and FOLD_WEAR. -/
def showFold (n : Rgn) (s : State) : State :=
  let f := (s.rgn n).fold
  let total := foldTotal s n
  let free := foldFree s n
  let a := Reg.FOLD_STATUS n
  let ro := if free * 100 < total then true else if 2 * total < free * 100 then false else s.flag a Reg.FOLD_STATUS_READ_ONLY
  let s1 := (s.setFld a Reg.FOLD_STATUS_FREE_PCT (free * 100 / max 1 total)).setFld a Reg.FOLD_STATUS_READ_ONLY (bit ro)
  let w := Reg.FOLD_WEAR n
  let s2 := (s1.setFld w Reg.FOLD_WEAR_MAX_PE (min 65535 (maxPe f))).setFld w Reg.FOLD_WEAR_MEAN_PE
    (min 65535 ((f.blocks.foldl (fun k b => k + b.pe) 0) / max 1 total))
  s2.setFld w Reg.FOLD_WEAR_GROWN_BAD (min 65535 (f.badList.filter Prod.snd).length)

/-- The wear source, at 90 % and again at 100 % of RATED_PE (R203). -/
def wearAlert (n : Rgn) (old : Nat) (s : State) : State :=
  let rated := s.fld (Reg.FOLD_WEAR n) Reg.FOLD_WEAR_RATED_PE
  let new := maxPe (s.rgn n).fold
  let crossed := fun k => decide (100 * old < k * rated) && decide (k * rated ≤ 100 * new)
  if 0 < rated ∧ (crossed 90 ∨ crossed 100) then raiseDetail (rgnSrc n.val 35) none new s else s

/-- A block is bad from now on, and its retirement is journalled (R207). -/
def retireBlock (n : Rgn) (blk : Nat) (s : State) : State :=
  let s1 := setBlock n { blockOf s n blk with st := 5 } s
  modFold n (fun f => { f with badList := if f.badList.contains (blk, true) then f.badList else f.badList ++ [(blk, true)], refresh := f.refresh.filter (· != blk), journal := f.journal + 16 }) s1

/-! ### Codewords (R196, R197, Table 7.2)

The model keeps a tile's data, its unit, POISON and the unit's sequence number apart; the codeword that a page holds follows from
them. A read decodes, or does not, as its event says. -/

/-- CRC-32 with the IEEE 802.3 polynomial, bit 0 of each byte first. -/
def crcBit (c : BitVec 32) : BitVec 32 := if c.getLsbD 0 then (c >>> 1) ^^^ 0xEDB88320#32 else c >>> 1
def crcByte (c : BitVec 32) (b : Byte) : BitVec 32 := (List.range 8).foldl (fun c _ => crcBit c) (c ^^^ b.setWidth 32)
def crc32 (l : List Byte) : BitVec 32 := ~~~ (l.foldl crcByte 0xFFFFFFFF#32)

/-- Bytes 0 to 11 of the metadata: LUNIT, SEQ, zero. -/
def metaHead (u : FoldUnit) (t : Nat) : List Byte :=
  leBytes 4 (u.unit % 2 ^ 28 + t % 4 * 2 ^ 28 + bit (u.poison.getLsbD t) * 2 ^ 30) ++ leBytes 4 u.seq ++ leBytes 4 0

/-- The codeword of tile `t` of a unit: data, metadata, parity. -/
def codeword (u : FoldUnit) (t : Nat) (data : List Byte) : List Byte :=
  let b := data ++ metaHead u t
  let c := b ++ leBytes 4 (crc32 b).toNat
  c ++ Config.fit 464 (Config.ldpcParity c)

/-! ### Refresh and reads -/

/-- Queue a block for refresh (R204, R205). -/
def queueRefresh (n : Rgn) (blk : Nat) (s : State) : State :=
  if (s.rgn n).fold.refresh.contains blk then s
  else modFold n (fun f => { f with refresh := f.refresh ++ [blk] })
    (if (blockOf s n blk).st < 4 then setBlock n { blockOf s n blk with st := 3 } s else s)

/-- Page reads of a block beyond those of the tile mover: merges, relocations, scrubs (R204). -/
def countPages (n : Rgn) (blk k : Nat) (s : State) : State :=
  let b := blockOf s n blk
  let limit := s.fld (Reg.FOLD_LIMITS n) Reg.FOLD_LIMITS_RD_LIMIT
  let s1 := setBlock n { b with reads := b.reads + k } s
  if k ≠ 0 ∧ (if limit = 0 then 1000 else limit) ≤ b.reads + k then queueRefresh n blk s1 else s1

/-! ### UNIT_WRITE_ACK (R200, R201, R209, R210, R212) -/

def wbufLimit (s : State) (n : Rgn) : Nat := s.fld (Reg.FOLD_STATUS n) Reg.FOLD_STATUS_WBUF_UNITS

/-- The limit of R210 from the geometry: rounds × LUNs × planes, at most 256. -/
def wbufUnits (s : State) (n : Rgn) : Nat :=
  let g := Reg.FOLD_GEOM n
  let prog := s.fld g Reg.FOLD_GEOM_TPROG_MAX * 10
  let rounds := if prog = 0 then 0 else (16000 - s.fld g Reg.FOLD_GEOM_TBERS_MAX * 100) / prog
  min 256 (rounds * foldTargets s n * foldLuns s n * foldPlanes s n)

/-- The valid tiles `lost` of the old unit that could not be decoded when the write merged them: they are stored poisoned (R200). -/
def mergeLost (n : Rgn) (tile : Nat) (old : Option FoldUnit) (lost : BitVec 4) (s : State) : State :=
  match old, unitOf (s.rgn n).fold (tile / 4) with
  | some u, some x =>
    let bad := lost &&& u.mask &&& ~~~ (1#4 <<< (tile % 4))
    if bad = 0 then s
    else queueRefresh n (physBlock s n u.phys)
      ((putUnit n { x with poison := x.poison ||| bad } s).bump (Reg.FOLD_ECC n) Reg.FOLD_ECC_UNCORR
        ((List.range 4).filter bad.getLsbD).length)
  | _, _ => s

/-- The read of the old page that a merge takes (R200, R204). -/
def mergeRead (n : Rgn) (tile : Nat) (old : Option FoldUnit) (s : State) : State :=
  match old with
  | some u => if u.mask &&& ~~~ (1#4 <<< (tile % 4)) = 0 then s else countPages n (physBlock s n u.phys) 1 s
  | none => s

/-- Take a write into the protected buffer and acknowledge it. -/
def ackUnit (n : Rgn) (q : Req) (phys : Nat) (lost : BitVec 4) (s : State) : State :=
  let tile := q.addr / 4096
  let old := unitOf (s.rgn n).fold (tile / 4)
  let was := s.load (foldAddr n (16384 * (tile / 4))) 16384
  let s1 := s.store (tileAddr n 3 tile) q.data
  let s2 := mapTile n tile phys { s1 with keys := Assoc.put keyDefault (tileAddr n 3 tile / 4096) (keyFor s (s.partOf n) 3) s1.keys }
  let seq := s2.fld (Reg.FOLD_SEQ n) Reg.FOLD_SEQ_ACKED
  let s3 := mergeLost n tile old lost (mergeRead n tile old s2)
  let s4 := modFold n (fun f => { f with wbuf := f.wbuf ++ [⟨tile / 4, seq, old, was, phys, false⟩] })
    (setBlock n { blockOf s3 n (physBlock s3 n phys) with st := max 1 (blockOf s3 n (physBlock s3 n phys)).st } s3)
  let s5 := showFold n (settleLuns n s4)
  match q.desc with
  | some d => acked n d s5
  | none => fwDone n q [] s5

/-- The acknowledgement of a unit write: held under the power-fail hold, refused on a read-only channel, and not given while
the buffer is at its limit. -/
def unitWrite (n : Rgn) (r phys : Nat) (lost : BitVec 4) (s : State) : State :=
  match (s.rgn n).reqs.find? fun q => q.id == r with
  | none => s
  | some q =>
    if q.tier ≠ 3 ∨ ¬ q.write ∨ q.remote.isSome then s
    else if q.killed then countLate n (dropReq n r s)
    else if (s.rgn n).fold.hold then
      (if (s.rgn n).fold.held.contains r then s else modFold n (fun f => { f with held := f.held ++ [r] }) s)
    else if s.flag (Reg.FOLD_STATUS n) Reg.FOLD_STATUS_READ_ONLY then
      raiseWith ST_TIER_ERROR (rgnSrc n.val 36) false ⟨q.cmd, 0, 0⟩ (reqFails n q 1 ST_TIER_ERROR (dropReq n r s))
    else if wbufLimit s n ≤ (s.rgn n).fold.wbuf.length ∨ ¬ pageFree s n phys then s
    else ackUnit n q phys lost (dropReq n r s)

def execUnitWriteAck (n : Rgn) (r phys : Nat) (lost : BitVec 4) (s : State) : Host.Outcome State Fault Refusal :=
  live s (unitWrite n r phys lost)

/-! ### PROGRAM_COMPLETE and ERASE_COMPLETE (R207 to R210) -/

/-- DURABLE is the number before the oldest write still buffered. -/
def showDurable (n : Rgn) (s : State) : State :=
  let a := Reg.FOLD_SEQ n
  match (s.rgn n).fold.wbuf with
  | [] => s.setFld a Reg.FOLD_SEQ_DURABLE (s.fld a Reg.FOLD_SEQ_ACKED)
  | w :: _ => s.setFld a Reg.FOLD_SEQ_DURABLE ((w.seq + (2 ^ 32 - 1)) % 2 ^ 32)

/-- The buffered write of a unit whose program its LUN performs. -/
def programOf (s : State) (n : Rgn) (u : Nat) : Option FoldWrite :=
  (s.rgn n).fold.wbuf.find? fun w =>
    w.unit == u && !w.prog && lunOp s n (lunOf s n (physBlock s n w.phys)) == some (.program w.seq)

/-- The write's page is programmed: at `phys`. -/
def markProgrammed (n : Rgn) (w : FoldWrite) (phys : Nat) (s : State) : State :=
  let l := lunOf s n (physBlock s n w.phys)
  let f := fun (x : FoldWrite) => if x = w then { x with phys := phys, prog := true } else x
  let s1 := modFold n (fun z => { z with wbuf := z.wbuf.map f }) (programmed n (physBlock s n phys) s)
  showFold n (showDurable n (dropDone n (settleLuns n (setSlots n l (lunSlots s n l + 1) s1))))

/-- A program of a buffered write of unit `u` ends: on failure its block becomes grown bad and the data goes to `phys`. -/
def programEnds (n : Rgn) (u : Nat) (ok : Bool) (phys : Nat) (s : State) : State :=
  match programOf s n u with
  | none => s
  | some w =>
    if ok then markProgrammed n w w.phys s
    else if pageFree s n phys ∧ physBlock s n phys ≠ physBlock s n w.phys then
      let s1 := match unitOf (s.rgn n).fold u with
        | some x => if x.seq = w.seq then putUnit n { x with phys := phys } s else s
        | none => s
      retireBlock n (physBlock s n w.phys) (markProgrammed n w phys s1)
    else s

def execProgramComplete (n : Rgn) (u : Nat) (ok : Bool) (phys : Nat) (s : State) : Host.Outcome State Fault Refusal :=
  live s (programEnds n u ok phys)

/-- Is a read of the block in flight (R202)? -/
def readInFlight (s : State) (n : Rgn) (blk : Nat) : Bool :=
  (s.rgn n).reqs.any fun q => q.tier == 3 && !q.write && q.blk == some blk

/-- Does the block hold the old page of a write whose new mapping is not yet recorded (R198)? -/
def oldPageIn (s : State) (n : Rgn) (blk : Nat) : Bool :=
  (s.rgn n).fold.wbuf.any fun w => w.old.any fun u => physBlock s n u.phys == blk

/-- An erase of a block that holds no valid unit ends. -/
def eraseEnds (n : Rgn) (blk : Nat) (ok : Bool) (s : State) : State :=
  let b := blockOf s n blk
  if foldTotal s n ≤ blk ∨ 4 ≤ b.st ∨ ¬ (unitsIn s n blk).isEmpty ∨ readInFlight s n blk ∨ oldPageIn s n blk ∨
      ¬ lunIdle s n blk then s
  else if ok then
    let s1 := setBlock n { FoldBlock.fresh blk with pe := b.pe + 1 } s
    let s2 := modFold n (fun f => { f with
      refresh := f.refresh.filter (· != blk), spent := f.spent.filter fun p => physBlock s n p != blk }) s1
    wearAlert n (maxPe (s.rgn n).fold) (showFold n s2)
  else showFold n (retireBlock n blk s)

def execEraseComplete (n : Rgn) (blk : Nat) (ok : Bool) (s : State) : Host.Outcome State Fault Refusal := live s (eraseEnds n blk ok)

/-! ### CODEWORD_READ (R196, R197, R204 to R206) -/

/-- Levels in use: those advertised, at most 16. -/
def levels : Nat := min 16 Config.retryLevels

/-- The order in which levels are tried: the one that last succeeded first. -/
def levelOrder (last : Nat) : List Nat :=
  let all := (List.range levels).map (· + 1)
  if all.contains last then last :: all.filter (· != last) else all

/-- Page reads that an outcome takes: the first, each level tried, and two for soft decoding. -/
def readsFor (last : Nat) : DecodeOutcome → Nat
  | .hard => 1
  | .retry k => 2 + ((levelOrder last).findIdx? (· == k)).getD 0
  | .soft | .fail => 3 + levels

def decodable : DecodeOutcome → Bool
  | .retry k => decide (1 ≤ k) && decide (k ≤ levels)
  | _ => true

/-- What a read of a block leaves in its counters and the channel's. -/
def countReads (n : Rgn) (blk : Nat) (out : DecodeOutcome) (s : State) : State :=
  let b := blockOf s n blk
  let limit := s.fld (Reg.FOLD_LIMITS n) Reg.FOLD_LIMITS_RD_LIMIT
  let reads := b.reads + readsFor b.level out
  let s1 := setBlock n { b with
    reads := reads, level := (match out with | .retry k => k | _ => b.level), ue := b.ue || out == .fail } s
  let s2 := match out with
    | .hard => s1
    | .retry _ => s1.bump (Reg.FOLD_ECC n) Reg.FOLD_ECC_RETRIED 1
    | .soft => s1.bump (Reg.FOLD_ECC n) Reg.FOLD_ECC_SOFT 1
    | .fail => s1.bump (Reg.FOLD_ECC n) Reg.FOLD_ECC_UNCORR 1
  let again : Bool := match out with
    | .hard => false
    | .retry k => decide (s.fld (Reg.FOLD_LIMITS n) Reg.FOLD_LIMITS_RETRY_RELOC ≤ k)
    | .soft | .fail => true
  if again ∨ (if limit = 0 then 1000 else limit) ≤ reads then queueRefresh n blk s2 else s2

/-- A fold tile fails: recorded, and reported by the fold source (R179, R206). -/
def foldFails (n : Rgn) (q : Req) (s : State) : State :=
  raiseWith ST_TIER_ERROR (rgnSrc n.val 37) false ⟨q.cmd, hereGta s n 3 q.addr, 0⟩ (reqFails n q 1 ST_TIER_ERROR s)

def foldReadDone (n : Rgn) (q : Req) (b : List Byte) (s : State) : State :=
  if q.killed then countLate n s
  else match q.desc with
    | some d => deliver n d q.tile b s
    | none => fwDone n q b s

/-- Mark a failing tile poisoned, as its relocation will write it (R205). -/
def poisonTile (n : Rgn) (u : FoldUnit) (t : Nat) (s : State) : State := putUnit n { u with poison := u.poison ||| (1#4 <<< t) } s

def codewordRead (n : Rgn) (r : Nat) (out : DecodeOutcome) (s : State) : State :=
  match (s.rgn n).reqs.find? fun q => q.id == r with
  | none => s
  | some q =>
    if q.tier ≠ 3 ∨ q.write ∨ q.remote.isSome ∨ ¬ decodable out then s
    else
      let tile := q.addr / 4096
      let s1 := dropReq n r s
      match unitOf (s.rgn n).fold (tile / 4) with
      | none => foldReadDone n q (List.replicate 4096 0) s1
      | some u =>
        if ¬ u.mask.getLsbD (tile % 4) then foldReadDone n q (List.replicate 4096 0) s1
        else
          let blk := q.blk.getD (physBlock s n u.phys)
          let s2 := settleLuns n (countReads n blk out s1)
          if lunOp s n (lunOf s n blk) ≠ some (.read r) then s
          else if out = .fail then
            (if q.killed then countLate n (poisonTile n u (tile % 4) s2) else foldFails n q (poisonTile n u (tile % 4) s2))
          else if u.poison.getLsbD (tile % 4) then
            (if q.killed then countLate n s2 else foldFails n q (s2.bump (Reg.FOLD_ECC n) Reg.FOLD_ECC_UNCORR 1))
          else foldReadDone n q (readTile s2 (s2.partOf n) n 3 tile) s2

def execCodewordRead (n : Rgn) (r : Nat) (out : DecodeOutcome) (s : State) : Host.Outcome State Fault Refusal :=
  live s (codewordRead n r out)

/-! ### RETENTION_SCRUB (R205) -/

/-- The scrub period of local time, counted from 1. -/
def scrubPeriod (s : State) (n : Rgn) : Nat :=
  s.now / (max 1 (s.fld (Reg.FOLD_LIMITS n) Reg.FOLD_LIMITS_SCRUB_DAYS) * 8640000000000) + 1

/-- The tiles that a scrub read has found uncorrectable: of one unit of the block, which the event does not name (log entry 52). -/
def scrubLost (n : Rgn) (blk : Nat) (s : State) : State :=
  let l := unitsIn s n blk
  match l[Config.freeIndex s.free % max 1 l.length]? with
  | none => s
  | some u =>
    let bad := BitVec.ofNat 4 (Config.freeIndex (s.free + 1)) &&& u.mask
    { putUnit n { u with poison := u.poison ||| if bad = 0 then u.mask else bad } s with free := s.free + 2 }

/-- A block that holds data is read once in each period. -/
def retention (n : Rgn) (blk : Nat) (out : DecodeOutcome) (s : State) : State :=
  let b := blockOf s n blk
  if decodable out ∧ ¬ (unitsIn s n blk).isEmpty ∧ b.scrub ≠ scrubPeriod s n ∧ lunIdle s n blk ∧ ¬ refreshWaits s n blk then
    let s1 := countReads n blk out (setBlock n { b with scrub := scrubPeriod s n } s)
    if out = .fail then scrubLost n blk s1 else s1
  else s

def execRetentionScrub (n : Rgn) (blk : Nat) (out : DecodeOutcome) (s : State) : Host.Outcome State Fault Refusal :=
  live s (retention n blk out)

/-! ### Relocation (R202 to R205, R207, R215) -/

/-- Units go to their new pages; the tiles `lost` that could not be decoded are written poisoned. -/
def moveUnits (n : Rgn) : List (FoldUnit × Nat × BitVec 4) → State → State
  | [], s => s
  | (u, p, lost) :: l, s =>
    let bad := lost &&& u.mask
    let s1 := putUnit n { u with phys := p, poison := u.poison ||| bad } s
    moveUnits n l ((programmed n (physBlock s1 n p) s1).bump (Reg.FOLD_ECC n) Reg.FOLD_ECC_UNCORR
      ((List.range 4).filter bad.getLsbD).length)

/-- A page for each valid unit of a block, outside it. -/
def pagesOk (free : State → Rgn → Nat → Bool) (s : State) (n : Rgn) (blk : Nat) (phys : List Nat) : Bool :=
  phys.length == (unitsIn s n blk).length && phys.all (fun p => free s n p && physBlock s n p != blk) && phys.eraseDups.length == phys.length

/-- Does the relocation find a valid tile that cannot be decoded? -/
def losesTiles (l : List (FoldUnit × BitVec 4)) : Bool := l.any fun x => x.2 &&& x.1.mask != 0

/-- Relocate the valid units of a block, each read once; one that has had an uncorrectable read becomes grown bad (R207). -/
def relocate (n : Rgn) (blk : Nat) (phys : List Nat) (lost : List (BitVec 4)) (s : State) : State :=
  let us := unitsIn s n blk
  let bad := us.zipIdx.map fun x => (x.1, lost.getD x.2 0)
  let b := blockOf s n blk
  let s1 := moveUnits n (bad.zip phys |>.map fun x => (x.1.1, x.2, x.1.2)) (setBlock n { b with reads := b.reads + us.length } s)
  let s2 := modFold n (fun f => { f with refresh := f.refresh.filter (· != blk) }) s1
  showFold n (if b.ue ∨ losesTiles bad then retireBlock n blk s2
    else if 4 ≤ b.st then s2 else setBlock n { blockOf s2 n blk with st := 2 } s2)

/-- REFRESH_RELOCATION of a queued block, on a LUN with nothing of a higher class to do. -/
def refreshBlock (n : Rgn) (blk : Nat) (phys : List Nat) (lost : List (BitVec 4)) (s : State) : State :=
  if (s.rgn n).fold.refresh.contains blk ∧ lunIdle s n blk ∧ pagesOk pageFree s n blk phys then relocate n blk phys lost s else s

def execRefreshRelocation (n : Rgn) (blk : Nat) (dst : UnitMoves) (s : State) : Host.Outcome State Fault Refusal :=
  live s (refreshBlock n blk dst.pages dst.lost)

/-- GARBAGE_COLLECTION of a full block: after the refresh of its LUN, or in the slot that is kept for it. -/
def collectBlock (n : Rgn) (blk : Nat) (phys : List Nat) (lost : List (BitVec 4)) (s : State) : State :=
  let l := lunOf s n blk
  if (blockOf s n blk).st = 2 ∧ lunIdle s n blk ∧ (collectsNext s n l ∨ ¬ refreshWaits s n blk) ∧ pagesOk pageFree s n blk phys then
    settleLuns n (setSlots n l 0 (relocate n blk phys lost s))
  else s

def execGarbageCollection (n : Rgn) (blk : Nat) (dst : UnitMoves) (s : State) : Host.Outcome State Fault Refusal :=
  live s (collectBlock n blk dst.pages dst.lost)

/-- The page of plane 0 and page `i` in a block, counted as R199 does. -/
def blockPage (s : State) (n : Rgn) (blk i : Nat) : Nat :=
  let p := foldPlanes s n
  (blk / p * foldPages s n + i) * p + blk % p

/-- STATIC_WEAR_LEVELLING: the data of a least-worn block goes to the most-worn free block. -/
def levelWear (n : Rgn) (src dst : Nat) (lost : List (BitVec 4)) (s : State) : State :=
  let phys := (List.range (unitsIn s n src).length).map (blockPage s n dst)
  let f := (s.rgn n).fold
  let holding := f.blocks.filter fun b => !(unitsIn s n b.blk).isEmpty
  let spread := s.fld (Reg.FOLD_LIMITS n) Reg.FOLD_LIMITS_WL_DELTA
  let d := blockOf s n dst
  let most := (f.blocks.filter fun b => b.st == 0).all fun b => decide (b.pe ≤ d.pe)
  let least := holding.all fun b => decide ((blockOf s n src).pe ≤ b.pe)
  if (blockOf s n src).pe + spread < maxPe f ∧ least ∧ d.st = 0 ∧ most ∧ ¬ (unitsIn s n src).isEmpty ∧
      lunIdle s n src ∧ ¬ refreshWaits s n src ∧ pagesOk pageEmpty s n src phys then
    relocate n src phys lost s
  else s

def execStaticWearLevelling (n : Rgn) (src : Nat) (dst : LevelMove) (s : State) : Host.Outcome State Fault Refusal :=
  live s (levelWear n src dst.blk dst.lost)

/-! ### Checkpoints, flushes and recovery (R205, R211 to R214, R216) -/

def writeCheckpoint (n : Rgn) (s : State) : State :=
  modFold n (fun f => { f with journal := 0, lastCkpt := s.now, blocks := f.blocks.map fun b => { b with saved := b.reads } }) s

def checkpointDue (n : Rgn) (s : State) : State :=
  let f := (s.rgn n).fold
  if 67108864 ≤ f.journal ∨ f.lastCkpt + 60000000000 ≤ s.now then writeCheckpoint n s else s

def execPeriodicCheckpoint (n : Rgn) (s : State) : Host.Outcome State Fault Refusal := live s (checkpointDue n)

/-- A warm reset that waited for the flushes is performed when none runs (R368). -/
def releaseWarm (s : State) : State := if s.boot.pendingWarm ∧ ¬ anyFlushing s then warmReset s else s

def flushEnds (n : Rgn) (s : State) : State :=
  if s.flag (Reg.FOLD_STATUS n) Reg.FOLD_STATUS_FLUSHING then
    let s0 := (s.rgn n).fold.wbuf.foldl (fun t w => if w.prog then t else programmed n (physBlock t n w.phys) t) s
    let s1 := showFold n (modFold n (fun f => { f with
      wbuf := [], clean := true }) s0)
    releaseWarm ((showDurable n s1).setFld (Reg.FOLD_STATUS n) Reg.FOLD_STATUS_FLUSHING 0)
  else s

def execFoldFlushDone (n : Rgn) (s : State) : Host.Outcome State Fault Refusal := live s (flushEnds n)

/-- FOLD_FLUSH_TIMEOUT (R211, R368): the flush has not ended; it holds a warm reset back no longer. -/
def flushTimes (n : Rgn) (s : State) : State :=
  if s.flag (Reg.FOLD_STATUS n) Reg.FOLD_STATUS_FLUSHING then
    let s1 := raisePlain (rgnSrc n.val 36) s
    if s1.boot.pendingWarm then warmReset s1 else s1
  else s

def execFoldFlushTimeout (n : Rgn) (s : State) : Host.Outcome State Fault Refusal := live s (flushTimes n)

/-- Partitions get back the tiles that the translation layer recorded for them (R374). -/
def attachOwners (n : Rgn) (s : State) : State :=
  let f := fun (p : Part) (q : Partition) =>
    { q with allocs := q.allocs ++ (((s.rgn n).fold.owners.filter fun o => o.2.2.1 == p.val).map fun o =>
        ⟨⟨n.val, 3, o.1, o.2.1⟩, Owner.alloc⟩) }
  let kept := (s.rgn n).fold.owners.filter fun o => !((s.part (Fin.ofNat 16 o.2.2.1)).has n.val)
  let s1 := allRgns.foldl (fun t (p : Fin 16) => if (t.part p).has n.val then t.modPart p (f p) else t) s
  modFold n (fun x => { x with owners := kept }) s1

/-- Mapping recovery completes: every unit holds the latest write it kept, the mapping table stands in the herd space, and held fold
commands may be accepted. -/
def foldRecovered (n : Rgn) (s : State) : State :=
  if s.stage n < 3 ∨ s.flag (Reg.FOLD_STATUS n) Reg.FOLD_STATUS_UNFORMATTED ∨ s.flag (Reg.FOLD_STATUS n) Reg.FOLD_STATUS_READY ∨
      foldTargets s n = 0 then s
  else
    let seq := (s.rgn n).fold.lastSeq
    let s0 := (s.rgn n).fold.units.foldl (fun t u => storeEntry n u t) s
    let s1 := (s0.setFld (Reg.FOLD_STATUS n) Reg.FOLD_STATUS_READY 1).setFld (Reg.BOOT_RGN n) Reg.BOOT_RGN_FOLD_READY 1
    let s2 := (s1.setFld (Reg.FOLD_SEQ n) Reg.FOLD_SEQ_ACKED seq).setFld (Reg.FOLD_SEQ n) Reg.FOLD_SEQ_DURABLE seq
    let s3 := modFold n (fun f => { f with wbuf := [], clean := true, lastCkpt := s.now }) s2
    irqRaise (evRgn n.val 4) (s3.reg (Reg.FOLD_STATUS n)) (attachOwners n (showFold n s3))

def execFoldReady (n : Rgn) (s : State) : Host.Outcome State Fault Refusal := live s (foldRecovered n)

/-! ### The mailbox (R217) -/

/-- Is the operation refused to this requester? The companion has scope bit 3 or one of the two open operations. -/
def mbxRefused (who : Requester) (op : Nat) (s : State) : Bool :=
  who == .companion && !s.scope 3 && op != 1 && op != 4

/-- A write of FOLD_MBX_CMD: GO starts the operation; a GO while BUSY is ignored. -/
def doFoldMbx (who : Requester) (n : Rgn) (v : Word) (s : State) : State :=
  let a := Reg.FOLD_MBX_CMD n
  let s1 := plainWrite a v s
  if Reg.FOLD_MBX_CMD_GO.get v = 1 ∧ ¬ s.flag a Reg.FOLD_MBX_CMD_BUSY then
    let op := Reg.FOLD_MBX_CMD_OP.get v
    let s2 := (s1.setFld a Reg.FOLD_MBX_CMD_BUSY 1).setFld a Reg.FOLD_MBX_CMD_RESULT 0
    modFold n (fun f => { f with mbxOp := some (op, s.reg (Reg.FOLD_MBX_ARG n), mbxRefused who op s) }) s2
  else s1

def foldMbxRow (op : Nat) (who : Requester) (n : Rgn) (v : Word) (s : State) : State :=
  if Reg.FOLD_MBX_CMD_OP.get v = op ∧ Reg.FOLD_MBX_CMD_GO.get v = 1 then
    guardWrite who (Reg.FOLD_MBX_CMD n) 8 v (doFoldMbx who n v) s
  else s

def execBlockInfo (who : Requester) (n : Rgn) (v : Word) (s : State) : Host.Outcome State Fault Refusal :=
  live s (foldMbxRow 1 who n v)
def execCheckpoint (who : Requester) (n : Rgn) (v : Word) (s : State) : Host.Outcome State Fault Refusal :=
  live s (foldMbxRow 2 who n v)
def execFormat (who : Requester) (n : Rgn) (v : Word) (s : State) : Host.Outcome State Fault Refusal :=
  live s (foldMbxRow 3 who n v)
def execBadList (who : Requester) (n : Rgn) (v : Word) (s : State) : Host.Outcome State Fault Refusal :=
  live s (foldMbxRow 4 who n v)

/-- The erase block that ARG names: target, LUN, block. -/
def argBlockNo (s : State) (n : Rgn) (arg : Word) : Nat :=
  (Reg.FOLD_MBX_ARG_TARGET.get arg * foldLuns s n + Reg.FOLD_MBX_ARG_LUN.get arg) * foldLunBlocks s n + Reg.FOLD_MBX_ARG_BLOCK.get arg

def argOk (s : State) (n : Rgn) (arg : Word) : Bool :=
  decide (Reg.FOLD_MBX_ARG_TARGET.get arg < foldTargets s n) && decide (Reg.FOLD_MBX_ARG_LUN.get arg < foldLuns s n) &&
  decide (Reg.FOLD_MBX_ARG_BLOCK.get arg < foldLunBlocks s n)

/-- A bad-block list entry laid out as ARG. -/
def badEntry (s : State) (n : Rgn) (blk : Nat) : Nat :=
  let lb := foldLunBlocks s n
  let l := foldLuns s n
  blk / (lb * l) + 8 * (blk / lb % l) + 32 * (blk % lb)

/-- Fold tiles that the region's partition holds in the region. -/
def foldUsage (s : State) (n : Rgn) : Nat :=
  match s.partOf n with
  | none => 0
  | some p => usage s p 3

/-- FORMAT: every block that is not factory bad is erased, the metadata area is set up, and nothing is mapped. -/
def formatChannel (n : Rgn) (s : State) : State :=
  let f := (s.rgn n).fold
  let s1 := f.units.foldl (fun t u => t.store (foldAddr n (16384 * u.unit)) (List.replicate 16384 0)) s
  let factory := (List.range (foldTotal s n)).filter (Config.factoryBad n.val)
  let kind := fun (b : Nat) => if factory.contains b then 4 else if (metaBlocks s n).contains b then 6 else 0
  let blocks := (List.range (foldTotal s n)).map fun b =>
    if factory.contains b then { blockOf s n b with st := 4 }
    else { FoldBlock.fresh b with pe := (blockOf s n b).pe + 1, st := kind b }
  let s2 := modFold n (fun f => { f with
    units := [], wbuf := [], blocks := blocks.filter fun b => b != FoldBlock.fresh b.blk, badList := factory.map (·, false),
    refresh := [], journal := 0, lastCkpt := s.now, owners := [], spent := [], luns := [], slots := [] }) s1
  let s3 := (s2.setFld (Reg.FOLD_STATUS n) Reg.FOLD_STATUS_UNFORMATTED 0).setFld (Reg.FOLD_CAP n) Reg.FOLD_CAP_UNITS
    (logicalUnits (s.fld (Reg.FOLD_CAP n) Reg.FOLD_CAP_RAW_GIB))
  wearAlert n (maxPe f) (showFold n s3)

/-- RESULT of an operation and what it leaves. -/
def mbxWork (n : Rgn) (op : Nat) (arg : Word) (refused : Bool) (s : State) : Nat × State :=
  if op = 0 ∨ 4 < op then (2, s)
  else if refused then (4, s)
  else if op = 1 then
    (if argOk s n arg then
      let b := blockOf s n (argBlockNo s n arg)
      let r := Reg.FOLD_MBX_RESP_STATE.put (Reg.FOLD_MBX_RESP_READS.put (Reg.FOLD_MBX_RESP_PE.put 0 (min 65535 b.pe))
        (min (2 ^ 24 - 1) b.reads)) b.st
      (1, s.setReg (Reg.FOLD_MBX_RESP n) r)
     else (3, s))
  else if op = 2 then (1, writeCheckpoint n s)
  else if op = 3 then (if foldUsage s n ≠ 0 then (4, s) else if foldTotal s n = 0 then (5, s) else (1, formatChannel n s))
  else
    let x := match (s.rgn n).fold.badList[Reg.FOLD_MBX_ARG_BLOCK.get arg]? with
      | some b => badEntry s n b.1
      | none => 0x1FFFFF
    (1, s.setReg (Reg.FOLD_MBX_RESP n) (BitVec.ofNat 64 x))

/-- The operation ends; an operation on the flash may fail there, with RESULT 5. -/
def mbxEnds (n : Rgn) (ok : Bool) (s : State) : State :=
  match (s.rgn n).fold.mbxOp with
  | none => s
  | some (op, arg, refused) =>
    let r := if ok ∨ (mbxWork n op arg refused s).1 ≠ 1 ∨ op = 1 ∨ op = 4 then mbxWork n op arg refused s else (5, s)
    let s1 := modFold n (fun f => { f with mbxOp := none }) r.2
    irqRaise (evRgn n.val 3) 0
      ((s1.setFld (Reg.FOLD_MBX_CMD n) Reg.FOLD_MBX_CMD_BUSY 0).setFld (Reg.FOLD_MBX_CMD n) Reg.FOLD_MBX_CMD_RESULT r.1)

def execFoldMailboxDone (n : Rgn) (ok : Bool) (s : State) : Host.Outcome State Fault Refusal := live s (mbxEnds n ok)

end Sys2Proof.Machine
end

