-- ==== Sys2Proof/Machine/Router.lean ====
section
/-!
DEFINITION. The routers of the cells (R23 to R27, R35 to R42, R91 to R99, R116 to R120): ports and queues, routing and
arbitration, steering, and one hop on a link.
-/

namespace Sys2Proof.Machine

/-! ### Ports and queues (Table 2.2) -/

def planeBase : Plane → Nat
  | .vector => 0
  | .scalar => 9
  | .control => 14
def planePorts : Plane → Nat
  | .vector => 9
  | .scalar => 5
  | .control => 5
def planeCode : Plane → Nat
  | .vector => 0
  | .scalar => 1
  | .control => 2
def planeDepth : Plane → Nat
  | .vector => 4
  | .scalar => 4
  | .control => 8
def localPort (pl : Plane) : Nat := planePorts pl - 1

def Cell.queue (c : Cell) (pl : Plane) (i : Nat) : List Flit :=
  match pl with
  | .vector => c.vin.toList.getD i []
  | .scalar => c.sin.toList.getD i []
  | .control => c.cin.toList.getD i []

def Cell.setQueue (c : Cell) (pl : Plane) (i : Nat) (q : List Flit) : Cell :=
  match pl with
  | .vector => { c with vin := Vec.modify c.vin i fun _ => q }
  | .scalar => { c with sin := Vec.modify c.sin i fun _ => q }
  | .control => { c with cin := Vec.modify c.cin i fun _ => q }

def Cell.out (c : Cell) (pl : Plane) (o : Nat) : Option Flit :=
  match pl with
  | .vector => c.vout.toList.getD o none
  | .scalar => c.sout.toList.getD o none
  | .control => c.cout.toList.getD o none

def Cell.setOut (c : Cell) (pl : Plane) (o : Nat) (f : Option Flit) : Cell :=
  match pl with
  | .vector => { c with vout := Vec.modify c.vout o fun _ => f }
  | .scalar => { c with sout := Vec.modify c.sout o fun _ => f }
  | .control => { c with cout := Vec.modify c.cout o fun _ => f }

def Cell.slot (c : Cell) (sl : Nat) : SlotSt := c.slots.toList.getD sl SlotSt.empty

/-- Room in an input queue: a receiver acknowledges only with a free place (R27). -/
def Cell.room (c : Cell) (pl : Plane) (i : Nat) : Bool := decide ((c.queue pl i).length < planeDepth pl)

/-! ### Where an output leads (R23, R34, R38, R50) -/

inductive OutTo where
  | here
  | cell (n : Rgn) (c port : Nat)
  /-- Closed, with the cause of Table 17.5: 1 a closed bridge, or no link at all, 2 a fenced link. -/
  | closed (cause : Nat)
  deriving DecidableEq, Repr

def leadsTo (s : State) (n : Rgn) (c port : Nat) : OutTo := if blockFenced s n (c / 64) then .closed 2 else .cell n c port

/-- Across the bridge of a side (0 north, 1 east, 2 south, 3 west). -/
def overBridge (s : State) (n : Rgn) (side : Nat) (m c port : Nat) : OutTo :=
  if bridgeOpen s n side then leadsTo s (Fin.ofNat 16 m) c port else .closed 1

/-- A neighbour link, on any plane. -/
def neighbour (s : State) (n : Rgn) (c side : Nat) : OutTo :=
  let x := gxOf c
  let y := gyOf c
  if side = 0 then (if y = 0 then overBridge s n 0 (n.val - 8) (cellAt x 23) 2 else leadsTo s n (cellAt x (y - 1)) 2)
  else if side = 1 then (if x = 23 then overBridge s n 1 (n.val + 1) (cellAt 0 y) 3 else leadsTo s n (cellAt (x + 1) y) 3)
  else if side = 2 then (if y = 23 then overBridge s n 2 (n.val + 8) (cellAt x 0) 0 else leadsTo s n (cellAt x (y + 1)) 0)
  else (if x = 0 then overBridge s n 3 (n.val - 1) (cellAt 23 y) 1 else leadsTo s n (cellAt (x - 1) y) 1)

/-- Does the cell have an express port (R23)? -/
def expressPort (c side : Nat) : Bool := if side % 2 = 0 then c / 8 % 8 == 0 else c % 8 == 0

/-- An express link, within the region. -/
def express (s : State) (n : Rgn) (c side : Nat) : OutTo :=
  let x := gxOf c
  let y := gyOf c
  if ¬ expressPort c side then .closed 1
  else if side = 0 then (if y < 8 then .closed 1 else leadsTo s n (cellAt x (y - 8)) 6)
  else if side = 1 then (if 16 ≤ x then .closed 1 else leadsTo s n (cellAt (x + 8) y) 7)
  else if side = 2 then (if 16 ≤ y then .closed 1 else leadsTo s n (cellAt x (y + 8)) 4)
  else (if x < 8 then .closed 1 else leadsTo s n (cellAt (x - 8) y) 5)

def outTo (s : State) (n : Rgn) (c : Nat) (pl : Plane) (o : Nat) : OutTo :=
  if o = localPort pl then .here else if o < 4 then neighbour s n c o else express s n c (o - 4)

/-! ### Reports of a cell and of its links (R39, R46, R92, Table 17.5) -/

def markPoisoned (cmd : Option Nat) (s : State) : State :=
  match cmd with
  | some id => s.modCmd id fun c => { c with poisoned := true }
  | none => s

/-- The cell sets its poison flag and a source is raised. -/
def poisonWith (n : Rgn) (c src : Nat) (addr detail : Nat) (s : State) : State :=
  let cmd := (s.rgn n).plan
  let s1 := s.setCell n.val c { s.cell n.val c with poison := true }
  raise src ⟨cmd, BitVec.ofNat 128 addr, BitVec.ofNat 128 detail⟩ (if 3 ≤ s.sev src then markPoisoned cmd s1 else s1)

def cellPos (c : Nat) : Nat := c % 64

/-- The block's cell source: unit, bank, word and slot. -/
def reportCell (n : Rgn) (c unit bank word sl : Nat) (s : State) : State :=
  let addr := if unit = 0 then hereGta s n 0 (c * 98304 + 16 * (bank * 1024 + word)) else 0
  poisonWith n c (rgnSrc n.val (3 * cellBlk c)) addr.toNat
    (cellPos c + 64 * unit + 512 * bank + 4096 * word + 2 ^ 25 * sl) s

/-- DETAIL of a link report. -/
def linkDetail (c : Nat) (pl : Plane) (port sl cause : Nat) : Nat :=
  cellPos c + 64 * planeCode pl + 256 * port + 4096 * sl + 2 ^ 14 * cause

/-- A dropped token: the block's link source, and the command that issued it does not commit. -/
def reportDrop (n : Rgn) (c : Nat) (pl : Plane) (port sl cause : Nat) (s : State) : State :=
  endPlanOf n ST_INTERNAL (raiseDetail (rgnSrc n.val (3 * cellBlk c + 1)) (s.rgn n).plan (linkDetail c pl port sl cause) s)

/-- A parity error of a link; the errors of a block's links are counted over one second (R50). -/
def countLinkErr (n : Rgn) (link : Nat) (s : State) : State :=
  s.modRgn n fun r => { r with linkErrs := (r.linkErrs.filter fun e => decide (s.now < e.2 + 100000000)) ++ [(link, s.now)] }

/-- A parity error of an arriving token (R46). -/
def reportParity (n : Rgn) (c : Nat) (pl : Plane) (port sl : Nat) (s : State) : State :=
  let s1 := countLinkErr n (32 * c + planeBase pl + port) s
  poisonWith n c (rgnSrc n.val (3 * cellBlk c + 1)) 0 (linkDetail c pl port sl 0) s1

/-- What routing has found wrong. -/
inductive RouteFault where
  | drop (pl : Plane) (port sl cause : Nat)
  | steer (sl : Nat)
  deriving DecidableEq, Repr

def reportRoute (n : Rgn) (c : Nat) (s : State) : RouteFault → State
  | .drop pl port sl cause => reportDrop n c pl port sl cause s
  | .steer sl => reportCell n c 5 0 0 sl s

/-! ### Route entries and steering configuration (R91, Table 4.8) -/

/-- A route entry of a slot: output set, and on the vector plane the tile-atomic bit above it. -/
def routeEntry (x : SlotSt) (pl : Plane) (i : Nat) : Nat :=
  match pl with
  | .vector => leAt x.config (0x004 + 4 * i) 4 % 1024
  | .scalar => leAt x.config (0x028 + 2 * i) 2 % 32
  | .control => leAt x.config (0x032 + 2 * i) 2 % 32
def routeSet (e : Nat) : Nat := e % 512
def tileAtomic (e : Nat) : Bool := e.testBit 9

def SlotSt.steer (x : SlotSt) : Nat := leAt x.config 0x60 16
def SlotSt.steers (x : SlotSt) : Bool := x.steer.testBit 11
def SlotSt.aIn (x : SlotSt) : Nat := x.steer % 16
def SlotSt.bIn (x : SlotSt) : Nat := x.steer / 2 ^ 4 % 16
def SlotSt.ctrlIn (x : SlotSt) : Nat := x.steer / 2 ^ 8 % 8
def SlotSt.mergeOut (x : SlotSt) : Nat := x.steer / 2 ^ 12 % 512
def SlotSt.alt (x : SlotSt) (k : Nat) : Nat := x.steer / 2 ^ (24 + 9 * k) % 512

/-! ### Steering tokens (R118, R120) -/

/-- Does an output set name an express port that the cell lacks? -/
def lacksPort (c set : Nat) : Bool := (List.range 4).any fun k => set.testBit (4 + k) && !expressPort c k

/-- Does the token pair as drop (R120)? -/
def ctlBad (c : Nat) (x : SlotSt) (f : Flit) : Bool :=
  let t := f.data.toNat % 65536
  f.bad || f.sub || ctlReserved t || (ctlOp t == 1 && lacksPort c (x.alt (ctlArg t % 8)))

/-- Is the token paired rather than routed (R118)? -/
def ctlPairs (c : Nat) (x : SlotSt) (i : Nat) (f : Flit) : Bool :=
  x.steers && x.ctrlIn == i && (ctlBad c x f || decide (ctlOp (f.data.toNat % 65536) ≤ 4))

/-- The token as the pairing register takes it: one that pairs as drop becomes drop. DEDUCED: the drop governs the unit that the
token's UNIT names where its OP is one that pairs and it has no parity error, and a single flit otherwise (log entry 139). -/
def pairToken (c : Nat) (x : SlotSt) (f : Flit) : BitVec 16 :=
  let t := f.data.toNat % 65536
  if ctlBad c x f then BitVec.ofNat 16 (f.slot.val + 4 * 2 + (if ¬ f.bad ∧ ¬ f.sub ∧ ctlOp t ≤ 4 ∧ ctlUnit t then 2 ^ 15 else 0))
  else BitVec.ofNat 16 t

/-! ### Routing (R35, R39 to R42, R92, R98, R99) -/

/-- What becomes of the token at the head of an input. -/
inductive Head where
  | wait
  | drop
  | pair
  | go (set : Nat) (atomic : Bool)
  deriving DecidableEq, Repr

/-- `state` gives the state of each slot in the cell: a token waits for a load, and finds no output in an empty slot (R99). -/
def look (state : Nat → Nat) (ix : Nat) (c : Cell) (pl : Plane) (i : Nat) : Head :=
  match c.queue pl i with
  | [] => .wait
  | f :: _ =>
    let x := c.slot f.slot.val
    if state f.slot.val = slotLoading then .wait
    else if state f.slot.val = slotEmpty then .drop
    else if pl = .vector ∧ x.steers ∧ (x.aIn = i ∨ x.bIn = i) then .wait
    else if pl = .control ∧ ctlPairs ix x i f then (if c.pair.isNone then .pair else .wait)
    else
      let e := routeEntry x pl i
      if routeSet e = 0 then .drop else .go (routeSet e) (tileAtomic e)

def acceptedAt (c : Cell) (k : Nat) : Nat := ((c.accepted.find? fun a => a.1 == k).map Prod.snd).getD 0
def setAccepted (k m : Nat) (c : Cell) : Cell :=
  { c with accepted := (if m = 0 then [] else [(k, m)]) ++ c.accepted.filter fun a => a.1 != k }

/-- Take the head of an input off its queue. -/
def popHead (pl : Plane) (i : Nat) (c : Cell) : Cell :=
  setAccepted (planeBase pl + i) 0 (c.setQueue pl i (c.queue pl i).tail)

def headSlot (c : Cell) (pl : Plane) (i : Nat) : Nat := (((c.queue pl i).head?).map fun f => f.slot.val).getD 0

/-- Drops, and tokens for the pairing register. -/
def routeHeads (state : Nat → Nat) (ix : Nat) (pl : Plane) : List Nat → Cell × List RouteFault → Cell × List RouteFault
  | [], r => r
  | i :: is, r =>
    let c := r.1
    routeHeads state ix pl is (
      match look state ix c pl i, c.queue pl i with
      | .drop, f :: _ => (popHead pl i c, r.2 ++ [.drop pl i f.slot.val 3])
      | .pair, f :: _ =>
        let x := c.slot f.slot.val
        (popHead pl i { c with pair := some (pairToken ix x f) }, r.2 ++ if ctlBad ix x f then [.steer f.slot.val] else [])
      | _, _ => r)

/-- Copies for closed outputs are dropped (R40). -/
def routeClosed (state : Nat → Nat) (dest : Nat → OutTo) (ix : Nat) (pl : Plane) : List (Nat × Nat) →
    Cell × List RouteFault → Cell × List RouteFault
  | [], r => r
  | (i, o) :: ps, r =>
    let c := r.1
    let k := planeBase pl + i
    routeClosed state dest ix pl ps (
      match look state ix c pl i, dest o with
      | .go set _, .closed cause =>
        if set.testBit o ∧ ¬ (acceptedAt c k).testBit o then
          (setAccepted k (acceptedAt c k ||| 2 ^ o) c, r.2 ++ [.drop pl o (headSlot c pl i) cause])
        else r
      | _, _ => r)

/-- The inputs that ask for an output, in the arbiter's order from the one after the last it granted (R41). -/
def grantOrder (c : Cell) (pl : Plane) (o : Nat) : List Nat :=
  let k := planePorts pl
  let last := ((c.grant.find? fun g => g.1 == planeBase pl + o).map Prod.snd).getD (k - 1)
  (List.range k).map fun j => (last + 1 + j) % k

def heldBy (c : Cell) (o : Nat) : Option Nat := (c.hold.find? fun h => h.1 == o).map fun h => h.2.1

/-- Does an input ask for an output that it may have? -/
def asks (state : Nat → Nat) (ix : Nat) (c : Cell) (pl : Plane) (o i : Nat) : Bool :=
  match look state ix c pl i with
  | .go set _ =>
    set.testBit o && !(acceptedAt c (planeBase pl + i)).testBit o &&
    (pl != .vector || (match heldBy c o with | some h => h == i | none => true))
  | _ => false

def setHold (o i sl : Nat) (on : Bool) (c : Cell) : Cell :=
  { c with hold := (if on then [(o, i, sl)] else []) ++ c.hold.filter fun h => h.1 != o }

/-- Grant a free output. -/
def grantOut (state : Nat → Nat) (ix : Nat) (pl : Plane) (c : Cell) (o : Nat) : Cell :=
  if (c.out pl o).isSome then c
  else match (grantOrder c pl o).find? (asks state ix c pl o) with
    | none => c
    | some i =>
      match c.queue pl i, look state ix c pl i with
      | f :: _, .go _ atomic =>
        let k := planeBase pl + i
        let c1 := setAccepted k (acceptedAt c k ||| 2 ^ o) (c.setOut pl o (some f))
        let c2 := { c1 with grant := (planeBase pl + o, i) :: c1.grant.filter fun g => g.1 != planeBase pl + o }
        if pl = .vector ∧ atomic then setHold o i f.slot.val (!(f.eot || f.eos)) c2 else c2
      | _, _ => c

/-- An input is free once every named output has its copy. -/
def routePops (state : Nat → Nat) (ix : Nat) (pl : Plane) (c : Cell) (i : Nat) : Cell :=
  match look state ix c pl i with
  | .go set _ => if acceptedAt c (planeBase pl + i) &&& set = set then popHead pl i c else c
  | _ => c

def ports (pl : Plane) : List Nat := List.range (planePorts pl)

/-- One round of a plane's router. -/
def routeRound (state : Nat → Nat) (dest : Nat → OutTo) (ix : Nat) (pl : Plane) (r : Cell × List RouteFault) :
    Cell × List RouteFault :=
  let r1 := routeHeads state ix pl (ports pl) r
  let r2 := routeClosed state dest ix pl ((ports pl).flatMap fun i => (ports pl).map fun o => (i, o)) r1
  let c3 := (ports pl).foldl (grantOut state ix pl) r2.1
  ((ports pl).foldl (routePops state ix pl) c3, r2.2)

def routeRounds (state : Nat → Nat) (dest : Nat → OutTo) (ix : Nat) (pl : Plane) : Nat → Cell × List RouteFault →
    Cell × List RouteFault
  | 0, r => r
  | k + 1, r => routeRounds state dest ix pl k (routeRound state dest ix pl r)

/-- Output tokens of the micro-ops enter the local inputs as these have room (R25). -/
def drainPend (switchWaits : Bool) : List (Bool × Flit) → Cell → Cell
  | [], c => c
  | p :: ps, c =>
    let pl := if p.1 then Plane.scalar else Plane.vector
    let i := localPort pl
    if c.outPend.isEmpty ∧ c.room pl i ∧ ¬ (p.1 ∧ switchWaits ∧ ¬ c.sclTurn) then
      drainPend switchWaits ps { c.setQueue pl i (c.queue pl i ++ [p.2]) with sclTurn := if p.1 then false else c.sclTurn }
    else drainPend switchWaits ps { c with outPend := c.outPend ++ [p] }

/-- In cell (0, 0) the block switch, where a token of it waits for the scalar local input, and the units take turns (R142). -/
def drainOut (switchWaits : Bool) (c : Cell) : Cell := drainPend switchWaits c.outPend { c with outPend := [] }

/-- Does the block switch hold a scalar token for cell (0, 0) of its block? -/
def switchWaits (s : State) (n : Rgn) (ix : Nat) : Bool := ix % 64 == 0 && (s.rgn n).sclOut.any fun p => p.1 == ix / 64

/-- Everything in a cell's router that can move, moves. -/
def settleCell (s : State) (n : Rgn) (ix : Nat) (c : Cell) : Cell × List RouteFault :=
  let state := cellSlotState s n c
  let drain := drainOut (switchWaits s n ix)
  let go := fun (pl : Plane) (r : Cell × List RouteFault) => routeRounds state (outTo s n ix pl) ix pl 9 r
  let r1 := go .control (go .scalar (go .vector (drain c, [])))
  go .scalar (go .vector (drain r1.1, r1.2))

/-- Slots that a cell holds, as its touched bits record them (R108). -/
def Cell.touch (c : Cell) : Cell := { c with touched := c.touched ||| heldBits c.holds }

/-- Put a cell back, let its router settle, and report what it finds. -/
def settle (n : Rgn) (ix : Nat) (c : Cell) (s : State) : State :=
  let r := settleCell s n ix c.touch
  normSlots n (r.2.foldl (reportRoute n ix) (s.setCell n.val ix r.1.touch))

/-! ### LINK_TRANSFER (R26, R27, R35 to R40, R168, R169) -/

/-- May the stages of a block complete handshakes: powered and not frozen? -/
def blockRuns (s : State) (n : Rgn) (b : Nat) : Bool := blockState s n b == 1 && !(s.rgn n).frozen.getLsbD b

/-- The token as the receiving port captures it: zero in place of a value with a parity error (R46, R93). It stays marked, so that
a control token pairs as drop where it is paired (R120), and so that an operand sets no arithmetic flag (R85). -/
def capture (parity : Bool) (f : Flit) : Flit × Bool :=
  if parity ∨ f.bad ∨ (32 < f.vlc.toNat) then ({ f with data := 0, vlc := 0, perr := 0, sub := true }, true) else (f, false)

/-- Arrival of a token at an input port; one of a slot being flushed is discarded (R114). -/
def arriveAt (n : Rgn) (ix : Nat) (pl : Plane) (i : Nat) (parity : Bool) (f : Flit) (s : State) : State :=
  let g := capture parity f
  let s1 := if g.2 then reportParity n ix pl i f.slot.val s else s
  let c := s1.cell n.val ix
  if s.flag (Reg.CTX_FLUSH n) (flushingFld f.slot.val) ∨ (g.2 ∧ s1.flag (Reg.CTX_FLUSH n) (flushingFld f.slot.val)) then s1
  else settle n ix (c.setQueue pl i (c.queue pl i ++ [g.1])) (stepped n s.now s1)

/-- A hop from a cell's output to its neighbour. Where the output holds no token, the router grants what a load, a flush
or an unfreezing has let go on since the cell last moved. -/
def hopCell (n : Rgn) (c : Nat) (pl : Plane) (o : Nat) (parity : Bool) (s : State) : State :=
  let x := s.cell n.val c
  match x.out pl o with
  | none => if blockRuns s n (c / 64) then settle n c x s else s
  | some f =>
    if ¬ blockRuns s n (c / 64) then s
    else match outTo s n c pl o with
      | .here => s
      | .closed cause => reportDrop n c pl o f.slot.val cause (settle n c (x.setOut pl o none) s)
      | .cell m d i =>
        if blockRuns s m (d / 64) ∧ (s.cell m.val d).room pl i then
          arriveAt m d pl i parity f (settle n c (x.setOut pl o none) s)
        else s

/-- Elements of a whole flit of a descriptor's format. -/
def flitLanes (d : Desc) : Nat := lanesOf (dNat d.bytes 12 4)

/-- The next flit that a READ has for an injection link: its number in the transfer and the flit. -/
def nextFlit (d : Desc) (b y : Nat) : Option (Nat × Flit) :=
  if d.kind ≠ 1 ∨ ¬ d.blocks.testBit b ∨ ¬ d.links.testBit y then none
  else
    let nl := d.linkList.length
    let f := linkCount d b y * nl + d.linkList.idxOf y
    let t := f / 256
    match d.buf.find? fun p => p.1 == t with
    | none => none
    | some p =>
      let last := decide (256 * d.count ≤ f + nl)
      some (f, ⟨BitVec.ofNat 128 (leAt p.2 (16 * (f % 256)) 16), d.slot, decide ((f + nl) / 256 ≠ t) || last, last, false,
        BitVec.ofNat 6 (flitLanes d), 0, false, some d.id⟩)

def addCount (b y : Nat) (d : Desc) : Desc :=
  { d with cnt := (8 * b + y, linkCount d b y + 1) :: d.cnt.filter fun p => p.1 != 8 * b + y }

/-- Tiles that every block has accepted leave the mover's buffer. -/
def dropDelivered (s : State) (n : Rgn) (d : Desc) : Desc :=
  { d with buf := d.buf.filter fun p => !delivered s n d (256 * (p.1 + 1)) }

def injectFrom (n : Rgn) (b y : Nat) (parity : Bool) (s : State) : List Desc → State
  | [] => s
  | d :: ds =>
    match nextFlit d b y with
    | none => injectFrom n b y parity s ds
    | some f =>
      let s1 := modDesc n d.id (fun z => dropDelivered s n (addCount b y z)) (touchMover n d.slot s)
      arriveAt n (64 * b + 8 * y) .vector 8 parity f.2 s1

/-! ### The block switch's service order (R36, Table 2.7)

The control class is the control and scalar tokens that the switch holds for its cell (0, 0). A block that is frozen for scan
injects nothing, so the scan class never competes with the others; a context load lets tile data through (log entry 140). -/

def tileAge (s : State) (n : Rgn) (b : Nat) : Nat := (s.rgn n).tileAge.toList.getD b 0
def setTileAge (n : Rgn) (b k : Nat) (s : State) : State := s.modRgn n fun r => { r with tileAge := Vec.modify r.tileAge b fun _ => k }

/-- Has a class waited behind 16 grants to other classes? -/
def aged (s : State) (n : Rgn) (b : Nat) : Bool := decide (16 ≤ tileAge s n b)

/-- May a scalar token of the switch enter cell (0, 0): the units of the cell do not have the turn (R142)? -/
def switchTurn (c : Cell) : Bool := !c.sclTurn || !(c.outPend.any fun p => p.1)

/-- Does control traffic wait that cell (0, 0) has room for? -/
def controlWaits (s : State) (n : Rgn) (b : Nat) : Bool :=
  let c := s.cell n.val (64 * b)
  ((s.rgn n).ctlOut.any (fun p => p.1 == b) && c.room .control 4) ||
  ((s.rgn n).sclOut.any (fun p => p.1 == b) && c.room .scalar 4 && switchTurn c)

/-- Does tile data wait that a cell (0, y) has room for? -/
def tileWaits (s : State) (n : Rgn) (b : Nat) : Bool :=
  (List.range 8).any fun y => (s.cell n.val (64 * b + 8 * y)).room .vector 8 &&
    ((s.rgn n).descs.take 16).any fun d => (nextFlit d b y).isSome

/-- The block switch injects a flit at cell (0, y), unless control traffic comes first. -/
def inject (n : Rgn) (b y : Nat) (parity : Bool) (s : State) : State :=
  if blockRuns s n b ∧ (s.cell n.val (64 * b + 8 * y)).room .vector 8 ∧ (¬ controlWaits s n b ∨ aged s n b) then
    injectFrom n b y parity (setTileAge n b 0 s) ((s.rgn n).descs.take 16)
  else s

/-- A grant to the control class: tile data that waits ages by one. -/
def controlGrant (n : Rgn) (b : Nat) (s : State) : State := if tileWaits s n b then setTileAge n b (min 16 (tileAge s n b + 1)) s else s

/-- The block switch injects the oldest scalar or control token it holds at cell (0, 0), unless tile data has aged. -/
def injectHeld (n : Rgn) (b : Nat) (pl : Plane) (parity : Bool) (s : State) : State :=
  let q := if pl = .scalar then (s.rgn n).sclOut else (s.rgn n).ctlOut
  let c := s.cell n.val (64 * b)
  match q.find? fun p => p.1 == b with
  | none => s
  | some p =>
    if ¬ (blockRuns s n b ∧ c.room pl 4) ∨ (tileWaits s n b ∧ aged s n b) then s
    else if pl = .scalar ∧ ¬ switchTurn c then settle n (64 * b) c s
    else
      let s1 := (controlGrant n b s).modRgn n fun r =>
        if pl = .scalar then { r with sclOut := r.sclOut.erase p } else { r with ctlOut := r.ctlOut.erase p }
      let s2 := if pl = .scalar then s1.setCell n.val (64 * b) { c with sclTurn := true } else s1
      arriveAt n (64 * b) pl 4 parity p.2 (touchMover n p.2.slot s2)

/-- The place in the transfer of the next flit from an ejection link (R169). -/
def ejectPlace (d : Desc) (b y : Nat) : Option Nat :=
  if d.kind ≠ 2 ∨ ¬ d.blocks.testBit b ∨ ¬ d.links.testBit y then none
  else
    let f := (linkCount d b y * d.blockList.length + d.blockList.idxOf b) * d.linkList.length + d.linkList.idxOf y
    if f < d.flits then some f else none

/-- Cell (7, y), whose local output ejection link `y` of a block drives. -/
def ejectCell (b y : Nat) : Nat := 64 * b + 8 * y + 7

/-- The flit at an ejection link, the WRITE it belongs to and its place in the transfer. -/
def ejectReady (s : State) (n : Rgn) (b y : Nat) : Option (Flit × Desc × Nat) :=
  match (s.cell n.val (ejectCell b y)).out .vector 8 with
  | none => none
  | some f =>
    match ((s.rgn n).descs.take 16).find? fun d => d.slot == f.slot && (ejectPlace d b y).isSome with
    | none => none
    | some d => (ejectPlace d b y).map fun k => (f, d, k)

/-- Is link `y` the next in the switch's round among the links with a flit to pass (R37)? -/
def ejectTurn (s : State) (n : Rgn) (b y : Nat) : Bool :=
  let last := (s.rgn n).ejTurn.toList.getD b 7
  !(((List.range 8).map fun k => (last + 1 + k) % 8).takeWhile (fun k => k != y)).any fun k => (ejectReady s n b k).isSome

/-- A parity error of an ejection link: it counts among the block's links (R50), and the switch raises its source. DEDUCED: R46
speaks of cells, so no cell is poisoned and the command goes on with zero in place of the flit (log entry 19). -/
def ejectParity (n : Rgn) (b y : Nat) (s : State) : State :=
  raisePlain (rgnSrc n.val (3 * b + 2)) (countLinkErr n (32 * ejectCell b y + 20) s)

/-- The block switch takes a flit from the local output of cell (7, y) for the WRITE it belongs to. -/
def eject (n : Rgn) (b y : Nat) (parity : Bool) (s : State) : State :=
  let ix := ejectCell b y
  match ejectReady s n b y with
  | none => s
  | some (f, d, k) =>
    if ¬ blockRuns s n b ∨ ¬ ejectTurn s n b y then s
    else
      let g := capture parity f
      let s1 := (if g.2 then ejectParity n b y s else s).modRgn n fun r => { r with ejTurn := Vec.modify r.ejTurn b fun _ => y }
      let s2 := modDesc n d.id (fun z => { addCount b y z with got := z.got ++ [(k, g.1.data)] }) (touchMover n f.slot s1)
      settle n ix ((s2.cell n.val ix).setOut .vector 8 none) (stepped n s.now s2)

def transfer (n : Rgn) (l : Link) (parity : Bool) (s : State) : State :=
  match l with
  | .cell c pl o => hopCell n c.val pl o.val parity s
  | .inject b y => inject n b.val y.val parity s
  | .injectScalar b => injectHeld n b.val .scalar parity s
  | .injectControl b => injectHeld n b.val .control parity s
  | .eject b y => eject n b.val y.val parity s

def execLinkTransfer (n : Rgn) (l : Link) (parityError : Bool) (s : State) : Host.Outcome State Fault Refusal :=
  live s (transfer n l parityError)

/-! ### Steering events (R117 to R119) -/

/-- May a steered flit take every open output of its set? -/
def outsFree (s : State) (n : Rgn) (ix : Nat) (c : Cell) (i set : Nat) : Bool :=
  (ports .vector).all fun o => !set.testBit o || (match outTo s n ix .vector o with
    | .closed _ => true
    | _ => (c.out .vector o).isNone && (match heldBy c o with | some h => h == i | none => true))

/-- Copy a flit to the open outputs of a set. -/
def copyOuts (s : State) (n : Rgn) (ix : Nat) (i set : Nat) (f : Flit) (hold : Bool) (c : Cell) : Cell :=
  (ports .vector).foldl (fun c o =>
    if set.testBit o then (match outTo s n ix .vector o with
      | .closed _ => c
      | _ => setHold o i f.slot.val hold (c.setOut .vector o (some f)))
    else c) c

/-- The faults of a steered flit's closed outputs, or of its empty set. -/
def steerFaults (s : State) (n : Rgn) (ix i set sl : Nat) : List RouteFault :=
  if set = 0 then [.drop .vector i sl 3]
  else (ports .vector).filterMap fun o => if set.testBit o then (match outTo s n ix .vector o with
    | .closed cause => some (.drop .vector o sl cause)
    | _ => none) else none

/-- The governed flit leaves by a set (none: it is discarded), and with it the control token, unless its unit goes on. Its outputs
stay held while the unit goes on, or up to EOT under a tile-atomic route entry. -/
def steerFlit (n : Rgn) (ix i : Nat) (t : Nat) (set : Option Nat) (atomic : Bool) (f : Flit) (s : State) : State :=
  let c := s.cell n.val ix
  let more := ctlUnit t && !(f.eot || f.eos)
  let c1 := match set with
    | none => c
    | some m => copyOuts s n ix i m f (more || (atomic && !(f.eot || f.eos))) c
  let c2 := (popHead .vector i c1).touch
  let unit : BitVec 16 := if more then BitVec.ofNat 16 (ctlOp t + 1 + 256 * (ctlArg t % 8)) else 0
  let c3 := { c2 with
    pair := if more then c2.pair else none,
    slots := Vec.modify c2.slots f.slot.val fun x => { x with unit := unit } }
  let faults := match set with
    | none => []
    | some m => steerFaults s n ix i m f.slot.val
  faults.foldl (reportRoute n ix) (settle n ix { c3 with touched := c3.touched ||| c.touch.touched } (stepped n s.now s))

/-- A pair of the given OP is complete: the token in the pairing register and the unit at the head of its input. -/
def steer (n : Rgn) (ix op : Nat) (s : State) : State :=
  let c := s.cell n.val ix
  match c.pair with
  | none => s
  | some w =>
    let t := w.toNat
    let x := c.slot (t % 4)
    let i := if op = 4 then x.bIn else x.aIn
    if ctlOp t ≠ op ∨ ¬ blockRuns s n (cellBlk ix) then s
    else match c.queue .vector i with
      | [] => s
      | f :: _ =>
        let set : Option Nat :=
          if op = 0 then some (routeSet (routeEntry x .vector i)) else if op = 1 then some (x.alt (ctlArg t % 8))
          else if op = 2 then none else some x.mergeOut
        if f.slot.val ≠ t % 4 then s
        else if (match set with | none => true | some m => outsFree s n ix c i m) then
          steerFlit n ix i t set (op == 0 && tileAtomic (routeEntry x .vector i)) f s
        else s

def execPass (n : Rgn) (c : CellIx) (s : State) : Host.Outcome State Fault Refusal := live s (steer n c.val 0)
def execSelect (n : Rgn) (c : CellIx) (s : State) : Host.Outcome State Fault Refusal := live s (steer n c.val 1)
def execDrop (n : Rgn) (c : CellIx) (s : State) : Host.Outcome State Fault Refusal := live s (steer n c.val 2)
def execTakeA (n : Rgn) (c : CellIx) (s : State) : Host.Outcome State Fault Refusal := live s (steer n c.val 3)
def execTakeB (n : Rgn) (c : CellIx) (s : State) : Host.Outcome State Fault Refusal := live s (steer n c.val 4)

/-- A control token of the given OP at a local output. -/
def localControl (s : State) (n : Rgn) (ix op : Nat) : Option Nat :=
  match (s.cell n.val ix).out .control 4 with
  | none => none
  | some f => if ctlOp (f.data.toNat % 65536) = op ∧ blockRuns s n (cellBlk ix) then some (f.data.toNat % 65536) else none

/-- SWITCH_CONTEXT (R105): the active slot of this cell only. -/
def switchHere (n : Rgn) (ix : Nat) (s : State) : State :=
  match localControl s n ix 5 with
  | none => s
  | some t =>
    let c := (s.cell n.val ix).touch
    settle n ix { c.setOut .control 4 none with active := Fin.ofNat 4 (ctlArg t) } s

def execSwitchContext (n : Rgn) (c : CellIx) (s : State) : Host.Outcome State Fault Refusal := live s (switchHere n c.val)

/-- SIGNAL (R150): the token leaves cell (0, 0) for the block switch, which adds 1 to the region semaphore. -/
def signalHere (n : Rgn) (b : Nat) (s : State) : State :=
  match localControl s n (64 * b) 6 with
  | none => s
  | some t => signalSem n (ctlArg t % 256) 1 (settle n (64 * b) ((s.cell n.val (64 * b)).touch.setOut .control 4 none) s)

def execSignal (n : Rgn) (b : Blk) (s : State) : Host.Outcome State Fault Refusal := live s (signalHere n b.val)

end Sys2Proof.Machine
end

