-- ==== Sys2Proof/Machine/TableFns.lean ====
section
/-!
DEFINITION. Table functions and composites (R75, R82, R84, Table 3.9): the exactly rounded result in fixed point, and a
result that the spec leaves open within the maximum error of Table 3.9.
-/

namespace Sys2Proof.Machine

/-! ### Fixed point with 160 fraction bits -/

def fxOne : Nat := 2 ^ 160
/-- ln 2, log2 e and 1 / √(2π). -/
def fxLn2 : Nat := 1013035739299659071135698605846798551586536899366
def fxLog2e : Nat := 2108501164428393954197770173035669514763056903505
def fxInvSqrt2Pi : Nat := 583054796007218040734191730443699882195345907504

/-- ±m × 2^e in fixed point, rounded down in magnitude. -/
def fxMag (m : Nat) (e : Int) : Nat := if -160 ≤ e then m * 2 ^ (e + 160).toNat else m / 2 ^ (-160 - e).toNat

/-- The exponential series from a term: sum of t^k / k!. -/
def expSum (t : Nat) : Nat → Nat → Nat → Nat → Nat
  | 0, _, _, acc => acc
  | n + 1, k, term, acc => expSum t n (k + 1) (term * t / (fxOne * k)) (acc + term * t / (fxOne * k))

/-- 2^f for a fraction f. -/
def exp2Frac (f : Nat) : Nat := if f = 0 then fxOne else expSum (f * fxLn2 / fxOne) 60 1 fxOne fxOne

/-- 2^x for x in fixed point. -/
def exp2Fx (x : Int) : FVal :=
  let i := x.fdiv fxOne
  .fin false (exp2Frac (x - i * fxOne).toNat) (i - 160)

/-- 2^-t in fixed point, for a magnitude t. -/
def exp2Down (t : Nat) : Nat :=
  let i := (t + fxOne - 1) / fxOne
  if 200 < i then 0 else exp2Frac (i * fxOne - t) / 2 ^ i

/-- `n` fraction bits of the base-2 logarithm of y in [1, 2), by repeated squaring. -/
def logBits : Nat → Nat → Nat → Nat
  | 0, _, acc => acc
  | n + 1, y, acc =>
    let z := y * y / fxOne
    if 2 * fxOne ≤ z then logBits n (z / 2) (2 * acc + 1) else logBits n z (2 * acc)

def log2Fx (m : Nat) (e : Int) : FVal :=
  let top := m.log2
  let y := if top ≤ 160 then m * 2 ^ (160 - top) else m / 2 ^ (top - 160)
  let t : Int := ((top : Int) + e) * 2 ^ 80 + logBits 80 y 0
  .fin (decide (t < 0)) t.natAbs (-80)

/-- Integer square root, bit by bit from bit `b`. -/
def isqrtFrom : Nat → Nat → Nat → Nat
  | 0, _, r => r
  | b + 1, n, r => isqrtFrom b n (if (r + 2 ^ b) * (r + 2 ^ b) ≤ n then r + 2 ^ b else r)

def isqrt (n : Nat) : Nat := isqrtFrom (n.log2 / 2 + 1) n 0

/-- 1 / √(p / q). -/
def rsqrtRat (p q : Nat) : FVal :=
  let k := 100 + p.log2
  let n := q * 2 ^ (2 * k) / p
  let r := isqrt n
  let st := if r * r * p = q * 2 ^ (2 * k) then 0 else 1
  .fin false (2 * r + st) (-(k : Int) - 1)

/-- The sum of x^(2k+1) / (2k+1)!!. -/
def phiSum (xx : Nat) : Nat → Nat → Nat → Nat → Nat
  | 0, _, _, acc => acc
  | n + 1, k, term, acc =>
    phiSum xx n (k + 1) (term * xx / (fxOne * (2 * k + 1))) (acc + term * xx / (fxOne * (2 * k + 1)))

/-- The normal distribution function of a magnitude. -/
def phi (x : Nat) : Nat :=
  if 12 * fxOne ≤ x then fxOne
  else
    let xx := x * x / fxOne
    let g := exp2Down (xx / 2 * fxLog2e / fxOne) * fxInvSqrt2Pi / fxOne
    min fxOne (fxOne / 2 + g * phiSum xx 400 1 x x / fxOne)

/-! ### The bound of Table 3.9 -/

/-- `k` units in the last place of an FP32 value. -/
def ulps (k : Nat) (r : BitVec 32) : FVal := .fin false k (max 1 (r.toNat / 2 ^ 23 % 256 : Int) - 150)

def isNormal (r : BitVec 32) : Bool := r.toNat / 2 ^ 23 % 256 != 0
def isFin : FVal → Bool
  | .fin _ _ _ => true
  | _ => false

/-- An open value within `b` of the exactly rounded result. -/
def within (cand r : BitVec 32) (b : FVal) : BitVec 32 :=
  if isFin (of32 cand) ∧ isFin (of32 r) ∧ fcmp (fabs (fadd (of32 cand) (fneg (of32 r))).1) b ≤ 0 then cand else r

/-- What an open value depends on: the cell, the function's code and its inputs, and nothing else (R86). -/
structure Open where
  cell : Nat
  code : Nat
  ins : List Nat
  deriving DecidableEq, Repr

def Open.value (o : Open) : BitVec 32 := Config.tableResult o.cell o.code o.ins

def Open.pick (o : Open) (v : FVal) (bound : BitVec 32 → FVal) : BitVec 32 × Flags :=
  let r := to32 v
  (within o.value r.1 (bound r.1), r.2)

def inf32 (n : Bool) : BitVec 32 := BitVec.ofNat 32 (infinity f32 n)
def zero32 (n : Bool) : BitVec 32 := BitVec.ofNat 32 (signBit f32 n)

/-! ### The functions: FP32 result and flags of an FP32 or exact operand -/

/-- 2^x of a fixed-point x, with the limits of EXP2. -/
def exp2Limited (o : Open) (t : Int) (bound : BitVec 32 → FVal) : BitVec 32 × Flags :=
  if 128 * (fxOne : Int) ≤ t then (inf32 false, flagOf)
  else if t < -149 * (fxOne : Int) then (zero32 false, flagUf)
  else o.pick (exp2Fx t) bound

def fxInt (n : Bool) (m : Nat) (e : Int) : Int :=
  let k : Int := fxMag m e
  if n then -k else k

def fnExp2 (o : Open) (x : BitVec 32) : BitVec 32 × Flags :=
  match of32 x with
  | .nan => (nan32, Flags.none)
  | .inf n => (if n then zero32 false else inf32 false, Flags.none)
  | .fin n m e => exp2Limited o (fxInt n m e) fun r => if isNormal r then ulps 2 r else ulps 1 r

def fnLog2 (o : Open) (x : BitVec 32) : BitVec 32 × Flags :=
  match of32 x with
  | .nan => (nan32, Flags.none)
  | .fin _ 0 _ => (inf32 true, flagDz)
  | .inf true | .fin true _ _ => (nan32, flagNv)
  | .inf false => (inf32 false, Flags.none)
  | .fin false m e =>
    let near := decide (0x3F000000 ≤ x.toNat) && decide (x.toNat ≤ 0x40000000)
    o.pick (log2Fx m e) fun r => if near then .fin false 1 (-22) else ulps 2 r

def fnRcp (o : Open) (x : BitVec 32) : BitVec 32 × Flags :=
  match of32 x with
  | .nan => (nan32, Flags.none)
  | .inf n => (zero32 n, Flags.none)
  | .fin n 0 _ => (inf32 n, flagDz)
  | .fin n m e =>
    let r := fdiv32 FVal.one (.fin n m e)
    (within o.value r.1 (ulps 1 r.1), r.2)

def fnRsqrt (o : Open) (x : BitVec 32) : BitVec 32 × Flags :=
  match of32 x with
  | .nan => (nan32, Flags.none)
  | .fin n 0 _ => (inf32 n, flagDz)
  | .inf true | .fin true _ _ => (nan32, flagNv)
  | .inf false => (zero32 false, Flags.none)
  | .fin false m e => o.pick (if e < 0 then rsqrtRat m (2 ^ (-e).toNat) else rsqrtRat (m * 2 ^ e.toNat) 1) (ulps 2)

/-- Is a result's magnitude at least 2^-10? -/
def big10 (r : BitVec 32) : Bool := decide (0x3A800000 ≤ r.toNat % 2 ^ 31)

/-- SILU: x × sigmoid(x). -/
def fnSilu (o : Open) (x : BitVec 32) : BitVec 32 × Flags :=
  match of32 x with
  | .nan => (nan32, Flags.none)
  | .inf n => (if n then zero32 true else inf32 false, Flags.none)
  | .fin n m e =>
    let g := exp2Down (fxMag m e * fxLog2e / fxOne)
    let sig := (if n then g else fxOne) * fxOne / (fxOne + g)
    o.pick (.fin n (m * sig) (e - 160)) fun r => if big10 r then ulps 4 r else .fin false 1 (-30)

/-- GELU: x × Φ(x). -/
def fnGelu (o : Open) (x : BitVec 32) : BitVec 32 × Flags :=
  match of32 x with
  | .nan => (nan32, Flags.none)
  | .inf n => (if n then zero32 true else inf32 false, Flags.none)
  | .fin n m e =>
    let p := phi (fxMag m e)
    o.pick (.fin n (m * (if n then fxOne - p else p)) (e - 160))
      fun r => if big10 r then fscale (fabs (of32 r)) (-18) else .fin false 1 (-28)

/-- SUBEXP: exp2((A − B) × log2 e). -/
def fnSubexp (o : Open) (a b : FVal) : BitVec 32 × Flags :=
  match fadd a (fneg b) with
  | (.nan, f) => (nan32, f)
  | (.inf n, _) => (if n then zero32 false else inf32 false, Flags.none)
  | (.fin n m e, _) =>
    let d := min (fxMag m e) (2 ^ 20 * fxOne)
    let t : Int := d * fxLog2e / fxOne
    exp2Limited o (if n then -t else t) fun r => if isNormal r then ulps 3 r else .fin false 1 (-126)

/-! ### Normalisation (R75) -/

/-- The quotient of two values in FP32. -/
def fdivAll (a b : FVal) : BitVec 32 × Flags :=
  match a, b with
  | .nan, _ | _, .nan => (nan32, Flags.none)
  | .inf _, .inf _ => (nan32, flagNv)
  | .inf x, b => (inf32 (x != b.neg?), Flags.none)
  | a, .inf y => (zero32 (a.neg? != y), Flags.none)
  | a, b => fdiv32 a b

/-- 2^-e, 0 standing for ε = 0. -/
def epsilon (e : Nat) : FVal := if e = 0 then FVal.zero else .fin false 1 (-(e : Int))

/-- Reciprocal deviation of a finite set with n ≠ 0: rsqrt(max(0, sumsq / n − mean²) + ε), the mean taken as 0 for RMS. -/
def recipDev (o : Open) (rms : Bool) (eps : Nat) (sum sumsq n : FVal) : BitVec 32 × Flags :=
  match sum, sumsq, n with
  | .fin a ma ea, .fin b mb eb, .fin c mc ec =>
    let lo := min ea (min eb ec)
    let s : Int := if rms then 0 else scaled a ma ea lo
    let t := scaled b mb eb lo
    let k := scaled c mc ec lo
    -- sumsq / n − mean² = (t k − s²) / k² for layer; t / k for RMS
    let p := (max 0 (t * k - s * s)).toNat * 2 ^ eps + (if eps = 0 then 0 else (k * k).natAbs)
    let q := (k * k).natAbs * 2 ^ eps
    if p = 0 then (inf32 false, flagDz) else o.pick (rsqrtRat p q) (ulps 3)
  | _, _, _ =>
    let mean := if rms then (zero32 false, Flags.none) else fdivAll sum n
    let msq := fdivAll sumsq n
    let sq := fmul (of32 mean.1) (of32 mean.1)
    let v := fadd (of32 msq.1) (fneg sq.1)
    let w := if v.1.isNan then v.1 else fmax FVal.zero v.1
    let r := to32 (fadd w (epsilon eps)).1
    let y := fnRsqrt o r.1
    (y.1, ((mean.2.or msq.2).or (sq.2.or v.2)).or y.2)

end Sys2Proof.Machine
end

