-- ==== Sys2Proof/Machine/Micro.lean ====
section
/-!
DEFINITION. Micro-op issue and operands (R25, R45, R46, R56 to R61, R64, R71, R72, R97, R101): the stores of a cell with
their protection, sources and destinations, tokens, interlocks and turns, and write-back.
-/

namespace Sys2Proof.Machine

/-! ### The cell's stores (R45, R46, R57, R58) -/

/-- A micro-op at work: the cell and its number on the chip, its retired granules, the errors met (unit, bank, word), the flags
raised, the slot, the micro-op, the tokens it has taken, the cell's LFSR seed, and the counter of free values. -/
structure Work where
  c : Cell
  cell : Nat
  gone : List Nat
  bad : List (Nat × Nat × Nat)
  fl : Flags
  sl : Nat
  u : Uop
  vtok : List Flit
  stok : Option Flit
  seed : BitVec 32
  free : Nat
  deriving DecidableEq, Repr

def Work.flag (f : Flags) (w : Work) : Work := { w with fl := w.fl.or f }
def Work.err (unit bank word : Nat) (w : Work) : Work := { w with bad := w.bad ++ [(unit, bank, word)] }
/-- An open result of an operation, by the bits of its inputs (R86). -/
def Work.openAt (w : Work) (code : Nat) (ins : List Nat) : BitVec 32 := Config.tableResult w.cell code ins

/-- A value as read, and whether zero stands in its place (R46). -/
structure Rd (w : Nat) where
  v : BitVec w
  sub : Bool
  deriving DecidableEq, Repr

def zeroWord (_ : Nat) : BitVec 128 := 0
def zeroAcc (_ : Nat) : BitVec 32 := 0

def chkAt (c : Cell) (k : Nat) : Option (BitVec 9) := (c.chk.find? fun p => p.1 == k).map Prod.snd
def clearChk (k : Nat) (c : Cell) : Cell := { c with chk := c.chk.filter fun p => p.1 != k }
def setChk (k : Nat) (v : BitVec 9) (c : Cell) : Cell := { c with chk := (k, v) :: (clearChk k c).chk }

/-- Keys of `chk`: registers, store words, accumulators, masks, micro-ops. -/
def keyReg (r : Nat) : Nat := r
def keyStore (w : Nat) : Nat := 1000 + w
def keyAcc (i : Nat) : Nat := 8000 + i
def keyMask (i : Nat) : Nat := 9000 + i
def keyUop (sl i : Nat) : Nat := 10000 + 64 * sl + i

def countCe (c : Cell) : Cell := { c with ce := min 255 (c.ce + 1) }
def noteErr (word k : Nat) (c : Cell) : Cell :=
  let old := ((c.errs.find? fun e => e.1 == word).map Prod.snd).getD 0
  { c with errs := (word, old + k) :: c.errs.filter fun e => e.1 != word }

/-- Read a protected word: corrected and written back, or zero and an error. -/
def eccRead (key : Nat) (v : BitVec 128) (put : BitVec 128 → Cell → Cell) (unit bank word : Nat) (w : Work) :
    Rd 128 × Work :=
  match chkAt w.c key with
  | none => (⟨v, false⟩, w)
  | some k => match Config.checkFix v k with
    | some v' => (⟨v', false⟩, { w with c := countCe (put v' (clearChk key w.c)) })
    | none => (⟨0, true⟩, w.err unit bank word)

def putReg (r : Nat) (v : BitVec 128) (c : Cell) : Cell :=
  clearChk (keyReg r) { c with regs := Assoc.put zeroWord r v c.regs }
def readReg128 (r : Nat) (w : Work) : Rd 128 × Work :=
  eccRead (keyReg r) (Assoc.get zeroWord w.c.regs r) (putReg r) 1 0 r w

def putStore (a : Nat) (v : BitVec 128) (c : Cell) : Cell :=
  clearChk (keyStore a) { c with store := Assoc.put zeroWord a v c.store }

/-- A cell-store word; a retired granule reads zero and is an error (R58). -/
def readStore (a : Nat) (w : Work) : Rd 128 × Work :=
  if w.gone.contains (a / 64) then (⟨0, true⟩, w.err 0 (a / 1024) (a % 1024))
  else
    let was := chkAt w.c (keyStore a)
    let r := eccRead (keyStore a) (Assoc.get zeroWord w.c.store a) (putStore a) 0 (a / 1024) (a % 1024) w
    if was.isNone then r
    else (r.1, { r.2 with c := noteErr a (if (chkAt r.2.c (keyStore a)).isSome then 2 else 1) r.2.c })

def writeStore (a : Nat) (v : BitVec 128) (w : Work) : Work :=
  if w.gone.contains (a / 64) then w.err 0 (a / 1024) (a % 1024) else { w with c := putStore a v w.c }

def readAcc (bank e : Nat) (w : Work) : Rd 32 × Work :=
  if (chkAt w.c (keyAcc (64 * bank + e))).isSome then (⟨0, true⟩, w.err 2 bank e)
  else (⟨Assoc.get zeroAcc w.c.acc (64 * bank + e), false⟩, w)
def putAcc (bank e : Nat) (v : BitVec 32) (c : Cell) : Cell :=
  clearChk (keyAcc (64 * bank + e)) { c with acc := Assoc.put zeroAcc (64 * bank + e) v c.acc }

def readMask (m : Nat) (w : Work) : BitVec 32 × Work :=
  if (chkAt w.c (keyMask m)).isSome then (0, w.err 3 0 m) else (Assoc.get zeroAcc w.c.masks m, w)
def putMask (m : Nat) (v : BitVec 32) (c : Cell) : Cell := clearChk (keyMask m) { c with masks := Assoc.put zeroAcc m v c.masks }

/-! ### Stream pointers (R57) -/

def Work.ptr (w : Work) (p : Nat) : Ptr := (w.c.slot w.sl).ptrs.toList.getD p ⟨0, 0, 0⟩
def setPtr (sl p : Nat) (q : Ptr) (c : Cell) : Cell :=
  { c with slots := Vec.modify c.slots sl fun x => { x with ptrs := Vec.modify x.ptrs p fun _ => q } }

/-- Word addresses of a stream of `k` words from an address, and the address after them. -/
def streamFrom (cur : Nat) (stride : Int) : Nat → List Nat × Nat
  | 0 => ([], cur)
  | k + 1 =>
    let r := streamFrom (((cur : Int) + stride).emod 6144).toNat stride k
    (cur :: r.1, r.2)

/-- The next `k` words of the stream that a field names; the pointer moves past them. -/
def takeStream (field k : Nat) (w : Work) : List Nat × Work :=
  let p := field / 8
  let q := w.ptr p
  let start := (if field.testBit 2 then q.base else q.cur).toNat % 6144
  let r := streamFrom start q.stride.toInt k
  (r.1, { w with c := setPtr w.sl p { q with cur := BitVec.ofNat 13 r.2 } w.c })

/-! ### Reading sources -/

/-- Read words one after another. -/
def readAll (f : Nat → Work → Rd 128 × Work) : List Nat → Work → List (Rd 128) × Work
  | [], w => ([], w)
  | a :: as, w =>
    let r := f a w
    let q := readAll f as r.2
    (r.1 :: q.1, q.2)

def regSpan (r k : Nat) : List Nat := (List.range k).map fun i => (r + i) % 64

/-- Flits of the vector local input that A and B take: word by word, A before B. -/
def flitsOfA (w : Work) (nb : Nat) : List Flit :=
  if nb = 0 then w.vtok
  else (w.vtok.zipIdx.filter fun p => decide (2 * nb ≤ p.2) || p.2 % 2 == 0).map Prod.fst
def flitsOfB (w : Work) (na : Nat) : List Flit :=
  if na = 0 then w.vtok
  else (w.vtok.zipIdx.filter fun p => decide (2 * na ≤ p.2) || p.2 % 2 == 1).map Prod.fst

/-- An element as read: its bits, whether they are FP32 or INT32 whatever FMT says, and whether zero stands in its place. -/
structure Elem where
  raw : Nat
  wide : Bool
  sub : Bool
  deriving DecidableEq, Repr

def unpack (fmt : Nat) (r : Rd 128) : List Elem :=
  let b := slotBits fmt
  (List.range (lanesOf fmt)).map fun j => ⟨r.v.toNat / 2 ^ (b * j) % 2 ^ elemBits fmt, false, r.sub⟩

/-- A flit's lanes beyond its valid-lane count read as zero (R60). -/
def flitWord (fmt : Nat) (f : Flit) : Rd 128 :=
  let k := min f.vlc.toNat (lanesOf fmt) * slotBits fmt
  ⟨BitVec.ofNat 128 (f.data.toNat % 2 ^ k), f.sub⟩

def readAccs (bank : Nat) : List Nat → Work → List Elem × Work
  | [], w => ([], w)
  | e :: es, w =>
    let r := if e < 64 then readAcc bank e w
      else (⟨BitVec.ofNat 32 (Config.freeWord (w.free + e)).toNat, false⟩, w)
    let q := readAccs bank es r.2
    (⟨r.1.v.toNat, true, r.1.sub⟩ :: q.1, q.2)

def ceilDiv (a b : Nat) : Nat := (a + b - 1) / b

/-- 1.0, or the integer 1, in 32 bits. -/
def oneRaw (fmt : Nat) : Nat := if isInt fmt then 1 else 0x3F800000

/-- The words of a source of `k` words. `flits` are those that the source has taken. -/
def sourceWords (kind field k fmt : Nat) (flits : List Flit) (w : Work) : List (Rd 128) × Work :=
  if kind = 0 then readAll readReg128 (regSpan field k) w
  else if kind = 1 then
    let r := takeStream field k w
    readAll readStore r.1 r.2
  else if kind = 2 then ((flits.take k).map (flitWord fmt), w)
  else if field = 3 then (List.replicate k ⟨0, false⟩, w)
  else ((List.range k).map fun i => ⟨(Config.freeWord (w.free + i)).zeroExtend 128, false⟩, w)

/-- The first `k` elements of a source. -/
def sourceElems (kind field k fmt : Nat) (flits : List Flit) (w : Work) : List Elem × Work :=
  if kind = 3 then
    if field ≤ 1 then readAccs field (List.range k) w
    else
      let v := if field = 2 then ((w.stok.map fun f => f.data.toNat % 2 ^ 32).getD 0) else if field = 3 then 0 else oneRaw fmt
      (List.replicate k ⟨v, true, field == 2 && (w.stok.map fun f => f.sub).getD false⟩, w)
  else
    let r := sourceWords kind field (ceilDiv k (lanesOf fmt)) fmt flits w
    ((r.1.flatMap (unpack fmt)).take k, r.2)

/-- The value of an element. An accumulator entry or a scalar token is FP32, or INT32 under an integer format; DEDUCED: the spec
does not say which of the two it is under MXINT8, and the model takes INT32 (log entry 131). -/
def Elem.val (fmt : Nat) (e : Elem) : FVal :=
  if e.wide then decodeElem (if isInt fmt then 6 else 0) e.raw else decodeElem fmt e.raw
def Elem.int (fmt : Nat) (e : Elem) : Int :=
  if e.wide ∨ fmt = 6 then (BitVec.ofNat 32 e.raw).toInt else (BitVec.ofNat 8 e.raw).toInt

/-! ### What a micro-op takes -/

/-- Elements of B under a broadcast mode (Table 3.5). -/
def bcastCount (mode cnt : Nat) : Nat :=
  if mode = 0 then cnt else if mode = 1 then min 8 cnt else if mode = 2 then ceilDiv cnt 8 else 1
def bcastIx (mode e : Nat) : Nat := if mode = 0 then e else if mode = 1 then e % 8 else if mode = 2 then e / 8 else 0

/-- Values of k in a 16-bit field of a k-group (Table 3.7). -/
def perField (fmt : Nat) : Nat := if slotBits fmt = 16 then 1 else if slotBits fmt = 4 then 4 else 2

/-- Elements of A. -/
def aCount (u : Uop) : Nat := if u.op = opNfin then 4 * u.cnt else u.cnt

def wordsA (u : Uop) : Nat :=
  if u.op = opMma then ceilDiv u.cnt (perField u.fmt) else if u.op = opSetp ∨ u.op = opSeed then 1
  else if usesA u.op then ceilDiv (aCount u) (lanesOf u.fmt) else 0

/-- Scale words that a conversion to an MX format reads from B (R67, R81). -/
def scaleWords (cnt : Nat) : Nat := ceilDiv (ceilDiv cnt 256) 2

def wordsB (u : Uop) : Nat :=
  if ¬ usesB u.op u.aux then 0
  else if u.op = opMma then ceilDiv u.cnt (perField u.fmt)
  else if u.op = opCvt then scaleWords u.cnt
  else ceilDiv (bcastCount u.bcast u.cnt) (lanesOf u.fmt)

/-- Vector flits and scalar tokens among the operands. -/
def flitsA (u : Uop) : Nat := if usesA u.op ∧ u.ak = 2 then wordsA u else 0
def flitsB (u : Uop) : Nat := if usesB u.op u.aux ∧ u.bk = 2 then wordsB u else 0
def needsScalar (u : Uop) : Bool :=
  (usesA u.op && u.ak == 3 && u.a == 2) || (usesB u.op u.aux && u.bk == 3 && u.b == 2)
def tokenOperand (u : Uop) : Bool := decide (0 < flitsA u + flitsB u) || needsScalar u

/-- Accumulator banks that a vector micro-op names. -/
def banksNamed (u : Uop) : List Nat :=
  (if usesA u.op ∧ u.ak = 3 ∧ u.a ≤ 1 then [u.a] else []) ++ (if usesB u.op u.aux ∧ u.bk = 3 ∧ u.b ≤ 1 then [u.b] else []) ++
  (if u.dk = 3 ∧ u.d ≤ 1 then [u.d] else [])

/-! ### Interlocks (R61) -/

/-- Elements that D takes, and their format. -/
def dCount (u : Uop) : Nat :=
  if u.op = opRedRow then u.cnt / 8 else if u.op = opRedCol then 8 else if u.op = opNstat then 4
  else if u.op = opNfin then 2 * u.cnt else if u.op = opMxscale then 8 * ceilDiv u.cnt 256 else u.cnt
def dFmt (u : Uop) : Nat :=
  if u.op = opCvt then u.aux % 16 else if u.op = opMxscale then 7 else if u.op = opNstat then 0 else u.fmt
/-- Does the operation write D as Table 3.2 has it? -/
def writesD (o : Nat) : Bool := !(o == opNop || o == opMma || o == opSetp || o == opSeed || o == opFlags || o == opSummary)

/-- Scale registers of an MX micro-op (R67): those that its blocks use. -/
def scaleRegs (u : Uop) : List Nat := (List.range (2 * ceilDiv (ceilDiv u.cnt 32) 2)).map fun j => (u.aux % 64 + j) % 64

/-- Numbers of the interlocked resources: registers from 0, mask registers, accumulator banks, stream pointers of the slots. -/
def resMask (m : Nat) : Nat := 100 + m
def resBank (b : Nat) : Nat := 200 + b
def resPtr (sl p : Nat) : Nat := 300 + 8 * sl + p

/-- What a source reads, and the pointer that it moves. -/
def sourceReads (kind field k : Nat) : List Nat :=
  if kind = 0 then regSpan field k else if kind = 3 ∧ field ≤ 1 then [resBank field] else []
def sourceMoves (sl kind field : Nat) : List Nat := if kind = 1 then [resPtr sl (field / 8)] else []

/-- The resources that a micro-op of a slot reads. -/
def resReads (u : Uop) : List Nat :=
  (if usesA u.op then sourceReads u.ak u.a (wordsA u) else []) ++
  (if usesB u.op u.aux then sourceReads u.bk u.b (wordsB u) else []) ++
  (if u.op = opMma ∧ isMx u.fmt then scaleRegs u else []) ++
  (if u.op = opSel ∨ (u.men ∧ u.op ≠ opMma) then [resMask u.msk] else []) ++
  (if u.op = opFma then sourceReads u.dk u.d (ceilDiv u.cnt (lanesOf u.fmt)) else [])

/-- The resources that it writes; a stream moves its pointer. -/
def resWrites (sl : Nat) (u : Uop) : List Nat :=
  (if usesA u.op then sourceMoves sl u.ak u.a else []) ++ (if usesB u.op u.aux then sourceMoves sl u.bk u.b else []) ++
  (if u.op = opMma then [resBank u.acb] else []) ++ (if u.op = opSetp then [resPtr sl (u.d % 8)] else []) ++
  (if writesD u.op then
    (if u.dk = 0 then regSpan u.d (ceilDiv (dCount u) (lanesOf (dFmt u))) else sourceMoves sl u.dk u.d) ++
    (if u.dk = 3 ∧ u.d ≤ 1 then [resBank u.d] else if u.dk = 3 ∧ 8 ≤ u.d then [resMask (u.d - 8)] else [])
  else [])

/-- Must the micro-op `u` of slot `sl` wait for the issued micro-op `y`? -/
def conflicts (sl : Nat) (u : Uop) (y : Nat × Uop) : Bool :=
  (resWrites y.1 y.2).any (fun r => (resReads u).contains r || (resWrites sl u).contains r) ||
  (resReads y.2).any fun r => (resWrites sl u).contains r

/-! ### Write-back (R71, R72, R77, R78, R80, R97) -/

/-- A result before write-back: FP32 bits, an integer, or an element moved as it is. -/
inductive Res where
  | f (v : BitVec 32)
  /-- A result of a table function or composite in FP32, whose infinities are those of Table 3.9 and R75. -/
  | t (v : BitVec 32)
  | i (v : Int)
  | raw (e : Elem)
  /-- The bits themselves, of the destination's width. -/
  | bits (v : Nat)
  deriving DecidableEq, Repr

/-- One result with the flags its operation raises; `quiet` where an operand of it is a substituted zero, which sets no
arithmetic flag, neither in the operation nor at write-back (R85). -/
structure Out where
  r : Res
  fl : Flags
  quiet : Bool
  deriving DecidableEq, Repr

/-- How results are written: the format, its FP32 or INT32 form, and rounding under RND and SAT. -/
structure Form where
  fmt : Nat
  wide : Bool
  rnd : Bool
  sat : Bool
  deriving DecidableEq, Repr

def lfsrOf (w : Work) : BitVec 32 := w.c.lfsr.getD w.seed

/-- Draw 16 fresh bits. -/
def draw (w : Work) : Nat × Work :=
  (Config.lfsrBits (lfsrOf w), { w with c := { w.c with lfsr := some (Config.lfsrNext (lfsrOf w)) } })

/-- FP32 into the destination's format. DEDUCED: an accumulator bank or a scalar output holds FP32, so a result written to one
is not rounded to FMT first, whatever FMT names (log entry 132). DEDUCED: an infinite result converts under R80 also where the
destination is FP32 (log entry 133). -/
def encode32 (g : Form) (v : BitVec 32) (w : Work) : Nat × Work :=
  if g.fmt = 5 then
    let r := toIntFmt (if g.wide then 32 else 8) (of32 v)
    (r.1, w.flag r.2)
  else if g.fmt = 6 then
    let r := toIntFmt 32 (of32 v)
    (r.1, w.flag r.2)
  else if g.fmt = 0 ∨ g.wide then
    let r := toFp32 g.sat (of32 v)
    (r.1, w.flag r.2)
  else
    let d := if g.rnd then draw w else (0, w)
    let r := toFloatFmt g.fmt g.sat false (if g.rnd then some d.1 else none) (of32 v)
    (r.1, d.2.flag r.2)

/-- One result as the destination's bits. A moved NaN is written in its canonical form (R84). -/
def encode (g : Form) (r : Res) (w : Work) : Nat × Work :=
  match r with
  | .bits v => (v, w)
  | .f v => encode32 g v w
  | .t v => if ¬ isInt g.fmt ∧ (g.fmt = 0 ∨ g.wide) then (v.toNat, w) else encode32 g v w
  | .i v =>
    let q := satInt (if g.wide ∨ g.fmt = 6 then 32 else 8) v
    (intBits (if g.wide ∨ g.fmt = 6 then 32 else 8) q.1, if q.2 then w.flag flagSat else w)
  | .raw e =>
    if e.wide = g.wide ∨ slotBits g.fmt = 32 then (canonical (if g.wide ∧ ¬ isInt g.fmt then 0 else g.fmt) e.raw, w)
    else if g.wide then
      (if isInt g.fmt then (intBits 32 (e.int g.fmt), w) else ((to32 (e.val g.fmt)).1.toNat, w))
    else if isInt g.fmt then
      let q := satInt 8 (e.int g.fmt)
      (intBits 8 q.1, if q.2 then w.flag flagSat else w)
    else encode32 g (BitVec.ofNat 32 e.raw) w

/-- Every result in ascending order; none leaves the old value. -/
def encodeAll (g : Form) : List (Option Out) → Work → List (Option Nat) × Work
  | [], w => ([], w)
  | none :: rs, w =>
    let q := encodeAll g rs w
    (none :: q.1, q.2)
  | some r :: rs, w =>
    let p := encode g r.r w
    let q := encodeAll g rs (if r.quiet then { p.2 with fl := w.fl } else p.2)
    (some p.1 :: q.1, q.2)

/-- Put codes into a word over its old value. -/
def mergeWord (b : Nat) (old : BitVec 128) (codes : List (Option Nat)) : BitVec 128 :=
  BitVec.ofNat 128 ((codes.zipIdx.foldl (fun (v : Nat) p =>
    match p.1 with
    | none => v
    | some x => v - v / 2 ^ (b * p.2) % 2 ^ b * 2 ^ (b * p.2) + x % 2 ^ b * 2 ^ (b * p.2)) old.toNat))

/-- Codes cut into words of `k` lanes. -/
def chunks (k : Nat) : Nat → List (Option Nat) → List (List (Option Nat))
  | 0, _ => []
  | n + 1, l => if l.isEmpty then [] else l.take k :: chunks k n (l.drop k)

def wordsOf (fmt : Nat) (codes : List (Option Nat)) : List (List (Option Nat)) := chunks (lanesOf fmt) codes.length codes

def writeRegs (b k : Nat) : List (Nat × List (Option Nat)) → Work → Work
  | [], w => w
  | (r, cs) :: ps, w =>
    let old := if cs.length = k ∧ cs.all Option.isSome then (⟨0, false⟩, w) else readReg128 r w
    writeRegs b k ps { old.2 with c := putReg r (mergeWord b old.1.v cs) old.2.c }

def writeStores (b k : Nat) : List (Nat × List (Option Nat)) → Work → Work
  | [], w => w
  | (a, cs) :: ps, w =>
    let old := if (cs.length = k ∧ cs.all Option.isSome) ∨ w.gone.contains (a / 64) then (⟨0, false⟩, w) else readStore a w
    writeStores b k ps (writeStore a (mergeWord b old.1.v cs) old.2)

def writeAccs (bank : Nat) : List (Option Nat × Nat) → Work → Work
  | [], w => w
  | (some x, e) :: ps, w => writeAccs bank ps (if e < 64 then { w with c := putAcc bank e (BitVec.ofNat 32 x) w.c } else w)
  | (none, _) :: ps, w => writeAccs bank ps w

/-- EOS of a vector result, and EOS and SIG of a scalar one (R97). -/
def takenEos (w : Work) : Bool := w.vtok.any (fun f => f.eos) || (w.stok.map fun f => f.eos).getD false

def scalarFlit (w : Work) (v : Nat) : Flit :=
  ⟨BitVec.ofNat 128 (v % 2 ^ 32), Fin.ofNat 4 w.sl, false, (w.stok.map fun f => f.eos).getD false,
    (w.stok.map fun f => f.sig).getD false, noVlc, 0, false, none⟩

def sendScalar (v : Nat) (w : Work) : Work := { w with c := { w.c with outPend := w.c.outPend ++ [(true, scalarFlit w v)] } }

def sendFlits (fmt : Nat) : List (List (Option Nat)) → Work → Work
  | [], w => w
  | cs :: rest, w =>
    -- a masked element of an output has no old value to keep
    let v := mergeWord (slotBits fmt) ((Config.freeWord w.free).zeroExtend 128) (cs.map fun x => x)
    let k := cs.length
    let cut := if lanesOf fmt ≤ k then v else BitVec.ofNat 128 (v.toNat % 2 ^ (slotBits fmt * k))
    let f : Flit := ⟨cut, Fin.ofNat 4 w.sl, rest.isEmpty, rest.isEmpty && takenEos w, false, BitVec.ofNat 6 k, 0, false, none⟩
    sendFlits fmt rest { w with c := { w.c with outPend := w.c.outPend ++ [(false, f)] } }

/-- Bits of a mask register replaced. -/
def setBits (old : BitVec 32) (codes : List (Option Nat)) : BitVec 32 :=
  BitVec.ofNat 32 (codes.zipIdx.foldl (fun (v : Nat) p =>
    match p.1 with
    | none => v
    | some x => v - v / 2 ^ p.2 % 2 * 2 ^ p.2 + x % 2 * 2 ^ p.2) old.toNat)

/-- Write codes to D. `open` holds where the spec gives the destination no meaning for the operation: a mask register written
by anything but CMP takes open bits, one result for each code. -/
def writeCodes (dk d fmt : Nat) (isCmp : Bool) (codes : List (Option Nat)) (w : Work) : Work :=
  let ws := wordsOf fmt codes
  if dk = 0 then writeRegs (slotBits fmt) (lanesOf fmt) ((regSpan d ws.length).zip ws) w
  else if dk = 1 then
    let r := takeStream d ws.length w
    writeStores (slotBits fmt) (lanesOf fmt) (r.1.zip ws) r.2
  else if dk = 2 then sendFlits fmt ws w
  else if d ≤ 1 then writeAccs d codes.zipIdx w
  else if d = 2 then codes.foldl (fun w x => sendScalar (x.getD (Config.freeWord w.free).toNat) w) w
  else
    let old := readMask (d - 8) w
    let cs := if isCmp then codes else codes.map fun x => x.map fun v => (w.openAt 256 [w.u.op, fmt, v]).toNat
    { old.2 with c := putMask (d - 8) (setBits old.1 (cs.take 32)) old.2.c }

/-- D names a place that holds FP32 or INT32 whatever the format. -/
def wideDest (u : Uop) : Bool := u.dk == 3

/-- Write results in format `fmt`. -/
def writeBack (fmt : Nat) (rs : List (Option Out)) (w : Work) : Work :=
  let g : Form := ⟨fmt, wideDest w.u, w.u.rnd, w.u.sat⟩
  let r := encodeAll g rs w
  writeCodes w.u.dk w.u.d (if g.wide then 0 else fmt) false r.1 r.2

/-! ### Masks (R72) -/

/-- The mask that governs the elements; with MEN clear every bit is 1. -/
def governing (w : Work) : BitVec 32 × Work := if w.u.men then readMask w.u.msk w else (0xFFFFFFFF, w)

def live? (m : BitVec 32) (e : Nat) : Bool := m.getLsbD (e % 32)

/-- A masked result: the old value, or zero. -/
def masked (w : Work) : Option Out := if w.u.mz then some ⟨.bits 0, Flags.none, false⟩ else none

/-! ### Issue (R25, R61, R64, R69, R101) -/

/-- Take tokens from the local outputs until the micro-op has what it names. -/
def collect (n : Rgn) (ix sl nv : Nat) (scalar : Bool) : Nat → State → State
  | 0, s => s
  | k + 1, s =>
    let c := s.cell n.val ix
    let x := c.slot sl
    let put := fun (c : Cell) (x : SlotSt) => { c with slots := Vec.modify c.slots sl fun _ => { x with busy := true } }
    match c.out .vector 8, c.out .scalar 4 with
    | some f, g =>
      if f.slot.val = sl ∧ x.vtok.length < nv then
        collect n ix sl nv scalar k (takeBad f .vector (settle n ix (put (c.touch.setOut .vector 8 none) { x with vtok := x.vtok ++ [zeroBad f] }) s))
      else (match g with
        | some h =>
          if scalar ∧ h.slot.val = sl ∧ x.stok.isNone ∧ ix % 64 ≠ 0 then
            takeBad h .scalar (settle n ix (put (c.touch.setOut .scalar 4 none) { x with stok := some (zeroBad h) }) s)
          else s
        | none => s)
    | none, some h =>
      if scalar ∧ h.slot.val = sl ∧ x.stok.isNone ∧ ix % 64 ≠ 0 then
        takeBad h .scalar (settle n ix (put (c.touch.setOut .scalar 4 none) { x with stok := some (zeroBad h) }) s)
      else s
    | none, none => s
where
  zeroBad (f : Flit) : Flit := if f.bad then { f with data := 0, perr := 0, sub := true } else f
  takeBad (f : Flit) (pl : Plane) (s : State) : State := if f.bad then reportParity n ix pl (localPort pl) sl s else s

/-- The micro-op at a slot's program counter. -/
def uopAt (c : Cell) (sl : Nat) : Uop := (c.slot sl).prog.getD (c.slot sl).pc.toNat 0

/-- Does it read with a parity error, or with a reserved value (R46, R63)? -/
def uopBad (c : Cell) (sl : Nat) : Bool :=
  uopReserved (uopAt c sl) || (chkAt c (keyUop sl (c.slot sl).pc.toNat)).isSome

/-- What the slot's next micro-op does: a bad one does nothing, in the vector unit. -/
def nextUop (c : Cell) (sl : Nat) : Uop := if uopBad c sl then 0 else uopAt c sl

/-- Is the micro-op's unit free and are its interlocks clear (R61, R64, R69)? A micro-op that waits for its local outputs holds
the vector unit, and lets its own slot issue nothing (R25). -/
def unitFree (c : Cell) (sl : Nat) (u : Uop) : Bool :=
  (if u.op = opMma then c.bank.isEmpty && c.mac.isNone
   else c.outPend.isEmpty && (banksNamed u).all fun b => c.bank.all fun x => x.1 != b) &&
  (match c.mac with
   | some y => !conflicts sl u y
   | none => true) &&
  (c.outPend.isEmpty || (match c.vec with
   | some y => y.1 != sl && !conflicts sl u y
   | none => true))

/-- Could the slot's micro-op issue, its tokens and the other slots apart? -/
def couldIssue (s : State) (n : Rgn) (ix sl : Nat) (u : Uop) : Bool :=
  let c := s.cell n.val ix
  blockRuns s n (cellBlk ix) && (c.slot sl).loaded &&
  !(cellSlotState s n c sl == slotLoading || cellSlotState s n c sl == slotEmpty) &&
  ((c.slot sl).pc != 0 || tokenOperand u || c.active.val == sl) && unitFree c sl u

/-- Are the micro-op's tokens taken or at the cell's local outputs? -/
def tokensHere (c : Cell) (sl : Nat) (u : Uop) : Bool :=
  let x := c.slot sl
  let at' := fun (f : Option Flit) => match f with
    | some f => f.slot.val == sl
    | none => false
  decide (flitsA u + flitsB u ≤ x.vtok.length + bit (at' (c.out .vector 8))) &&
  (!needsScalar u || x.stok.isSome || at' (c.out .scalar 4))

/-- The slots that the unit serves before `sl`, from the one after the slot it served last (R64). -/
def slotsAhead (last sl : Nat) : List Nat := ((List.range 4).map fun k => (last + 1 + k) % 4).takeWhile fun k => k != sl

/-- The slot that the micro-op's unit served last. -/
def unitTurn (c : Cell) (u : Uop) : Nat := if u.op = opMma then c.turnMac.val else c.turnVec.val

/-- Is another slot ready for the same unit and ahead in its round? -/
def waitsTurn (s : State) (n : Rgn) (ix sl : Nat) (u : Uop) : Bool :=
  let c := s.cell n.val ix
  (slotsAhead (unitTurn c u) sl).any fun k =>
    ((nextUop c k).op == opMma) == (u.op == opMma) && couldIssue s n ix k (nextUop c k) && tokensHere c k (nextUop c k)

/-- May the slot's micro-op issue, its tokens apart? -/
def mayIssue (s : State) (n : Rgn) (ix sl : Nat) (u : Uop) : Bool := couldIssue s n ix sl u && !waitsTurn s n ix sl u

/-- The unit has issued the slot's micro-op: the slot was served last, and a vector micro-op's outputs are its own. -/
def issued (sl : Nat) (u : Uop) (c : Cell) : Cell :=
  if u.op = opMma then { c with turnMac := Fin.ofNat 4 sl }
  else { c with turnVec := Fin.ofNat 4 sl, vec := if c.outPend.isEmpty then none else some (sl, u) }

/-- The program counter after a micro-op (R64). -/
def nextPc (x : SlotSt) (u : Uop) : BitVec 6 := if u.fin ∨ x.pc = 63 then 0 else x.pc + 1

def advance (sl : Nat) (u : Uop) (c : Cell) : Cell :=
  { c with slots := Vec.modify c.slots sl fun x => { x with pc := nextPc x u, elem := 0, busy := false, vtok := [], stok := none } }

def seedOf (n : Rgn) (ix : Nat) : BitVec 32 := Config.lfsrSeed (9 * n.val + cellBlk ix) (cellPos ix)

def reportBad (n : Rgn) (ix sl : Nat) : List (Nat × Nat × Nat) → State → State
  | [], s => s
  | b :: bs, s => reportBad n ix sl bs (reportCell n ix b.1 b.2.1 b.2.2 sl s)

/-- Free values that one micro-op may use. -/
def freeSpan : Nat := 8192

/-- Run the micro-op `u` of a slot whose tokens are all present. -/
def fire (n : Rgn) (ix sl : Nat) (u : Uop) (f : Work → Work) (s : State) : State :=
  let c := (s.cell n.val ix).touch
  let x := c.slot sl
  let w := f { c := c, cell := 576 * n.val + ix, gone := retired s n.val ix, bad := [], fl := Flags.none, sl := sl, u := u, vtok := x.vtok, stok := x.stok,
               seed := seedOf n ix, free := s.free }
  let c1 := issued sl u <| advance sl u { w.c with flags := w.c.flags ||| w.fl.word, touched := w.c.touched ||| (1#4 <<< sl) }
  reportBad n ix sl w.bad (settle n ix c1 (stepped n s.now { s with free := s.free + freeSpan }))

/-- A micro-op of operation `op`: take its tokens as they come, and run once all are present. -/
def micro (n : Rgn) (ix sl op : Nat) (f : Work → Work) (s : State) : State :=
  let u := uopAt (s.cell n.val ix) sl
  if uopBad (s.cell n.val ix) sl ∨ u.op ≠ op ∨ ¬ mayIssue s n ix sl u then s
  else
    let nv := flitsA u + flitsB u
    let s1 := collect n ix sl nv (needsScalar u) (nv + 1) s
    let x := (s1.cell n.val ix).slot sl
    if x.vtok.length = nv ∧ (needsScalar u → x.stok.isSome) then fire n ix sl u f s1 else s1

end Sys2Proof.Machine
end

