-- ==== Sys2Proof/Machine/MicroOps.lean ====
section
/-!
DEFINITION. The operations of a cell (R62 to R85, Table 3.6): the MAC array and the vector unit.
-/

namespace Sys2Proof.Machine

/-! ### Element-wise operations (R71, R72, R83, R84) -/

/-- Elements of A and B of a micro-op. -/
def sourceA (k : Nat) (w : Work) : List Elem × Work :=
  sourceElems w.u.ak w.u.a k w.u.fmt (flitsOfA w (flitsB w.u)) w
def sourceB (k : Nat) (w : Work) : List Elem × Work :=
  sourceElems w.u.bk w.u.b k w.u.fmt (flitsOfB w (flitsA w.u)) w

/-- The old value of D as a source (FMA); an output has none. -/
def sourceD (k : Nat) (w : Work) : List Elem × Work :=
  if w.u.dk = 0 then sourceElems 0 w.u.d k w.u.fmt [] w
  else if w.u.dk = 1 then
    -- the read leaves the pointer where the write will start
    let r := sourceElems 1 w.u.d k w.u.fmt [] w
    (r.1, { r.2 with c := setPtr w.sl (w.u.d / 8) (w.ptr (w.u.d / 8)) r.2.c })
  else if w.u.dk = 3 ∧ w.u.d ≤ 1 then readAccs w.u.d (List.range k) w
  else ((List.range k).map fun e => ⟨(Config.freeWord (w.free + 4096 + e)).toNat % 2 ^ 32, true, false⟩, w)

def noElem : Elem := ⟨0, true, false⟩

/-- NaN among operand elements that are read and not masked (Table 3.10). -/
def nanFlag (fmt : Nat) (es : List Elem) : Flags := if es.any fun e => (e.val fmt).isNan then flagNan else Flags.none

/-- What an operation does to one element: floating values and integers. -/
structure Fn where
  f : FVal → FVal → FVal → FVal × Flags
  i : Int → Int → Int → Int

/-- One element: exact, then rounded to FP32, or saturated to INT32. -/
def applyFn (fmt : Nat) (g : Fn) (a b d : Elem) : Res × Flags :=
  if isInt fmt then
    let r := satInt 32 (g.i (a.int fmt) (b.int fmt) (d.int fmt))
    (.i r.1, if r.2 then flagOf else Flags.none)
  else
    let r := g.f (a.val fmt) (b.val fmt) (d.val fmt)
    let q := to32 r.1
    (.f q.1, r.2.or q.2)

/-- The result of an operation with flags `r` on the operands `es`: NaN operands set NANIN, substituted ones silence it. -/
def outOf (fmt : Nat) (es : List Elem) (r : Res × Flags) : Out :=
  let q := es.any Elem.sub
  let f := r.2.or (nanFlag fmt es)
  ⟨r.1, if q then f.quiet else f, q⟩

/-- Elements in ascending order; a masked one sets no flag. `h` gives the result of one element. -/
def eachElem (m : BitVec 32) (h : Nat → Out) : List Nat → Work → List (Option Out) × Work
  | [], w => ([], w)
  | e :: es, w =>
    if live? m e then
      let r := h e
      let q := eachElem m h es (w.flag r.fl)
      (some r :: q.1, q.2)
    else
      let q := eachElem m h es w
      (masked w :: q.1, q.2)

/-- An element-wise operation on A, and on B and D where it uses them. -/
def elementwise (useB useD : Bool) (g : Fn) (w : Work) : Work :=
  let u := w.u
  let k := u.cnt
  let m := governing w
  let a := sourceA k m.2
  let b := if useB then sourceB (bcastCount u.bcast k) a.2 else ([], a.2)
  let d := if useD then sourceD k b.2 else ([], b.2)
  let h := fun (e : Nat) =>
    let x := a.1.getD e noElem
    let y := b.1.getD (bcastIx u.bcast e) noElem
    let z := d.1.getD e noElem
    outOf u.fmt ([x] ++ (if useB then [y] else []) ++ (if useD then [z] else [])) (applyFn u.fmt g x y z)
  let r := eachElem m.1 h (List.range k) d.2
  writeBack u.fmt r.1 r.2

def nanOr (a b : FVal) (f : FVal → FVal → FVal) : FVal × Flags := (if a.isNan || b.isNan then .nan else f a b, Flags.none)

def doAdd : Work → Work := elementwise true false ⟨fun a b _ => fadd a b, fun a b _ => a + b⟩
def doSub : Work → Work := elementwise true false ⟨fun a b _ => fadd a (fneg b), fun a b _ => a - b⟩
def doMul : Work → Work := elementwise true false ⟨fun a b _ => fmul a b, fun a b _ => a * b⟩
def doFma : Work → Work := elementwise true true
  ⟨fun a b d => (let p := fmul a b; let r := fadd p.1 d; (r.1, p.2.or r.2)), fun a b d => a * b + d⟩
def doMax : Work → Work := elementwise true false ⟨fun a b _ => nanOr a b fmax, fun a b _ => max a b⟩
def doMin : Work → Work := elementwise true false ⟨fun a b _ => nanOr a b fmin, fun a b _ => min a b⟩
def doNeg : Work → Work := elementwise false false ⟨fun a _ _ => (fneg a, Flags.none), fun a _ _ => -a⟩
def doAbs : Work → Work := elementwise false false ⟨fun a _ _ => (fabs a, Flags.none), fun a _ _ => a.natAbs⟩

/-! ### MOV, SEL, CMP -/

def doMov (w : Work) : Work :=
  let u := w.u
  let m := governing w
  let a := sourceA u.cnt m.2
  let r := eachElem m.1 (fun e => outOf u.fmt [a.1.getD e noElem] (.raw (a.1.getD e noElem), Flags.none)) (List.range u.cnt) a.2
  writeBack u.fmt r.1 r.2

/-- MSK selects; MEN is ignored. -/
def doSel (w : Work) : Work :=
  let u := w.u
  let m := readMask u.msk w
  let a := sourceA u.cnt m.2
  let b := sourceB (bcastCount u.bcast u.cnt) a.2
  let pick := fun (e : Nat) => if live? m.1 e then a.1.getD e noElem else b.1.getD (bcastIx u.bcast e) noElem
  let r := eachElem 0xFFFFFFFF (fun e => outOf u.fmt [a.1.getD e noElem, b.1.getD (bcastIx u.bcast e) noElem] (.raw (pick e), Flags.none))
    (List.range u.cnt) b.2
  writeBack u.fmt r.1 r.2

/-- The comparison (R72). -/
def compares (op : Nat) (a b : FVal) : Bool :=
  let un := a.isNan || b.isNan
  if op = 0 then feq a b else if op = 1 then un || !feq a b else if op = 2 then flt a b
  else if op = 3 then !un && !flt b a else if op = 4 then flt b a else if op = 5 then !un && !flt a b else un

def doCmp (w : Work) : Work :=
  let u := w.u
  let m := governing w
  let a := sourceA u.cnt m.2
  let b := sourceB (bcastCount u.bcast u.cnt) a.2
  let one := fun (e : Nat) =>
    let x := a.1.getD e noElem
    let y := b.1.getD (bcastIx u.bcast e) noElem
    outOf u.fmt [x, y] (.bits (bit (compares u.mode (x.val u.fmt) (y.val u.fmt))), Flags.none)
  let r := eachElem m.1 one (List.range u.cnt) b.2
  let isMask := u.dk == 3 && decide (8 ≤ u.d)
  -- a destination that is no mask register is given no meaning: its elements are open
  let codes := r.1.map fun x => x.map fun o => match o.r with
    | .bits v => if isMask then v else (w.openAt 257 [u.fmt, u.dk, v]).toNat
    | _ => 0
  writeCodes u.dk u.d (if u.dk = 3 then 0 else u.fmt) true codes r.2

/-! ### Conversions (R77 to R81) -/

/-- Scale byte of element `e` of an MMA-order panel in scale words (R67, R81). -/
def scaleByte (words : List (Rd 128)) (e : Nat) : Nat :=
  let blk := e / 8 / 32
  ((words.getD (blk / 2) ⟨0, false⟩).v.toNat / 2 ^ (8 * (8 * (blk % 2) + e % 8))) % 256
def scaleSub (words : List (Rd 128)) (e : Nat) : Bool := (words.getD (e / 8 / 32 / 2) ⟨0, false⟩).sub

/-- Is the source of a CVT held in FP32, so that RND applies (R77)? -/
def source32 (u : Uop) : Bool := !isInt u.fmt && (u.ak == 3 || u.fmt == 0)

/-- A value to an MX element of format `f`, which saturates to the greatest finite magnitude of its sign (R81). A NaN has no code
in FP6, FP4 and MXINT8: `open'` stands in its place. -/
def toMx (f : Nat) (rnd : Option Nat) (open' : Nat) (v : FVal) : Nat × Flags :=
  match f, v with
  | 12, .fin n m e =>
    let r := (roundAt rnd m e (-6)).1
    let k : Int := min r 127
    (intBits 8 (if n then -k else k), if 127 < r then flagSat else Flags.none)
  | 12, .inf n => (intBits 8 (if n then -127 else 127), flagSat)
  | f, .nan => if f = 7 ∨ f = 8 then (canonicalNan f, Flags.none) else (open' % 2 ^ elemBits f, Flags.none)
  | f, v => toFloatFmt f false true rnd v

/-- One element converted, and the fresh bits it takes. -/
def cvtElem (scales : List (Rd 128)) (e : Nat) (x : Elem) (w : Work) : Nat × Work :=
  let u := w.u
  let f := u.aux % 16
  let v := x.val u.fmt
  let stoch := u.rnd && source32 u && f != 0 && f != 5 && f != 6
  let w := w.flag (if v.isNan then flagNan else Flags.none)
  if f = 0 then
    let r := toFp32 u.sat v
    (r.1, w.flag r.2)
  else if f = 5 ∨ f = 6 then
    let r := toIntFmt (if f = 5 then 8 else 32) v
    (r.1, w.flag r.2)
  else
    let d := if stoch then draw w else (0, w)
    let rnd := if stoch then some d.1 else none
    if isMx f then
      let sc := scaleByte scales e
      if sc = 255 then (0, d.2)
      else
        let r := toMx f rnd (w.openAt 258 [f, sc, u.fmt, x.raw]).toNat (fscale v (127 - sc))
        (r.1, d.2.flag r.2)
    else
      let r := toFloatFmt f u.sat false rnd v
      (r.1, d.2.flag r.2)

/-- A converted code as D holds it: FP32 or INT32 in an accumulator or a scalar token. -/
def cvtWide (u : Uop) (code : Nat) : Nat :=
  let f := u.aux % 16
  if u.dk ≠ 3 ∨ f = 0 ∨ f = 6 then code
  else if f = 5 then intBits 32 (BitVec.ofNat 8 code).toInt
  else (to32 (decodeElem f code)).1.toNat

def cvtAll (m : BitVec 32) (scales : List (Rd 128)) (a : List Elem) : List Nat → Work → List (Option Nat) × Work
  | [], w => ([], w)
  | e :: es, w =>
    if live? m e then
      let r := cvtElem scales e (a.getD e noElem) w
      let quiet := (a.getD e noElem).sub || (isMx (w.u.aux % 16) && scaleSub scales e)
      let q := cvtAll m scales a es (if quiet then { r.2 with fl := w.fl.or r.2.fl.quiet } else r.2)
      (some (cvtWide w.u r.1) :: q.1, q.2)
    else
      let q := cvtAll m scales a es w
      ((if w.u.mz then some 0 else none) :: q.1, q.2)

def doCvt (w : Work) : Work :=
  let u := w.u
  let m := governing w
  let a := sourceA u.cnt m.2
  let sc := if isMx (u.aux % 16) then sourceWords u.bk u.b (scaleWords u.cnt) 7 (flitsOfB a.2 (flitsA u)) a.2 else ([], a.2)
  let r := cvtAll m.1 sc.1 a.1 (List.range u.cnt) sc.2
  writeCodes u.dk u.d (if u.dk = 3 then 0 else u.aux % 16) false r.1 r.2

/-- emax of the target formats (R81). -/
def mxEmax (f : Nat) : Int := if f = 7 then 8 else if f = 8 then 15 else if f = 9 then 2 else if f = 10 then 4 else if f = 11 then 2 else 0

/-- The scale of a block (R81). DEDUCED: the logarithm of an infinite magnitude is beyond every clamp, so such a block has the
greatest scale, 254 (log entry 134). -/
def blockScale (f : Nat) (vs : List FVal) : Nat :=
  if vs.any FVal.isNan then 255
  else
    let m := vs.foldl (fun a v => fmax a (fabs v)) FVal.zero
    match m with
    | .inf _ => 254
    | .fin _ 0 _ => 0
    | .fin _ k e => (max (-127) (min 127 ((k.log2 : Int) + e - mxEmax f)) + 127).toNat
    | .nan => 255

/-- Values of the elements that take part, with their places. -/
def included (m : BitVec 32) (fmt : Nat) (a : List Elem) : List (FVal × Nat) :=
  ((a.map (Elem.val fmt)).zipIdx).filter fun p => live? m p.2

def takenNan (vs : List (FVal × Nat)) : Flags := if vs.any fun p => p.1.isNan then flagNan else Flags.none

/-- MXSCALE; a masked element sets no flag and is left out of its block (log entry 29). -/
def doMxscale (w : Work) : Work :=
  let u := w.u
  let m := governing w
  let a := sourceA u.cnt m.2
  let vs := included m.1 u.fmt a.1
  let blocks := ceilDiv u.cnt 256
  -- byte j holds row j mod 8 of block j div 8
  let codes := (List.range (8 * blocks)).map fun j =>
    some (blockScale (u.aux % 16) ((vs.filter fun p => p.2 % 8 == j % 8 && p.2 / 256 == j / 8).map Prod.fst))
  writeCodes u.dk u.d (if u.dk = 3 then 0 else 7) false codes (a.2.flag (takenNan vs))

/-! ### SETP, SEED, FLAGS -/

/-- Lane 0 of A as 32 bits. -/
def lane0 (w : Work) : Nat × Work :=
  if w.u.ak = 3 then
    let r := sourceA 1 w
    ((r.1.getD 0 noElem).raw, r.2)
  else
    let r := sourceWords w.u.ak w.u.a 1 0 (flitsOfA w 0) w
    ((r.1.getD 0 ⟨0, false⟩).v.toNat % 2 ^ 32, r.2)

def doSetp (w : Work) : Work :=
  let v := lane0 w
  { v.2 with c := setPtr w.sl (w.u.d % 8) ⟨BitVec.ofNat 13 v.1, BitVec.ofNat 13 v.1, BitVec.ofNat 13 (v.1 / 2 ^ 16)⟩ v.2.c }

def doSeed (w : Work) : Work :=
  let v := lane0 w
  { v.2 with c := { v.2.c with lfsr := some (if v.1 = 0 then 1 else BitVec.ofNat 32 v.1) } }

def doFlags (w : Work) : Work :=
  let w1 := sendScalar w.c.flags.toNat w
  if w.u.aux.testBit 0 then { w1 with c := { w1.c with flags := 0 } } else w1

/-! ### Table functions (R82) -/

/-- A function of FP32 values; of integers the spec states no result. -/
def tableFn (g : Open → BitVec 32 → BitVec 32 × Flags) (code : Nat) (w : Work) : Work :=
  let u := w.u
  let m := governing w
  let a := sourceA u.cnt m.2
  let one := fun (e : Nat) =>
    let x := a.1.getD e noElem
    if isInt u.fmt then outOf u.fmt [x] (.i (w.openAt (code + 128) [u.fmt, x.raw]).toInt, Flags.none)
    else
      let v := (to32 (x.val u.fmt)).1
      let r := g ⟨w.cell, code, [v.toNat]⟩ v
      outOf u.fmt [x] (.t r.1, r.2)
  let r := eachElem m.1 one (List.range u.cnt) a.2
  writeBack u.fmt r.1 r.2

def doExp2 : Work → Work := tableFn fnExp2 opExp2
def doLog2 : Work → Work := tableFn fnLog2 opLog2
def doRcp : Work → Work := tableFn fnRcp opRcp
def doRsqrt : Work → Work := tableFn fnRsqrt opRsqrt
def doSilu : Work → Work := tableFn fnSilu opSilu
def doGelu : Work → Work := tableFn fnGelu opGelu

def doSubexp (w : Work) : Work :=
  let u := w.u
  let m := governing w
  let a := sourceA u.cnt m.2
  let b := sourceB (bcastCount u.bcast u.cnt) a.2
  let one := fun (e : Nat) =>
    let x := a.1.getD e noElem
    let y := b.1.getD (bcastIx u.bcast e) noElem
    if isInt u.fmt then outOf u.fmt [x, y] (.i (w.openAt (opSubexp + 128) [u.fmt, x.raw, y.raw]).toInt, Flags.none)
    else
      let key := [(to32 (x.val u.fmt)).1.toNat, (to32 (y.val u.fmt)).1.toNat]
      let r := fnSubexp ⟨w.cell, opSubexp, key⟩ (x.val u.fmt) (y.val u.fmt)
      outOf u.fmt [x, y] (.t r.1, r.2)
  let r := eachElem m.1 one (List.range u.cnt) b.2
  writeBack u.fmt r.1 r.2

/-! ### Reductions (R72, R74) -/

/-- FP32 sum in order, rounded after each addition. -/
def sum32 : List FVal → FVal × Flags
  | [] => (FVal.zero, Flags.none)
  | v :: vs => vs.foldl (fun (a : FVal × Flags) x =>
      let r := fadd a.1 x
      let q := to32 r.1
      (of32 q.1, (a.2.or r.2).or q.2)) (v, Flags.none)

/-- Maximum or minimum, NaN elements ignored unless all are NaN; `open'` where there is no element. -/
def extreme (f : FVal → FVal → FVal) (open' : BitVec 32) (vs : List FVal) : FVal :=
  match vs.filter fun v => !v.isNan with
  | x :: xs => xs.foldl f x
  | [] => if vs.isEmpty then of32 open' else .nan

/-- A reduction: 0 sum, 1 max, 2 min. -/
def reduce (mode : Nat) (open' : BitVec 32) (vs : List FVal) : BitVec 32 × Flags :=
  if mode = 0 then
    let r := sum32 vs
    let q := to32 r.1
    (q.1, r.2.or q.2)
  else ((to32 (extreme (if mode = 1 then fmax else fmin) open' vs)).1, Flags.none)

/-- `groups` results, each the reduction of the elements that `pick` gives it. -/
def reduceGroups (groups : Nat) (pick : Nat → Nat → Bool) (w : Work) : Work :=
  let u := w.u
  let m := governing w
  let a := sourceA u.cnt m.2
  let vs := included m.1 u.fmt a.1
  let rs := (List.range groups).map fun g => reduce u.mode (w.openAt 259 [u.op, u.mode]) ((vs.filter fun p => pick g p.2).map Prod.fst)
  let w1 := rs.foldl (fun w r => w.flag r.2) (a.2.flag (takenNan vs))
  writeBack u.fmt (rs.map fun r => some ⟨.f r.1, Flags.none, false⟩) w1

def doRedRow (w : Work) : Work := reduceGroups (w.u.cnt / 8) (fun g e => e / 8 == g) w
def doRedCol (w : Work) : Work := reduceGroups 8 (fun j e => e % 8 == j) w

/-- Index of the largest element, the lowest among equals, NaN ignored. -/
def argmax : List (FVal × Nat) → Option (FVal × Nat)
  | [] => none
  | p :: ps =>
    match argmax ps with
    | none => if p.1.isNan then none else some p
    | some q => if p.1.isNan then some q else if flt p.1 q.1 then some q else some p

/-- SUMMARY. DEDUCED: a NaN element counts as non-zero, for count non-zero and any non-zero (log entry 135). -/
def doSummary (w : Work) : Work :=
  let u := w.u
  let m := governing w
  let a := sourceA u.cnt m.2
  let vs := included m.1 u.fmt a.1
  let nz := (vs.filter fun p => !p.1.isZero).length
  let r : BitVec 32 × Flags :=
    if u.mode ≤ 2 then reduce u.mode (w.openAt 259 [u.op, u.mode]) (vs.map Prod.fst)
    else if u.mode = 3 then (match argmax vs with
      | some p => (BitVec.ofNat 32 p.2, Flags.none)
      | none => (0xFFFFFFFF, Flags.none))
    else if u.mode = 4 then (BitVec.ofNat 32 nz, Flags.none)
    else (if nz = 0 then 0 else 1, Flags.none)
  sendScalar r.1.toNat (a.2.flag (r.2.or (takenNan vs)))

/-! ### Normalisation (R75) -/

/-- NSTAT. DEDUCED: the statistics set is four FP32 words whatever format FMT names, since its sums and its count are FP32 and
sets merge by ADD (log entry 136). -/
def doNstat (w : Work) : Work :=
  let u := w.u
  let m := governing w
  let a := sourceA u.cnt m.2
  let vs := included m.1 u.fmt a.1
  let rms := u.aux.testBit 5
  let sq := vs.map fun p => (let r := fmul p.1 p.1; let q := to32 r.1; (of32 q.1, r.2.or q.2))
  let s := if rms then (0, Flags.none) else reduce 0 0 (vs.map Prod.fst)
  let t := reduce 0 0 (sq.map Prod.fst)
  let n := (to32 (.fin false vs.length 0)).1
  let w1 := (sq.foldl (fun w r => w.flag r.2) a.2).flag ((s.2.or t.2).or (takenNan vs))
  let out := fun (v : BitVec 32) => some (⟨.f v, Flags.none, false⟩ : Out)
  writeBack 0 [out s.1, out t.1, out n, out 0] w1

/-- One set: mean and reciprocal deviation. DEDUCED: a set with a NaN lane is NaN throughout by R84, also for RMS, and before a
count of 0 is looked at (log entry 137). -/
def finishSet (w : Work) (sum sumsq n : FVal) : (BitVec 32 × BitVec 32) × Flags :=
  let rms := w.u.aux.testBit 5
  if sum.isNan || sumsq.isNan || n.isNan then ((nan32, nan32), flagNan)
  else if n.isZero then ((0, inf32 false), flagDz)
  else
    let mean := if rms then (0, Flags.none) else fdivAll sum n
    let key := [(to32 sum).1.toNat, (to32 sumsq).1.toNat, (to32 n).1.toNat, w.u.aux % 64]
    let r := recipDev ⟨w.cell, opNfin, key⟩ rms (w.u.aux % 32) sum sumsq n
    ((mean.1, r.1), mean.2.or r.2)

def doNfin (w : Work) : Work :=
  let u := w.u
  let m := governing w
  let a := sourceA (4 * u.cnt) m.2
  let at' := fun (k : Nat) => a.1.getD k noElem
  let sets := (List.range u.cnt).map fun i =>
    if live? m.1 i then
      let es := [at' (4 * i), at' (4 * i + 1), at' (4 * i + 2)]
      let r := finishSet w ((at' (4 * i)).val u.fmt) ((at' (4 * i + 1)).val u.fmt) ((at' (4 * i + 2)).val u.fmt)
      [some (outOf u.fmt es (.f r.1.1, r.2)), some { outOf u.fmt es (.t r.1.2, r.2) with fl := Flags.none }]
    else [masked w, masked w]
  let flags := fun (w : Work) (o : Option Out) => (o.map fun x => w.flag x.fl).getD w
  writeBack u.fmt sets.flatten (sets.flatten.foldl flags a.2)

/-! ### The MAC array (R65 to R69) -/

/-- Depth of a step (Table 3.7). -/
def macDepth (fmt : Nat) : Nat := if slotBits fmt = 4 then 4 else if fmt = 9 ∨ fmt = 10 then 2 else 1

/-- The value of k-value `t` of field `i` of a k-group word. -/
def kValue (fmt : Nat) (v : BitVec 128) (i t : Nat) : Nat :=
  let b := 16 / perField fmt
  v.toNat / 2 ^ (16 * i + b * t) % 2 ^ b

/-- Element `k` of row or column `i` of a stream of k-groups. -/
def panelAt (fmt : Nat) (ws : List (BitVec 128)) (i k : Nat) : Nat :=
  kValue fmt (ws.getD (k / perField fmt) 0) i (k % perField fmt)

/-- Scale byte of row or column `i` in the block of `k`. -/
def macScale (regs : List (BitVec 128)) (col : Bool) (i k : Nat) : Nat :=
  let m := k / 32
  (regs.getD (2 * (m / 2) + bit col) 0).toNat / 2 ^ (8 * (8 * (m % 2) + i)) % 256

/-- One product with its scales. -/
def product (fmt : Nat) (regs : List (BitVec 128)) (aw bw : List (BitVec 128)) (i j k : Nat) : FVal × Flags :=
  let a := decodeElem fmt (panelAt fmt aw i k)
  let b := decodeElem fmt (panelAt fmt bw j k)
  if isMx fmt then
    let sa := macScale regs false i k
    let sb := macScale regs true j k
    if sa = 255 ∨ sb = 255 then (.nan, flagNan)
    else
      let p := fmul a b
      (fscale p.1 ((sa : Int) + sb - 254), p.2.or (if a.isNan || b.isNan then flagNan else Flags.none))
  else
    let p := fmul a b
    (p.1, p.2.or (if a.isNan || b.isNan then flagNan else Flags.none))

/-- The steps of one entry in FP32: exact sums of `d` products and the previous value, rounded once (R68). -/
def macSteps (prod : Nat → FVal × Flags) (d cnt : Nat) : Nat → Nat → BitVec 32 × Flags → BitVec 32 × Flags
  | 0, _, acc => acc
  | n + 1, k, acc =>
    let ps := ((List.range d).filter fun t => decide (k + t < cnt)).map fun t => prod (k + t)
    let s := ps.foldl (fun (a : FVal × Flags) p => (let r := fadd a.1 p.1; (r.1, (a.2.or p.2).or r.2))) (of32 acc.1, Flags.none)
    let q := to32 s.1
    macSteps prod d cnt n (k + d) (q.1, (acc.2.or s.2).or q.2)

/-- The INT8 sum of one entry in INT32 (R68). -/
def macInt (aw bw : List (BitVec 128)) (i j cnt : Nat) (acc : BitVec 32) : BitVec 32 × Flags :=
  let r := (List.range cnt).foldl (fun (a : Int × Bool) k =>
    let p := (BitVec.ofNat 8 (panelAt 5 aw i k)).toInt * (BitVec.ofNat 8 (panelAt 5 bw j k)).toInt
    let q := satInt 32 (a.1 + p)
    (q.1, a.2 || q.2)) (acc.toInt, false)
  (BitVec.ofInt 32 r.1, if r.2 then flagOf else Flags.none)

/-- The 64 entries of the bank. With a substituted operand an entry sets no arithmetic flag (R85). -/
def macEntries (aw bw regs : List (BitVec 128)) (quiet : Bool) : List Nat → Work → Work
  | [], w => w
  | e :: es, w =>
    let u := w.u
    let old := if u.acz then (⟨0, false⟩, w) else readAcc u.acb e w
    let i := e / 8
    let j := e % 8
    let v := old.1.v
    let r :=
      if u.fmt = 5 then macInt aw bw i j u.cnt v
      else if u.fmt = 0 ∨ u.fmt = 6 then
        (w.openAt 260 ([u.fmt, e, v.toNat] ++ aw.map BitVec.toNat ++ bw.map BitVec.toNat), Flags.none)
      else macSteps (product u.fmt regs aw bw i j) (macDepth u.fmt) u.cnt (ceilDiv u.cnt (macDepth u.fmt)) 0 (v, Flags.none)
    let f := r.2.or (nanAcc u.fmt v)
    macEntries aw bw regs quiet es (({ old.2 with c := putAcc u.acb e r.1 old.2.c }).flag (if quiet || old.1.sub then f.quiet else f))
where
  nanAcc (fmt : Nat) (v : BitVec 32) : Flags := if fmt ≠ 5 ∧ (of32 v).isNan then flagNan else Flags.none

/-- MMA: the sums are formed at issue; the bank is held until MMA_COMPLETE. -/
def doMma (w : Work) : Work :=
  let u := w.u
  let a := sourceWords u.ak u.a (wordsA u) u.fmt (flitsOfA w (flitsB u)) w
  let b := sourceWords u.bk u.b (wordsB u) u.fmt (flitsOfB w (flitsA u)) a.2
  let r := if isMx u.fmt then readAll readReg128 (scaleRegs u) b.2 else ([], b.2)
  let one := oneWord u.fmt
  let pick := fun (k f : Nat) (ws : List (Rd 128)) => ws.map fun x => if k = 3 ∧ f = 4 then one else x.v
  let quiet := (a.1 ++ b.1 ++ r.1).any Rd.sub
  let w1 := macEntries (pick u.ak u.a a.1) (pick u.bk u.b b.1) (r.1.map Rd.v) quiet (List.range 64) r.2
  { w1 with c := { w1.c with bank := (u.acb, w.sl) :: w1.c.bank, mac := some (w.sl, u) } }
where
  /-- A k-group of ones. -/
  oneWord (fmt : Nat) : BitVec 128 :=
    let code := if fmt = 5 then 1 else if fmt = 12 then 64 else (toFloatFmt fmt false false none FVal.one).1
    BitVec.ofNat 128 ((List.range (8 * perField fmt)).foldl (fun v t => v + code * 2 ^ (16 / perField fmt * t)) 0)

/-! ### The commands -/

def execNopMicroOp (n : Rgn) (c : CellIx) (sl : Slot) (s : State) : Host.Outcome State Fault Refusal :=
  live s (micro n c.val sl.val opNop id)
def execMma (n : Rgn) (c : CellIx) (sl : Slot) (s : State) : Host.Outcome State Fault Refusal :=
  live s (micro n c.val sl.val opMma doMma)
def execMov (n : Rgn) (c : CellIx) (sl : Slot) (s : State) : Host.Outcome State Fault Refusal :=
  live s (micro n c.val sl.val opMov doMov)
def execCvt (n : Rgn) (c : CellIx) (sl : Slot) (s : State) : Host.Outcome State Fault Refusal :=
  live s (micro n c.val sl.val opCvt doCvt)
def execMxscale (n : Rgn) (c : CellIx) (sl : Slot) (s : State) : Host.Outcome State Fault Refusal :=
  live s (micro n c.val sl.val opMxscale doMxscale)
def execSetp (n : Rgn) (c : CellIx) (sl : Slot) (s : State) : Host.Outcome State Fault Refusal :=
  live s (micro n c.val sl.val opSetp doSetp)
def execSeed (n : Rgn) (c : CellIx) (sl : Slot) (s : State) : Host.Outcome State Fault Refusal :=
  live s (micro n c.val sl.val opSeed doSeed)
def execFlags (n : Rgn) (c : CellIx) (sl : Slot) (s : State) : Host.Outcome State Fault Refusal :=
  live s (micro n c.val sl.val opFlags doFlags)
def execAdd (n : Rgn) (c : CellIx) (sl : Slot) (s : State) : Host.Outcome State Fault Refusal :=
  live s (micro n c.val sl.val opAdd doAdd)
def execSub (n : Rgn) (c : CellIx) (sl : Slot) (s : State) : Host.Outcome State Fault Refusal :=
  live s (micro n c.val sl.val opSub doSub)
def execMul (n : Rgn) (c : CellIx) (sl : Slot) (s : State) : Host.Outcome State Fault Refusal :=
  live s (micro n c.val sl.val opMul doMul)
def execFma (n : Rgn) (c : CellIx) (sl : Slot) (s : State) : Host.Outcome State Fault Refusal :=
  live s (micro n c.val sl.val opFma doFma)
def execMax (n : Rgn) (c : CellIx) (sl : Slot) (s : State) : Host.Outcome State Fault Refusal :=
  live s (micro n c.val sl.val opMax doMax)
def execMin (n : Rgn) (c : CellIx) (sl : Slot) (s : State) : Host.Outcome State Fault Refusal :=
  live s (micro n c.val sl.val opMin doMin)
def execNeg (n : Rgn) (c : CellIx) (sl : Slot) (s : State) : Host.Outcome State Fault Refusal :=
  live s (micro n c.val sl.val opNeg doNeg)
def execAbs (n : Rgn) (c : CellIx) (sl : Slot) (s : State) : Host.Outcome State Fault Refusal :=
  live s (micro n c.val sl.val opAbs doAbs)
def execCmp (n : Rgn) (c : CellIx) (sl : Slot) (s : State) : Host.Outcome State Fault Refusal :=
  live s (micro n c.val sl.val opCmp doCmp)
def execSel (n : Rgn) (c : CellIx) (sl : Slot) (s : State) : Host.Outcome State Fault Refusal :=
  live s (micro n c.val sl.val opSel doSel)
def execExp2 (n : Rgn) (c : CellIx) (sl : Slot) (s : State) : Host.Outcome State Fault Refusal :=
  live s (micro n c.val sl.val opExp2 doExp2)
def execLog2 (n : Rgn) (c : CellIx) (sl : Slot) (s : State) : Host.Outcome State Fault Refusal :=
  live s (micro n c.val sl.val opLog2 doLog2)
def execRcp (n : Rgn) (c : CellIx) (sl : Slot) (s : State) : Host.Outcome State Fault Refusal :=
  live s (micro n c.val sl.val opRcp doRcp)
def execRsqrt (n : Rgn) (c : CellIx) (sl : Slot) (s : State) : Host.Outcome State Fault Refusal :=
  live s (micro n c.val sl.val opRsqrt doRsqrt)
def execSilu (n : Rgn) (c : CellIx) (sl : Slot) (s : State) : Host.Outcome State Fault Refusal :=
  live s (micro n c.val sl.val opSilu doSilu)
def execGelu (n : Rgn) (c : CellIx) (sl : Slot) (s : State) : Host.Outcome State Fault Refusal :=
  live s (micro n c.val sl.val opGelu doGelu)
def execSubexp (n : Rgn) (c : CellIx) (sl : Slot) (s : State) : Host.Outcome State Fault Refusal :=
  live s (micro n c.val sl.val opSubexp doSubexp)
def execRedRow (n : Rgn) (c : CellIx) (sl : Slot) (s : State) : Host.Outcome State Fault Refusal :=
  live s (micro n c.val sl.val opRedRow doRedRow)
def execRedCol (n : Rgn) (c : CellIx) (sl : Slot) (s : State) : Host.Outcome State Fault Refusal :=
  live s (micro n c.val sl.val opRedCol doRedCol)
def execNstat (n : Rgn) (c : CellIx) (sl : Slot) (s : State) : Host.Outcome State Fault Refusal :=
  live s (micro n c.val sl.val opNstat doNstat)
def execNfin (n : Rgn) (c : CellIx) (sl : Slot) (s : State) : Host.Outcome State Fault Refusal :=
  live s (micro n c.val sl.val opNfin doNfin)
def execSummary (n : Rgn) (c : CellIx) (sl : Slot) (s : State) : Host.Outcome State Fault Refusal :=
  live s (micro n c.val sl.val opSummary doSummary)

/-- MMA_COMPLETE (R69): the last sum is written and the bank is free. -/
def mmaDone (n : Rgn) (ix sl : Nat) (s : State) : State :=
  let c := s.cell n.val ix
  if blockRuns s n (cellBlk ix) ∧ c.bank.any fun b => b.2 == sl then
    let mac := if (c.mac.map Prod.fst) = some sl then none else c.mac
    stepped n s.now (s.setCell n.val ix { c.touch with bank := c.bank.filter (fun b => b.2 != sl), mac := mac })
  else s

def execMmaComplete (n : Rgn) (c : CellIx) (sl : Slot) (s : State) : Host.Outcome State Fault Refusal :=
  live s (mmaDone n c.val sl.val)

/-- RESERVED_MICRO_OP (R46, R63): zero is taken in place of the micro-op, which does nothing, the poison flag is set and the
cell source raised. -/
def reservedUop (n : Rgn) (ix sl : Nat) (s : State) : State :=
  let c := s.cell n.val ix
  if uopBad c sl ∧ mayIssue s n ix sl 0 then
    let pc := (c.slot sl).pc.toNat
    reportCell n ix 4 0 pc sl (settle n ix (issued sl 0 <| advance sl 0 { c.touch with touched := c.touch.touched ||| (1#4 <<< sl) }) (stepped n s.now s))
  else s

def execReservedMicroOp (n : Rgn) (c : CellIx) (sl : Slot) (s : State) : Host.Outcome State Fault Refusal :=
  live s (reservedUop n c.val sl.val)

end Sys2Proof.Machine
end

