-- ==== Sys2Proof/Machine/Array.lean ====
section
/-!
DEFINITION. Monitors, defects and scan of the array (R33, R44, R47 to R53, R121 to R124).
-/

namespace Sys2Proof.Machine

/-! ### RATE_WINDOW (R33) -/

def rateWindow (n : Rgn) (steps : BitVec 32) (s : State) : State :=
  if s.domOn (rgnDom n) then
    (s.setFld (Reg.RGN_RATE n) Reg.RGN_RATE_STEPS steps.toNat).setFld (Reg.RGN_RATE n) Reg.RGN_RATE_WINDOWS
      (s.fld (Reg.RGN_RATE n) Reg.RGN_RATE_WINDOWS + 1)
  else s

def execRateWindow (n : Rgn) (steps : BitVec 32) (s : State) : Host.Outcome State Fault Refusal := live s (rateWindow n steps)

/-! ### STALL (R44) -/

/-- Has the region had an active command and no step for RGN_STALL_LIMIT ticks, with none of its blocks frozen and no hold in force (R389)? -/
def stalls (s : State) (n : Rgn) : Bool :=
  let lim := s.fld (Reg.RGN_STALL_LIMIT n) Reg.RGN_STALL_LIMIT_LIMIT
  (s.rgn n).plan.isSome && lim != 0 && (s.rgn n).frozen == 0 && !waitProgress s n && !(s.rgn n).stalled && s.pwr.holdFrom.isNone &&
  decide (max (s.rgn n).stepAt (waitCredit s n) + lim ≤ s.now)

def stall (n : Rgn) (s : State) : State :=
  if stalls s n then
    raise (rgnSrc n.val 27) ⟨(s.rgn n).plan, 0, BitVec.ofNat 128 (s.reg (Reg.SEQ_STATUS n)).toNat⟩
      (s.modRgn n fun r => { r with stalled := true })
  else s

def execStall (n : Rgn) (s : State) : Host.Outcome State Fault Refusal := live s (stall n)

/-! ### Defects (R47 to R52) -/

/-- RGN_DEFECT_DATA of a cell (Table 2.12); the fields the map gives are valid from stage 3. -/
def defectData (s : State) (n : Rgn) (ix : Nat) : Word :=
  let c := s.cell n.val ix
  let g := retired s n.val ix
  let own := (BitVec.ofNat 64 (bit c.poison) <<< 23) ||| (BitVec.ofNat 64 c.ce <<< 24)
  if s.stage n < 3 then own
  else own ||| BitVec.ofNat 64 (96 - g.length) ||| (BitVec.ofNat 64 (bit (!c.field.isEmpty)) <<< 7) |||
    (BitVec.ofNat 64 (g.getD 0 0x7F) <<< 8) ||| (BitVec.ofNat 64 (g.getD 1 0x7F) <<< 16)

/-- The cell that RGN_DEFECT_SEL names. -/
def defectSel (s : State) (n : Rgn) : Option Nat :=
  let a := Reg.RGN_DEFECT_SEL n
  let b := s.fld a Reg.RGN_DEFECT_SEL_BLOCK
  if 9 ≤ b then none else some (64 * b + 8 * s.fld a Reg.RGN_DEFECT_SEL_Y + s.fld a Reg.RGN_DEFECT_SEL_X)

/-- A granule of a cell with a word that was uncorrectable, or was corrected twice. -/
def wornGranule (c : Cell) (g : Nat) : Bool := c.errs.any fun e => e.1 / 64 == g && decide (2 ≤ e.2)

/-- GRANULE_RETIRE (R48): at once, and for good. -/
def granuleRetire (n : Rgn) (ix g : Nat) (s : State) : State :=
  let c := s.cell n.val ix
  if wornGranule c g ∧ ¬ (retired s n.val ix).contains g then
    let s1 := s.setCell n.val ix { c with field := c.field ++ [g] }
    settleVersions n
      (raise (rgnSrc n.val 38) ⟨none, hereGta s n 0 (ix * 98304 + 1024 * g), BitVec.ofNat 128 (defectData s1 n ix).toNat⟩ s1)
  else s

def execGranuleRetire (n : Rgn) (c : CellIx) (g : Fin 96) (s : State) : Host.Outcome State Fault Refusal :=
  live s (granuleRetire n c.val g.val)

/-- What a block loses when its domain is off (R384); the defect list and the counts of corrected errors lie outside it. -/
def offCell (c : Cell) : Cell := { Cell.empty with field := c.field, ce := c.ce, errs := c.errs }

def blankBlock (n : Rgn) (b : Nat) (s : State) : State :=
  s.modCells n.val fun ix c => if cellBlk ix = b then offCell c else c

def setBlockState (n : Rgn) (b st : Nat) (s : State) : State := s.setFld (Reg.RGN_BLOCK_STATE n) ⟨2 * b, 2, .ro, 0⟩ st

def failedBlocks (s : State) (n : Rgn) : Nat := ((List.range 9).filter fun b => blockState s n b == 3).length

/-- Source 1 for each broken barrier, and source 40 unless the region was quarantined already. -/
def raiseBroken (bs : List Nat) (s : State) : State := bs.foldl (fun t b => raiseBarrier none b t) s

/-- A region becomes quarantined (R52): ends, breaks, and source 40. -/
def quarantineNow (n : Rgn) (s : State) : State :=
  if s.quarantined n then s
  else
    let q := quarantine n s
    raiseBroken q.2 (raise (rgnSrc n.val 40) ⟨none, 0, BitVec.ofNat 128 (q.1.reg (Reg.RGN_BLOCK_STATE n)).toNat⟩ q.1)

/-- DEGRADED with one failed block, quarantine with more (R51, R52). -/
def settleBlocks (n : Rgn) (s : State) : State :=
  let k := failedBlocks s n
  let s1 := s.setFld (Reg.RGN_BLOCK_STATE n) Reg.RGN_BLOCK_STATE_DEGRADED (bit (k == 1))
  if 2 ≤ k then quarantineNow n s1
  else if k = 1 ∧ ¬ s.flag (Reg.RGN_BLOCK_STATE n) Reg.RGN_BLOCK_STATE_DEGRADED then
    raise (rgnSrc n.val 40) ⟨none, 0, BitVec.ofNat 128 (s1.reg (Reg.RGN_BLOCK_STATE n)).toNat⟩ s1
  else s1

/-- Does the cause of a fence hold (R50)? Faults of the switch and failed completion checks are seen by the service core only. -/
def fenceDue (s : State) (n : Rgn) (b : Nat) : FenceCause → Bool
  | .store => (blockCells b).any fun ix => decide (2 < (retired s n.val ix).length)
  | .linkErrors =>
    let es := (s.rgn n).linkErrs.filter fun e => e.1 / 32 / 64 == b && decide (s.now < e.2 + 100000000)
    es.any fun e => decide (4 ≤ (es.filter fun f => f.1 == e.1).length)
  | .switchFault => true
  | .completionCheck => true

/-- BLOCK_FENCE (R50). -/
def blockFence (n : Rgn) (b : Nat) (cause : FenceCause) (s : State) : State :=
  if blockState s n b = 3 ∨ ¬ fenceDue s n b cause then s
  else
    let s1 := setBlockState n b 3 ((blankBlock n b s).setDom (blkDom n b) false)
    let s2 := s1.modRgn n fun r => { r with fold := { r.fold with fences := r.fold.fences ++ [b] } }
    let s3 := settleBlocks n s2
    settleVersions n (raise (rgnSrc n.val 39) ⟨none, 0, BitVec.ofNat 128 (s3.reg (Reg.RGN_BLOCK_STATE n)).toNat⟩ s3)

def execBlockFence (n : Rgn) (b : Blk) (cause : FenceCause) (s : State) : Host.Outcome State Fault Refusal :=
  live s (blockFence n b.val cause)

/-! ### The scan map (Table 4.9) -/

/-- Even parity of the low `k` bits. -/
def parityOf (k v : Nat) : Nat := ((List.range k).filter v.testBit).length % 2

/-- Sideband and parity words of a token on each plane; `perr` marks the parity bits that do not fit. -/
def vecSide (f : Flit) : Nat := f.slot.val + 4 * bit f.eot + 8 * bit f.eos + 16 * f.vlc.toNat
def vecParity (data side : Nat) : Nat :=
  ((List.range 4).foldl (fun p i => p + parityOf 32 (data / 2 ^ (32 * i)) * 2 ^ i) 0) + 16 * parityOf 10 side
def sclSide (f : Flit) : Nat := f.slot.val + 4 * bit f.eos + 8 * bit f.sig
def sclParity (data side : Nat) : Nat := parityOf 32 data + 2 * parityOf 4 side

/-- The words of a place that holds a token: three on the vector plane, one on the others. -/
def tokenWord (pl : Plane) (part : Nat) (f : Flit) : Nat :=
  match pl with
  | .vector =>
    if part = 0 then f.data.toNat % 2 ^ 64 else if part = 1 then f.data.toNat / 2 ^ 64
    else vecSide f + 2 ^ 10 * (vecParity f.data.toNat (vecSide f) ^^^ f.perr.toNat) + 2 ^ 15
  | .scalar =>
    let d := f.data.toNat % 2 ^ 32
    d + 2 ^ 32 * sclSide f + 2 ^ 36 * (sclParity d (sclSide f) ^^^ f.perr.toNat % 4) + 2 ^ 38
  | .control =>
    let d := f.data.toNat % 2 ^ 16
    d + 2 ^ 16 * (parityOf 16 d ^^^ f.perr.toNat % 2) + 2 ^ 17

/-- The token that the words of a place hold, if its valid bit is set. -/
def wordToken (pl : Plane) (w0 w1 w2 : Nat) : Option Flit :=
  match pl with
  | .vector =>
    if w2.testBit 15 then
      let data := w0 + 2 ^ 64 * w1
      some ⟨BitVec.ofNat 128 data, Fin.ofNat 4 w2, w2.testBit 2, w2.testBit 3, false, BitVec.ofNat 6 (w2 / 16),
        BitVec.ofNat 5 (w2 / 2 ^ 10 % 32 ^^^ vecParity data (w2 % 1024)), false, none⟩
    else none
  | .scalar =>
    if w0.testBit 38 then
      let d := w0 % 2 ^ 32
      some ⟨BitVec.ofNat 128 d, Fin.ofNat 4 (w0 / 2 ^ 32), false, w0.testBit 34, w0.testBit 35, noVlc,
        BitVec.ofNat 5 (w0 / 2 ^ 36 % 4 ^^^ sclParity d (w0 / 2 ^ 32 % 16)), false, none⟩
    else none
  | .control =>
    if w0.testBit 17 then
      let d := w0 % 2 ^ 16
      some ⟨BitVec.ofNat 128 d, Fin.ofNat 4 d, false, false, false, noVlc,
        BitVec.ofNat 5 (w0 / 2 ^ 16 % 2 ^^^ parityOf 16 d), false, none⟩
    else none

/-- Where a queue or output word lies: plane, port, place (none for an output register) and part, with the first word of
its place. -/
structure QueueWord where
  pl : Plane
  port : Nat
  place : Option Nat
  part : Nat
  first : Nat
  deriving DecidableEq, Repr

def queueWord (w : Nat) : Option QueueWord :=
  if w < 0x6C then some ⟨.vector, w / 12, some (w % 12 / 3), w % 3, w / 3 * 3⟩
  else if 0x70 ≤ w ∧ w < 0x84 then some ⟨.scalar, (w - 0x70) / 4, some ((w - 0x70) % 4), 0, w⟩
  else if 0x90 ≤ w ∧ w < 0xB8 then some ⟨.control, (w - 0x90) / 8, some ((w - 0x90) % 8), 0, w⟩
  else if 0xC0 ≤ w ∧ w < 0xDB then some ⟨.vector, (w - 0xC0) / 3, none, (w - 0xC0) % 3, 0xC0 + (w - 0xC0) / 3 * 3⟩
  else if 0xDB ≤ w ∧ w < 0xE0 then some ⟨.scalar, w - 0xDB, none, 0, w⟩
  else if 0xE0 ≤ w ∧ w < 0xE5 then some ⟨.control, w - 0xE0, none, 0, w⟩
  else none

def zero64 (_ : Nat) : BitVec 64 := 0
def residAt (c : Cell) (w : Nat) : Nat := (Assoc.get zero64 c.resid w).toNat

def queueToken (c : Cell) (q : QueueWord) : Option Flit :=
  match q.place with
  | some k => (c.queue q.pl q.port)[k]?
  | none => c.out q.pl q.port

def queueRead (c : Cell) (w : Nat) (q : QueueWord) : Nat :=
  match queueToken c q with
  | some f => tokenWord q.pl q.part f
  | none => residAt c w

/-- Words of a place on a plane. -/
def placeWords (pl : Plane) : Nat := if pl = .vector then 3 else 1

/-- The token a place's words hold, valid or not yet. -/
def placeToken (c : Cell) (q : QueueWord) (first : Nat) : Option Flit :=
  let at' := fun (k : Nat) => queueRead c (first + k) { q with part := k }
  wordToken q.pl (at' 0) (at' 1) (at' 2)

/-- Keep the words of a place that holds no token. -/
def keepResid (first : Nat) : List Nat → Nat → Cell → Cell
  | [], _, c => c
  | v :: vs, k, c => keepResid first vs (k + 1) { c with resid := Assoc.put zero64 (first + k) (BitVec.ofNat 64 v) c.resid }

def firstOf (q : QueueWord) (place : Nat) : Nat :=
  match q.place with
  | some k => q.first + placeWords q.pl * place - placeWords q.pl * k
  | none => q.first

/-- Write one word of a place: every place of the queue is laid out as words, and the tokens are the leading valid places. A
token whose place is not written stays as it is. -/
def queueWrite (w v : Nat) (q : QueueWord) (c : Cell) : Cell :=
  let depth := if q.place.isSome then planeDepth q.pl else 1
  let words := (List.range depth).map fun p =>
    (List.range (placeWords q.pl)).map fun k =>
      let a := firstOf q p + k
      if a = w then v else queueRead c a { q with place := q.place.map fun _ => p, part := k }
  let toks := words.zipIdx.map fun p =>
    let new := wordToken q.pl (p.1.getD 0 0) (p.1.getD 1 0) (p.1.getD 2 0)
    let old := queueToken c { q with place := q.place.map fun _ => p.2 }
    if q.place.getD 0 = p.2 then new else if new.isSome && old.isSome then old else new
  let c1 := words.zipIdx.foldl (fun c p => keepResid (firstOf q p.2) p.1 0 c) c
  match q.place with
  | some _ => c1.setQueue q.pl q.port ((toks.takeWhile Option.isSome).filterMap id)
  | none => c1.setOut q.pl q.port (toks.getD 0 none)

/-- The stored check bits of a protected word. -/
def checkBits (c : Cell) (key : Nat) (v : BitVec 128) : BitVec 9 := (chkAt c key).getD (Config.check v)
/-- Store data and check bits as they are given. -/
def putCheck (key : Nat) (v : BitVec 128) (k : BitVec 9) (c : Cell) : Cell :=
  if k = Config.check v then clearChk key c else setChk key k c
def putParity (key : Nat) (good : Bool) (c : Cell) : Cell := if good then clearChk key c else setChk key 1 c

/-- One of three words of a 128-bit word: low, high, check bits. -/
def wideRead (part : Nat) (v : BitVec 128) (k : BitVec 9) : Nat :=
  if part = 0 then v.toNat % 2 ^ 64 else if part = 1 then v.toNat / 2 ^ 64 else k.toNat
def wideWrite (part x : Nat) (v : BitVec 128) : BitVec 128 :=
  if part = 0 then BitVec.ofNat 128 (v.toNat / 2 ^ 64 * 2 ^ 64 + x % 2 ^ 64)
  else if part = 1 then BitVec.ofNat 128 (v.toNat % 2 ^ 64 + x % 2 ^ 64 * 2 ^ 64) else v

/-- A 32-bit value with its parity bit above it. -/
def parityWord (v : BitVec 32) (bad : Bool) : Nat := v.toNat + 2 ^ 32 * (parityOf 32 v.toNat ^^^ bit bad)
def parityGood (x : Nat) : Bool := x / 2 ^ 32 % 2 == parityOf 32 (x % 2 ^ 32)

/-- Words of a slot (Table 4.9, 0x0290) as the cell's state gives them; `st` is the state of its copy of the slot. DEDUCED: a cell
has one pairing register, and it is shown in the slot whose token it holds (log entry 141). -/
def slotWord (st : Nat) (c : Cell) (sl k : Nat) : Nat :=
  let x := c.slot sl
  let pair := (c.pair.filter fun t => t.toNat % 4 == sl)
  if k = 0 then x.pc.toNat + 64 * st + 512 * x.elem.toNat + 2 ^ 21 * bit x.busy +
    2 ^ 22 * bit (c.holds sl) + 2 ^ 23 * bit (c.touched.getLsbD sl)
  else if k = 1 then (match pair with
    | some t => t.toNat + 2 ^ 16 + 2 ^ 17 * bit (x.unit != 0)
    | none => 0)
  else if k < 10 then
    (let p := x.ptrs.toList.getD (k - 2) ⟨0, 0, 0⟩
     p.base.toNat + 2 ^ 16 * p.stride.toNat + 2 ^ 32 * p.cur.toNat)
  else 0

def setTouched (c : Cell) (sl : Nat) (on : Bool) : BitVec 4 :=
  if on then c.touched ||| (1#4 <<< sl) else c.touched &&& ~~~ (1#4 <<< sl)

/-- Bits of a slot's words 0 and 1 that a scan writes. -/
def slotWordBits (k : Nat) : Nat := if k = 0 then 24 else 18

/-- Scan word of word `k` of a slot. -/
def slotWordAt (sl k : Nat) : Nat := 0x290 + 16 * sl + k

/-- What a scan reads of a slot's word: what a scan has written there since the freeze, where the cell's state shows otherwise. -/
def slotShown (st : Nat) (c : Cell) (sl k : Nat) : Nat :=
  let r := residAt c (slotWordAt sl k)
  if k < 2 ∧ r.testBit 63 then r % 2 ^ 63 else slotWord st c sl k

def slotPutState (sl k v : Nat) (c : Cell) : Cell :=
  let put := fun (f : SlotSt → SlotSt) (c : Cell) => { c with slots := Vec.modify c.slots sl f }
  if k = 0 then
    put (fun x => { x with pc := BitVec.ofNat 6 v, own := some (BitVec.ofNat 3 (v / 64)), elem := BitVec.ofNat 12 (v / 512), busy := v.testBit 21 })
      { c with touched := setTouched c sl (v.testBit 23) }
  else if k = 1 then
    let t := BitVec.ofNat 16 v
    put (fun x => { x with unit := if v.testBit 16 && v.testBit 17 then BitVec.ofNat 16 (ctlOp (v % 65536) + 1 + 256 * (ctlArg (v % 65536) % 8)) else 0 })
      { c with pair := if v.testBit 16 then some t else c.pair.filter fun t => t.toNat % 4 != sl }
  else if k < 10 then
    put (fun x => { x with ptrs := Vec.modify x.ptrs (k - 2) fun _ =>
      ⟨BitVec.ofNat 13 v, BitVec.ofNat 13 (v / 2 ^ 32), BitVec.ofNat 13 (v / 2 ^ 16)⟩ }) c
  else c

/-- Write a word of a slot: exactly the bits given (R123), also those that the cell's state does not show. -/
def slotPut (sl k v : Nat) (c : Cell) : Cell :=
  let c1 := slotPutState sl k v c
  if k < 2 then
    let x := v % 2 ^ slotWordBits k
    let keep := if slotWord (v / 64 % 8) c1 sl k = x then 0 else x + 2 ^ 63
    { c1 with resid := Assoc.put zero64 (slotWordAt sl k) (BitVec.ofNat 64 keep) c1.resid }
  else c1

/-- A word of the scan map of a cell; none where the table lists no word. -/
def scanWord (s : State) (n : Rgn) (ix w : Nat) : Option Nat :=
  let c := s.cell n.val ix
  match queueWord w with
  | some q => some (queueRead c w q)
  | none =>
    if 0x100 ≤ w ∧ w < 0x1C0 then
      let r := (w - 0x100) / 3
      let v := Assoc.get zeroWord c.regs r
      some (wideRead ((w - 0x100) % 3) v (checkBits c (keyReg r) v))
    else if 0x200 ≤ w ∧ w < 0x280 then
      some (parityWord (Assoc.get zeroAcc c.acc (w - 0x200)) (chkAt c (keyAcc (w - 0x200))).isSome)
    else if 0x280 ≤ w ∧ w < 0x288 then
      some (parityWord (Assoc.get zeroAcc c.masks (w - 0x280)) (chkAt c (keyMask (w - 0x280))).isSome)
    else if 0x290 ≤ w ∧ w < 0x2D0 then
      some (slotShown (cellSlotState s n c ((w - 0x290) / 16)) c ((w - 0x290) / 16) ((w - 0x290) % 16))
    else if w = 0x2D0 then some (c.active.val + 4 * c.flags.toNat + 256 * bit c.poison)
    else if w = 0x2D1 then some (c.lfsr.getD (seedOf n ix)).toNat
    else if w = 0x2D2 ∨ w = 0x2D3 then some 0
    else if 0x300 ≤ w ∧ w < 0x400 then some ((c.slot ((w - 0x300) / 64)).prog.getD ((w - 0x300) % 64) 0).toNat
    else if 0x400 ≤ w ∧ w < 0x404 then
      some ((List.range 64).foldl (fun a i =>
        a + (parityOf 64 ((c.slot (w - 0x400)).prog.getD i 0).toNat ^^^ bit (chkAt c (keyUop (w - 0x400) i)).isSome) * 2 ^ i) 0)
    else if 0x410 ≤ w ∧ w < 0x450 then some (leAt (c.slot ((w - 0x410) / 16)).config (8 * ((w - 0x410) % 16)) 8)
    else if 0x1000 ≤ w ∧ w < 0x1000 + 18432 then
      let a := (w - 0x1000) / 3
      let v := Assoc.get zeroWord c.store a
      some (wideRead ((w - 0x1000) % 3) v (checkBits c (keyStore a) v))
    else none

def padProg (l : List (BitVec 64)) : List (BitVec 64) := (List.range 64).map fun i => l.getD i 0

/-- Write one scan word of a cell. -/
def scanPut (w v : Nat) (c : Cell) : Cell :=
  match queueWord w with
  | some q => queueWrite w v q c
  | none =>
    if 0x100 ≤ w ∧ w < 0x1C0 then
      let r := (w - 0x100) / 3
      let p := (w - 0x100) % 3
      let old := Assoc.get zeroWord c.regs r
      let k := if p = 2 then BitVec.ofNat 9 v else checkBits c (keyReg r) old
      let new := wideWrite p v old
      putCheck (keyReg r) new k { c with regs := Assoc.put zeroWord r new c.regs }
    else if 0x200 ≤ w ∧ w < 0x280 then
      putParity (keyAcc (w - 0x200)) (parityGood v) { c with acc := Assoc.put zeroAcc (w - 0x200) (BitVec.ofNat 32 v) c.acc }
    else if 0x280 ≤ w ∧ w < 0x288 then
      putParity (keyMask (w - 0x280)) (parityGood v) { c with masks := Assoc.put zeroAcc (w - 0x280) (BitVec.ofNat 32 v) c.masks }
    else if 0x290 ≤ w ∧ w < 0x2D0 then slotPut ((w - 0x290) / 16) ((w - 0x290) % 16) v c
    else if w = 0x2D0 then { c with active := Fin.ofNat 4 v, flags := BitVec.ofNat 6 (v / 4), poison := v.testBit 8 }
    else if w = 0x2D1 then { c with lfsr := some (BitVec.ofNat 32 v) }
    else if 0x300 ≤ w ∧ w < 0x400 then
      let sl := (w - 0x300) / 64
      let i := (w - 0x300) % 64
      let old := ((c.slot sl).prog.getD i 0).toNat
      let par := parityOf 64 old ^^^ bit (chkAt c (keyUop sl i)).isSome
      let c1 := { c with slots := Vec.modify c.slots sl fun x => { x with prog := (padProg x.prog).set i (BitVec.ofNat 64 v) } }
      putParity (keyUop sl i) (par == parityOf 64 (v % 2 ^ 64)) c1
    else if 0x400 ≤ w ∧ w < 0x404 then
      (List.range 64).foldl (fun c i =>
        putParity (keyUop (w - 0x400) i) (bit (v.testBit i) == parityOf 64 ((c.slot (w - 0x400)).prog.getD i 0).toNat) c) c
    else if 0x410 ≤ w ∧ w < 0x450 then
      let sl := (w - 0x410) / 16
      { c with slots := Vec.modify c.slots sl fun x =>
        { x with config := splice (Config.fit 128 x.config) (8 * ((w - 0x410) % 16)) (leBytes 8 v) } }
    else if 0x1000 ≤ w ∧ w < 0x1000 + 18432 then
      let a := (w - 0x1000) / 3
      let p := (w - 0x1000) % 3
      let old := Assoc.get zeroWord c.store a
      let k := if p = 2 then BitVec.ofNat 9 v else checkBits c (keyStore a) old
      let new := wideWrite p v old
      putCheck (keyStore a) new k { c with store := Assoc.put zeroWord a new c.store }
    else c

/-! ### SCAN_DATA (R122 to R124) -/

/-- The cell and word that the window addresses, when the selected block is frozen and the table lists the word. -/
def scanTarget (s : State) (n : Rgn) : Option (Nat × Nat) :=
  let b := s.fld (Reg.SCAN_CTRL n) Reg.SCAN_CTRL_BLOCK
  let ix := 64 * b + s.fld (Reg.SCAN_ADDR n) Reg.SCAN_ADDR_CELL
  let w := s.fld (Reg.SCAN_ADDR n) Reg.SCAN_ADDR_WORD
  if b < 9 ∧ (s.rgn n).frozen.getLsbD b ∧ (scanWord s n ix w).isSome then some (ix, w) else none

/-- What SCAN_DATA reads. -/
def scanData (s : State) (n : Rgn) : Word :=
  match scanTarget s n with
  | some t => BitVec.ofNat 64 ((scanWord s n t.1 t.2).getD 0)
  | none => 0

/-- After an access: ERROR where it was refused, and the address moves under AUTO_INC. -/
def scanAfter (n : Rgn) (s : State) : State :=
  let s1 := if (scanTarget s n).isNone then s.setFld (Reg.SCAN_STATUS n) Reg.SCAN_STATUS_ERROR 1 else s
  if s.flag (Reg.SCAN_CTRL n) Reg.SCAN_CTRL_AUTO_INC then
    s1.setFld (Reg.SCAN_ADDR n) Reg.SCAN_ADDR_WORD (s.fld (Reg.SCAN_ADDR n) Reg.SCAN_ADDR_WORD + 1)
  else s1

/-- A cell-store word of a retired granule (R47, R48), by its scan word: the device writes no data there. -/
def scanRetired (s : State) (n : Rgn) (ix w : Nat) : Bool :=
  decide (0x1000 ≤ w) && (retired s n.val ix).contains ((w - 0x1000) / 3 / 64)

def doScanWrite (n : Rgn) (v : Word) (s : State) : State :=
  match scanTarget s n with
  | some t =>
    if scanRetired s n t.1 t.2 then scanAfter n s else scanAfter n (s.setCell n.val t.1 (scanPut t.2 v.toNat (s.cell n.val t.1)))
  | none => scanAfter n s

def execScanDataWrite (who : Requester) (n : Rgn) (v : Word) (s : State) : Host.Outcome State Fault Refusal :=
  live s (guardWrite who (Reg.SCAN_DATA n) 8 v (doScanWrite n v))

/-- A register read under the check (R445): what it does beside returning a value. -/
def guardRead (who : Requester) (a width : Nat) (f : State → State) (s : State) : State :=
  match accessCheck who false a width 0 s with
  | .ok => f s
  | .silent => s
  | .bad => badAccess (requesterNum who) false width a s

def execScanDataRead (who : Requester) (n : Rgn) (s : State) : Host.Outcome State Fault Refusal :=
  live s (guardRead who (Reg.SCAN_DATA n) 8 (scanAfter n))

end Sys2Proof.Machine
end

