-- ==== Sys2Proof/Machine/Experts.lean ====
section
/-!
DEFINITION. The expert dispatcher (09_experts.md, R243 to R256): DISPATCH and COMBINE route jobs.
-/

namespace Sys2Proof.Machine

/-! ### Fields of a route job (Table 9.1) -/

def jKind (j : List Byte) : Nat := leAt j 0x01 1
def jScored (j : List Byte) : Bool := leAt j 0x02 1 == 1
def jWmode (j : List Byte) : Nat := leAt j 0x03 1
def jExperts (j : List Byte) : Nat := leAt j 0x04 1 + 1
def jTopk (j : List Byte) : Nat := leAt j 0x05 1
def jProbe (j : List Byte) : Nat := leAt j 0x06 1 + 1
def jFmt (j : List Byte) : Nat := leAt j 0x07 1
def jSeats (j : List Byte) : Nat := leAt j 0x08 2 + 1
def jRows (j : List Byte) : Nat := leAt j 0x0A 2 + 1
def jCols (j : List Byte) : Nat := 16 * (leAt j 0x0D 1 + 1)
def jSeed (j : List Byte) : Nat := leAt j 0x10 4
def jSrc (j : List Byte) : Nat := leAt j 0x14 4
def jDst (j : List Byte) : Nat := leAt j 0x18 4
def jAux (j : List Byte) : Nat := leAt j 0x1C 4
def jMap (j : List Byte) : Nat := leAt j 0x20 4
def jCnt (j : List Byte) : Nat := leAt j 0x24 4
def jWaitSem (j : List Byte) : Nat := leAt j 0x28 1
def jWaitN (j : List Byte) : Nat := leAt j 0x29 1
def jSigSem (j : List Byte) : Nat := leAt j 0x2A 1
def jSigN (j : List Byte) : Nat := leAt j 0x2B 1

/-- Tokens of a round (R245). -/
def jTokens (j : List Byte) (shapes : List (BitVec 32)) : Nat :=
  if leAt j 0x0C 1 = 15 then jRows j else shapeAt shapes (leAt j 0x0C 1)

/-- Tiles of a K-panel of `lines` lines. -/
def panelTiles (j : List Byte) (lines : Nat) : Nat := (panelBytes 0 (jFmt j) lines (jCols j) + 4095) / 4096
def weightTiles (j : List Byte) : Nat := (jRows j + 1023) / 1024

/-! ### Lines of K-panels (R253) -/

/-- Words of a band. -/
def lineWords (j : List Byte) : Nat := (jCols j * fmtWidth (jFmt j) + 15) / 16
/-- Near-tier address of field `k` of line `l` of the panel at a tile. -/
def fieldAddr (n : Rgn) (j : List Byte) (tile l k : Nat) : Nat :=
  nearAddr n.val (4096 * tile + 16 * (l / 8 * lineWords j + k) + 2 * (l % 8))

def readLine (s : State) (n : Rgn) (j : List Byte) (tile l : Nat) : List (List Byte) :=
  (List.range (lineWords j)).map fun k => s.load (fieldAddr n j tile l k) 2

def writeLine (n : Rgn) (j : List Byte) (tile l : Nat) (fs : List (List Byte)) (s : State) : State :=
  fs.zipIdx.foldl (fun t p => t.store (fieldAddr n j tile l p.2) p.1) s

def zeroLine (j : List Byte) : List (List Byte) := List.replicate (lineWords j) [0, 0]

/-! ### Candidate lists (R246, R247) -/

/-- Insert into a list in descending score order, behind equal scores. -/
def insertScore (x : FVal × Nat) : List (FVal × Nat) → List (FVal × Nat)
  | [] => [x]
  | y :: ys => if flt y.1 x.1 then x :: y :: ys else y :: insertScore x ys

def scoreAt (s : State) (n : Rgn) (j : List Byte) (t e : Nat) : BitVec 32 :=
  BitVec.ofNat 32 (leNat (s.load (nearAddr n.val (4096 * jAux j + 64 * ((jExperts j + 15) / 16) * t + 4 * e)) 4))

def scoredList (s : State) (n : Rgn) (j : List Byte) (t : Nat) : List Nat :=
  let all := (List.range (jExperts j)).filterMap fun e =>
    match of32 (scoreAt s n j t e) with
    | .nan => none
    | .inf true => none
    | v => some (v, e)
  ((all.foldl (fun l x => insertScore x l) []).map Prod.snd).take (jProbe j)

/-- The hash (R247). -/
def hash64 (seed id : Nat) : BitVec 64 :=
  let x := (BitVec.ofNat 64 seed <<< 32) ||| BitVec.ofNat 64 (id % 2 ^ 32)
  let x := x ^^^ (x >>> 29)
  let x := x * 0xA3D15C279E4B61F5
  let x := x ^^^ (x >>> 31)
  let x := x * 0xD86B2F43C91A7E0D
  x ^^^ (x >>> 30)

/-- Smallest power of two not below `k` for k up to 256. -/
def pow2Above (k : Nat) : Nat := if k ≤ 1 then 1 else 2 ^ ((k - 1).log2 + 1)

def hashedList (j : List Byte) (id : Nat) : List Nat :=
  let h := (hash64 (jSeed j) id).toNat
  let p := pow2Above (jExperts j)
  let a := h % p
  let b := h / 2 ^ 32 % p ||| 1
  (((List.range p).map fun i => (a + i * b) % p).filter fun v => decide (v < jExperts j)).take (jProbe j)

def candidates (s : State) (n : Rgn) (j : List Byte) (t : Nat) : List Nat :=
  if jScored j then scoredList s n j t
  else hashedList j (leNat (s.load (nearAddr n.val (4096 * jAux j + 4 * t)) 4))

/-! ### Placement (R248, R249) -/

/-- An expert's seats taken, spills and refusals in the round. -/
structure Tally where
  taken : Nat
  spill : Nat
  refused : Nat
  deriving DecidableEq, Repr

def tallyAt (ts : List Tally) (e : Nat) : Tally := ts.getD e ⟨0, 0, 0⟩

/-- Walk a list from position `i`: the placements so far (expert, seat, position) and the tallies. -/
def walk (seats k : Nat) : Nat → List Nat → List (Nat × Nat × Nat) → List Tally → List (Nat × Nat × Nat) × List Tally
  | _, [], pl, ts => (pl, ts)
  | i, e :: es, pl, ts =>
    if k ≤ pl.length then (pl, ts)
    else
      let x := tallyAt ts e
      if seats ≤ x.taken then walk seats k (i + 1) es pl (ts.set e { x with refused := x.refused + 1 })
      else walk seats k (i + 1) es (pl ++ [(e, x.taken, i)])
        (ts.set e { x with taken := x.taken + 1, spill := x.spill + bit (decide (k ≤ i)) })

/-- The seats of a dropped token step back. -/
def release (k : Nat) (pl : List (Nat × Nat × Nat)) (ts : List Tally) : List Tally :=
  pl.foldl (fun ts p =>
    let x := tallyAt ts p.1
    ts.set p.1 { x with taken := x.taken - 1, spill := x.spill - bit (decide (k ≤ p.2.2)) }) ts

/-- Rows in ascending order: the placements of each row, none where it is dropped. -/
def placeRows (seats k : Nat) : List (List Nat) → List Tally → List (Option (List (Nat × Nat))) × List Tally
  | [], ts => ([], ts)
  | l :: ls, ts =>
    let r := walk seats k 0 l [] ts
    if r.1.length = k then
      let q := placeRows seats k ls r.2
      (some (r.1.map fun p => (p.1, p.2.1)) :: q.1, q.2)
    else
      let q := placeRows seats k ls (release k r.1 r.2)
      (none :: q.1, q.2)

/-! ### Weights (R250) -/

/-- The dispatcher of a region, among the units that compute table functions: after the cells. -/
def dispatcherId (n : Rgn) : Nat := 9216 + n.val

def weights (s : State) (n : Rgn) (j : List Byte) (t : Nat) (pl : List (Nat × Nat)) : List (BitVec 32) :=
  let sc := pl.map fun p => scoreAt s n j t p.1
  if jWmode j = 1 then sc
  else if jWmode j = 2 then pl.map fun _ => (fdiv32 FVal.one (.fin false (jTopk j) 0)).1
  else
    let top := extreme fmax 0 (sc.map of32)
    let ex := sc.map fun x => (fnSubexp ⟨dispatcherId n, opSubexp, [x.toNat, (to32 top).1.toNat]⟩ (of32 x) top).1
    let sum := (to32 (sum32 (ex.map of32)).1).1
    let r := (fnRcp ⟨dispatcherId n, opRcp, [sum.toNat]⟩ sum).1
    ex.map fun x => (to32 (fmul (of32 x) (of32 r)).1).1

/-! ### What DISPATCH writes (R251, R255) -/

def mapEntry (e seat : Nat) (w : BitVec 32) : List Byte := leBytes 8 (e + 2 ^ 8 * seat + 2 ^ 31 + 2 ^ 32 * w.toNat)

def mapRow (s : State) (n : Rgn) (j : List Byte) (t : Nat) (pl : Option (List (Nat × Nat))) : List Byte :=
  match pl with
  | none => List.replicate 64 0
  | some l => Config.fit 64 ((l.zip (weights s n j t l)).flatMap fun p => mapEntry p.1.1 p.1.2 p.2)

def expertTile (j : List Byte) (first e : Nat) : Nat := first + e * panelTiles j (jSeats j)

/-- Copy the line of each placement of a row. -/
def seatLines (n : Rgn) (j : List Byte) (t : Nat) (fs : List (List Byte)) : List (Nat × Nat) → State → State
  | [], s => s
  | p :: ps, s => seatLines n j t fs ps (writeLine n j (expertTile j (jDst j) p.1) p.2 fs s)

/-- Maps and lines, row by row; `s0` is the state whose panels are read. -/
def placeLines (s0 : State) (n : Rgn) (j : List Byte) : Nat → List (Option (List (Nat × Nat))) → State → State
  | _, [], s => s
  | t, pl :: pls, s =>
    let s1 := s.store (nearAddr n.val (4096 * jMap j + 64 * t)) (mapRow s0 n j t pl)
    let s2 := match pl with
      | none => s1
      | some l => seatLines n j t (readLine s0 n j (jSrc j) t) l s1
    placeLines s0 n j (t + 1) pls s2

/-- Zero lines for the seats that no token took. -/
def zeroSeats (n : Rgn) (j : List Byte) (ts : List Tally) (s : State) : State :=
  (List.range (jExperts j)).foldl (fun s e =>
    (List.range (jSeats j)).foldl (fun s seat =>
      if seat < (tallyAt ts e).taken then s else writeLine n j (expertTile j (jDst j) e) seat (zeroLine j) s) s) s

def tallyWord (x : Tally) : Nat := x.taken % 2 ^ 16 + 2 ^ 16 * (x.spill % 2 ^ 16) + 2 ^ 32 * (x.refused % 2 ^ 16)

/-- The counter tile and the registers, in one access (R255). -/
def writeCounters (n : Rgn) (j : List Byte) (tokens dropped : Nat) (ts : List Tally) (s : State) : State :=
  let a := Reg.MOE_STATUS n
  let round := (s.fld a Reg.MOE_STATUS_ROUND + 1) % 2 ^ 32
  let words := (List.range 256).map fun e => tallyWord (tallyAt ts e)
  let tile := words.flatMap (leBytes 8) ++ leBytes 4 round ++ leBytes 2 tokens ++ leBytes 2 dropped
  let s1 := writeTile (s.partOf n) n.val 1 (jCnt j) tile s
  let s2 := (s1.setFld a Reg.MOE_STATUS_ROUND round).setFld a Reg.MOE_STATUS_DROPPED dropped
  s2.modRgn n fun r => { r with moeCnt := words.map (BitVec.ofNat 64) }

/-- MOE_CNT_DATA (R256). -/
def moeData (s : State) (n : Rgn) : Word :=
  Reg.MOE_CNT_DATA_ROUND.put ((s.rgn n).moeCnt.getD (s.fld (Reg.MOE_CNT_SEL n) Reg.MOE_CNT_SEL_EXPERT) 0)
    (s.fld (Reg.MOE_STATUS n) Reg.MOE_STATUS_ROUND)

/-! ### What a job reads and writes (R244, R253, R254) -/

/-- Tile ranges that a job's panels, map and counter tile take. -/
def jobRanges (j : List Byte) : List (Nat × Nat) :=
  if jKind j = 1 then
    [(jSrc j, panelTiles j (jRows j)),
     (jAux j, if jScored j then (64 * ((jExperts j + 15) / 16) * jRows j + 4095) / 4096 else (4 * jRows j + 4095) / 4096),
     (jMap j, (64 * jRows j + 4095) / 4096), (jDst j, jExperts j * panelTiles j (jSeats j)), (jCnt j, 1)]
  else
    [(jMap j, (64 * jRows j + 4095) / 4096), (jSrc j, jExperts j * panelTiles j (jSeats j)),
     (jDst j, jTopk j * panelTiles j (jRows j)), (jAux j, jTopk j * weightTiles j)]

/-- Lines of memory that `k` bytes of the near tier from an offset touch. -/
def offLines (n : Rgn) (off k : Nat) : List Nat :=
  let a := nearAddr n.val off
  (List.range ((a + k + 63) / 64 - a / 64)).map fun i => a / 64 + i

/-- Lines of a whole K-panel of `rows` lines; a move into one reads the words that it merges (R253). -/
def panelLines (n : Rgn) (j : List Byte) (tile rows : Nat) : List Nat :=
  offLines n (4096 * tile) (16 * ((rows + 7) / 8) * lineWords j)

/-- Lines that hold line `l` of a panel. -/
def fieldLines (n : Rgn) (j : List Byte) (tile l : Nat) : List Nat :=
  (List.range (lineWords j)).map fun k => fieldAddr n j tile l k / 64

/-- Rows placed by a DISPATCH, and the tallies. -/
def dispatchRows (s : State) (n : Rgn) (j : List Byte) : List (Option (List (Nat × Nat))) × List Tally :=
  placeRows (jSeats j) (jTopk j) ((List.range (jTokens j (s.rgn n).seq.shapes)).map (candidates s n j)) (List.replicate 256 ⟨0, 0, 0⟩)

/-- Lines that a DISPATCH reads: the scores or IDs of its tokens, the lines of the tokens placed, and the panels it fills. -/
def dispatchReads (s : State) (n : Rgn) (j : List Byte) : List Nat :=
  let aux := (List.range (jTokens j (s.rgn n).seq.shapes)).flatMap fun t =>
    if jScored j then offLines n (4096 * jAux j + 64 * ((jExperts j + 15) / 16) * t) (4 * jExperts j)
    else offLines n (4096 * jAux j + 4 * t) 4
  let src := (dispatchRows s n j).1.zipIdx.flatMap fun p => if p.1.isSome then fieldLines n j (jSrc j) p.2 else []
  aux ++ src ++ (List.range (jExperts j)).flatMap fun e => panelLines n j (expertTile j (jDst j) e) (jSeats j)

/-- The map entry of row `t` and rank `i`. -/
def mapAt (s : State) (n : Rgn) (j : List Byte) (t i : Nat) : Nat := leNat (s.load (nearAddr n.val (4096 * jMap j + 64 * t + 8 * i)) 8)

/-- Lines that a COMBINE reads: the map, the expert lines it names, the panels it fills, and a last line of weights that it fills
in part. -/
def combineReads (s : State) (n : Rgn) (j : List Byte) : List Nat :=
  let src := (List.range (jRows j)).flatMap fun t => (List.range (jTopk j)).flatMap fun i =>
    let m := mapAt s n j t i
    if m.testBit 31 then fieldLines n j (expertTile j (jSrc j) (m % 256)) (m / 256 % 4096) else []
  offLines n (4096 * jMap j) (64 * jRows j) ++ src ++
    (List.range (jTopk j)).flatMap fun i =>
      panelLines n j (jDst j + i * panelTiles j (jRows j)) (jRows j) ++
        offLines n (4096 * (jAux j + i * weightTiles j) + 4 * jRows j / 64 * 64) (4 * jRows j % 64)

def jobReads (s : State) (n : Rgn) (j : List Byte) : List Nat := if jKind j = 1 then dispatchReads s n j else combineReads s n j

/-- Full writes of `k` lines clear their poison (R178). -/
def cleanLines (line k : Nat) (s : State) : State :=
  { s with poison := s.poison.filter fun l => decide (l < line) || decide (line + k ≤ l) }

/-- DISPATCH: rank, place, and write the map, the panels and the counters. -/
def dispatchWork (n : Rgn) (j : List Byte) (s : State) : State :=
  let tokens := jTokens j (s.rgn n).seq.shapes
  let r := dispatchRows s n j
  let rows := r.1 ++ List.replicate (jRows j - tokens) none
  let s1 := cleanLines (nearAddr n.val (4096 * jMap j) / 64) (jRows j) (zeroSeats n j r.2 (placeLines s n j 0 rows s))
  let dropped := (r.1.filter Option.isNone).length
  writeCounters n j tokens dropped r.2 s1

/-- One row and rank of a COMBINE (R252). -/
def combineOne (s0 : State) (n : Rgn) (j : List Byte) (t i : Nat) (s : State) : State :=
  let m := mapAt s0 n j t i
  let ok := m.testBit 31
  let fs := if ok then readLine s0 n j (expertTile j (jSrc j) (m % 256)) (m / 256 % 4096) else zeroLine j
  let w := if ok then m / 2 ^ 32 else 0
  (writeLine n j (jDst j + i * panelTiles j (jRows j)) t fs s).store
    (nearAddr n.val (4096 * (jAux j + i * weightTiles j) + 4 * t)) (leBytes 4 w)

def combineWork (n : Rgn) (j : List Byte) (s : State) : State :=
  let s1 := (List.range (jRows j)).foldl (fun t row => (List.range (jTopk j)).foldl (fun t i => combineOne s n j row i t) t) s
  (List.range (jTopk j)).foldl (fun t i =>
    cleanLines (nearAddr n.val (4096 * (jAux j + i * weightTiles j)) / 64) (4 * jRows j / 64) t) s1

/-- The next job and MOE_STATUS.JOB: after the last the first. -/
def nextJob (n : Rgn) (s : State) : State :=
  let q := (s.rgn n).seq
  let ix := if q.jobs.length ≤ q.jobIx + 1 then 0 else q.jobIx + 1
  (modSeq n.val (fun q => { q with jobIx := ix }) s).setFld (Reg.MOE_STATUS n) Reg.MOE_STATUS_JOB ix

/-! ### Running a job (R244, R254) -/

/-- How a job's reads end: all well, or at the first one that fails. -/
inductive JobReads where
  | fine (corrected : Option Nat)
  | bad (line : Nat)
  | late (line : Nat)
  deriving DecidableEq, Repr

/-- The reads of a job, of which the one at `place` ends as `out` says, if a poisoned line has not failed before it. -/
def readsEnd (s : State) (ls : List Nat) (out : ReadOutcome) (place : Nat) : JobReads :=
  match (ls.take (match out with
    | .ok | .corrected => ls.length
    | _ => place)).find? fun l => s.poison.contains l with
  | some l => .bad l
  | none =>
    match ls[place]?, out with
    | some l, .uncorrectable => .bad l
    | some l, .timeout => .late l
    | some l, .corrected => .fine (some l)
    | _, _ => match ls.find? fun l => s.poison.contains l with
      | some l => .bad l
      | none => .fine none

/-- Offset in the region's near tier of a line of memory. -/
def lineOff (n : Rgn) (line : Nat) : Nat := 64 * line - nearAddr n.val 0

/-- The failure of a job's read ends the command (R254, R179). -/
def jobBad (n : Rgn) (cause status off : Nat) (s : State) : State :=
  let q := (s.rgn n).seq
  showMover n (tmEnd n q.cmd q.jobIx 1 0 cause off status s)

/-- Run a job whose wait has been taken. -/
def runJob (n : Rgn) (j : List Byte) (work : List Byte → State → State) (out : ReadOutcome) (place : Nat) (s : State) : State :=
  let q := (s.rgn n).seq
  if jKind j = 1 ∧ jRows j < jTokens j q.shapes then jobBad n 0 ST_INTERNAL 0 s
  else match (jobRanges j).find? fun r => decide (tierCap s n 1 < r.1 + r.2) with
    | some r => jobBad n 4 ST_INTERNAL (4096 * r.1) s
    | none =>
      let done := fun t => nextJob n (signalSem n (jSigSem j) (jSigN j) (work j t))
      match readsEnd s (jobReads s n j) out place with
      | .fine none => done s
      | .fine (some l) => done (lineCe n true (lineOff n l) s)
      | .bad l => lineUe n true q.cmd (lineOff n l) (jobBad n 1 ST_TIER_ERROR (lineOff n l) (poisonLine l s))
      | .late l => jobBad n 2 ST_TIER_TIMEOUT (lineOff n l) s

/-- Run the job waited on, when it is of the given KIND and its wait can be taken. -/
def routeJob (n : Rgn) (kind : Nat) (work : List Byte → State → State) (out : ReadOutcome) (place : Nat) (s : State) : State :=
  let q := (s.rgn n).seq
  match q.jobs[q.jobIx]? with
  | none => s
  | some j =>
    if ¬ seqRunning s n ∨ jKind j ≠ kind ∨ semValue s n (jWaitSem j) < jWaitN j then s
    else runJob n j work out place
      (s.setReg (semAddr n (jWaitSem j)) (BitVec.ofNat 64 (semValue s n (jWaitSem j) - jWaitN j)))

def execDispatch (r : JobEvent) (s : State) : Host.Outcome State Fault Refusal :=
  live s (routeJob r.rgn 1 (dispatchWork r.rgn) r.out r.place)

def execCombine (r : JobEvent) (s : State) : Host.Outcome State Fault Refusal :=
  live s (routeJob r.rgn 2 (combineWork r.rgn) r.out r.place)

end Sys2Proof.Machine
end

