-- ==== Sys2Proof/Machine/Fabric.lean ====
section
/-!
DEFINITION. The Axium port's receiving side (R341 to R345, R350 to R356, R363, R364): link retry, circuits and their loss,
lots, messages arriving, and the tiles of a TIER_COPY that has lots for source or destination.
-/

namespace Sys2Proof.Machine

/-! ### Lots (R357 to R360) -/

/-- Tiles of a 1 GiB lot. -/
def lotTiles : Nat := 2 ^ 18

/-- Tiles become zeros written under the partition's key. -/
def zeroRange (p : Option Part) (n tier first k : Nat) (s : State) : State :=
  let a := tileAddr n tier first
  let t := a / 4096
  let key := keyFor s p tier
  { s with
    mem := s.mem.filter fun c => decide (c.1 < a) || decide (a + 4096 * k ≤ c.1)
    poison := s.poison.filter fun l => decide (l < a / 64) || decide (a / 64 + 64 * k ≤ l)
    keys := (s.keys.filter fun x => decide (x.1 < t)) ++
      (if key = 0 then [] else (List.range k).map fun i => (t + i, key)) ++ s.keys.filter fun x => decide (t + k ≤ x.1) }

def lotExtent (n lot : Nat) : Extent := ⟨n, 2, lotTiles * lot, lotTiles⟩

/-- Lots of an offer that are allocated: not freed by a withdrawal. -/
def offerLots (s : State) (o : Offer) : List Nat :=
  ((List.range o.lots).map (· + o.first / lotTiles)).filter fun l =>
    (s.part o.part).allocs.any fun a => a.owner == .lots o.id && overlap (lotExtent o.rgn l) a.ext

/-- Of these, the lots not lent. -/
def idleLots (s : State) (o : Offer) : List Nat := (offerLots s o).filter fun l => !(o.lent.any fun x => x.1 == l)

def modOffer (id : BitVec 32) (f : Offer → Offer) (s : State) : State :=
  { s with offers := s.offers.map fun o => if o.id = id then f o else o }

/-- FAB_LEND_STATUS and the LOTS bits of the port's circuits. -/
def showLend (n : Rgn) (s : State) : State :=
  let offers := s.offers.filter fun o => o.rgn == n.val
  let borrows := s.borrows.filter fun b => b.rgn == n.val
  let lent := offers.flatMap Offer.lent
  let a := Reg.FAB_LEND_STATUS n
  let s1 := ((s.setFld a Reg.FAB_LEND_STATUS_OFFERED (offers.foldl (fun k o => k + (offerLots s o).length) 0)).setFld a
    Reg.FAB_LEND_STATUS_LENT lent.length).setFld a Reg.FAB_LEND_STATUS_BORROWED borrows.length
  let s2 := s1.setFld a Reg.FAB_LEND_STATUS_RECALLED (bit (borrows.any fun b => b.recalled))
  (s2.rgn n).port.circuits.foldl (fun t c => t.setFld (Reg.FAB_CIRC n c.index) Reg.FAB_CIRC_LOTS
    (bit (lent.any (fun x => x.2.2 == c.index) || borrows.any fun b => b.circuit == c.index))) s2

/-- A lot is zeroed and freed (R360). -/
def freeLot (o : Offer) (lot : Nat) (s : State) : State :=
  cutAllocs o.part (lotExtent o.rgn lot) (· == .lots o.id) (zeroRange (some o.part) o.rgn 2 (lotTiles * lot) lotTiles s)

def freeLots (o : Offer) : List Nat → State → State
  | [], s => s
  | l :: ls, s => freeLots o ls (freeLot o l s)

/-- Lots lent to one borrower, or to all, are refused from now on, zeroed and freed. -/
def takeBack (o : Offer) (f : Nat × Nat × Nat → Bool) (s : State) : State :=
  let l := o.lent.filter f
  modOffer o.id (fun x => { x with lent := x.lent.filter (fun y => !f y), gone := x.gone ++ l }) (freeLots o (l.map Prod.fst) s)

/-- Borrowed lots leave the lent tier, and the borrower's usage falls. -/
def dropBorrows (n : Rgn) (f : Borrow → Bool) (s : State) : State :=
  let l := s.borrows.filter fun b => b.rgn == n.val && f b
  let s1 := { s with borrows := s.borrows.filter fun b => !(b.rgn == n.val && f b) }
  l.foldl (fun t b => cutAllocs b.part ⟨n.val, 4, lotTiles * b.lot, lotTiles⟩ (fun _ => true) t) s1

/-! ### Circuits -/

/-- A circuit's entry is free again. -/
def freeCirc (n : Rgn) (c : Nat) (s : State) : State :=
  let s1 := modPort n (fun p => { p with circuits := p.circuits.filter fun x => x.index != c }) (s.setReg (Reg.FAB_CIRC n c) 0)
  showCirc n c (s1.modRgn n fun r => { r with reqs := r.reqs.filter fun q => (q.remote.map Prod.fst) != some c })

def setCircState (n : Rgn) (c st : Nat) (s : State) : State := showCirc n c (s.setFld (Reg.FAB_CIRC n c) Reg.FAB_CIRC_STATE st)

def circTimeout (s : State) (n : Rgn) : Nat :=
  let t := s.fld (Reg.FAB_PORT_CFG n) Reg.FAB_PORT_CFG_CIRC_TIMEOUT
  if t = 0 then 1000 else t
def probeTicks (s : State) (n : Rgn) : Nat := max 1 (s.fld (Reg.FAB_PORT_CFG n) Reg.FAB_PORT_CFG_PROBE_TICKS)

def dropAsk (n : Rgn) (id : BitVec 16) (s : State) : State :=
  modPort n (fun p => { p with asks := p.asks.filter fun a => a.id != id }) s

/-- Commands with a request outstanding on a circuit. -/
def circCmds (s : State) (n : Rgn) (c : Nat) : List Nat :=
  (((s.rgn n).reqs.filter fun q => (q.remote.map Prod.fst) == some c && !q.killed).filterMap Req.cmd ++
    ((s.rgn n).port.asks.filter fun a => a.circuit == c).filterMap AxAsk.cmd).eraseDups.filter fun id =>
      ((s.cmd id).map Cmd.live).getD false

/-- DETAIL of a lost circuit (Table 17.5). -/
def lostDetail (s : State) (n : Rgn) (c : Nat) (ids : List Nat) : Nat :=
  n.val + 2 ^ 4 * c + 2 ^ 16 * circPeer s n c + 2 ^ 34 * min 255 ids.length +
    2 ^ 64 * leNat ((ids.take 4).flatMap fun i => leBytes 2 (cmdTag s (some i)))

/-- End every request on a circuit and the commands that issued them, with TM_ERR for a tile request (R364, Table 6.4). -/
def endOnCirc (n : Rgn) (c : Nat) (s : State) : State :=
  let ids := circCmds s n c
  let tile := (s.rgn n).reqs.find? fun q => (q.remote.map Prod.fst) == some c && !q.killed
  let s1 := match tile with
    | some q =>
      let d := reqDesc s n q
      tmError n ((d.map Desc.row).getD 0) q.tier ((d.map fun (x : Desc) => x.win (q.write && x.kind == 3)).getD 0) 7 q.addr s
    | none => s
  let s2 := s1.modRgn n fun r => { r with
    reqs := r.reqs.filter fun q => (q.remote.map Prod.fst) != some c,
    port := { r.port with asks := r.port.asks.filter fun a => a.circuit != c,
                          waiting := r.port.waiting.filter fun f => f.circuit != c || f.hello } }
  endAll ST_REMOTE_LOST s2 ids

/-- Lots over a lost circuit are gone (R364 step 3). -/
def lotsLost (n : Rgn) (c : Nat) (s : State) : State :=
  let s1 := dropBorrows n (fun b => b.circuit == c) s
  let s2 := (s1.offers.filter fun o => o.rgn == n.val).foldl (fun t o => takeBack o (fun x => x.2.2 == c) t) s1
  showLend n s2

/-- CIRCUIT_LOST (R364): the entry, its requests, its lots, the report. A plan without a command that had a request on the
circuit stops. -/
def loseCirc (n : Rgn) (c : Nat) (s : State) : State :=
  let st := circState s n c
  if st = circBound ∨ st = circUnbinding then
    let detail := lostDetail s n c (circCmds s n c)
    let bare := (s.rgn n).reqs.any fun q => (q.remote.map Prod.fst) == some c && !q.killed && q.cmd.isNone
    let s1 := (setCircState n c circLost s).bump (Reg.FAB_PORT_STATUS n) Reg.FAB_PORT_STATUS_LOST 1
    let s2 := lotsLost n c (endOnCirc n c s1)
    let s3 := if bare then flushAll n (seqStop n s2) else s2
    raiseDetail (rgnSrc n.val 43) none detail (showMover n (showCirc n c s3))
  else s

/-- The port goes down: every circuit is lost, and a bind in progress fails (R348, R363). -/
def loseCircs (n : Rgn) : List Circuit → State → State
  | [], s => s
  | c :: cs, s =>
    loseCircs n cs (
      if circState s n c.index = circBinding then
        freeCirc n c.index (endAll ST_REMOTE_LOST (endOnCirc n c.index s) c.cmd.toList)
      else loseCirc n c.index s)

/-- The region's stage follows its port (Table 15.3): 5 is stage 4 with the port JOINED. -/
def showJoin (n : Rgn) (s : State) : State :=
  let on := portState s n == portJoined
  let a := Reg.BOOT_RGN n.val
  let s1 := s.setFld a Reg.BOOT_RGN_JOINED (bit on)
  if on ∧ s1.stage n = 4 then s1.setFld a Reg.BOOT_RGN_STAGE 5
  else if ¬ on ∧ s1.stage n = 5 then s1.setFld a Reg.BOOT_RGN_STAGE 4 else s1

/-- What a port keeps of its link when it goes down: nothing but its circuits' entries. -/
def Port.down (p : Port) : Port := { Port.reset with circuits := p.circuits }

def portGoesDown (n : Rgn) (st : Nat) (s : State) : State :=
  let s1 := loseCircs n (s.rgn n).port.circuits s
  showJoin n ((setPortState n st (modPort n Port.down s1)).setFld (Reg.FAB_PORT_STATUS n) Reg.FAB_PORT_STATUS_ID_WAIT 0)

/-! ### LANE_SIGNAL, AXIUM_LINK_TRAINED, AXIUM_LINK_DOWN and FAB_PORT_CFG (R338, R343, Table 14.3) -/

def portEnabled (s : State) (n : Rgn) : Bool := s.flag (Reg.FAB_PORT_CFG n) Reg.FAB_PORT_CFG_ENABLE && s.domOn (rgnDom n.val)

def laneSignal (n : Rgn) (s : State) : State :=
  if portEnabled s n ∧ portState s n = portDown then setPortState n portTraining s else s

def execLaneSignal (n : Rgn) (s : State) : Host.Outcome State Fault Refusal := live s (laneSignal n)

/-- A fresh nonce of 32 bytes. -/
def freshNonce (s : State) : List Byte × State := ((List.range 32).map (Config.freeByte s.free), { s with free := s.free + 1 })

/-- The link is up: 128 credits a channel, SEQ from 0, a fresh nonce, and a HELLO being signed (R342, R345). -/
def linkTrained (n : Rgn) (ok : Bool) (s : State) : State :=
  if portState s n ≠ portTraining then s
  else if ok then
    let x := freshNonce s
    tahrAsk (tqHello n.val) (setPortState n portLinked (modPort n (fun p => { p with
      nextSeq := 0, lastGood := 0xFFF, credits := Vector.replicate 2 128, lastFlit := x.2.now, nonce := x.1, signing := true }) x.2))
  else setPortState n portDown s

def execAxiumLinkTrained (n : Rgn) (ok : Bool) (s : State) : Host.Outcome State Fault Refusal := live s (linkTrained n ok)

/-- Has this event of R343 happened? -/
def downDue (s : State) (n : Rgn) : LinkDown → Bool
  | .lockLost => true
  | .silence => decide ((s.rgn n).port.lastFlit + 1000 ≤ s.now)
  | .replays => decide (8 ≤ (s.rgn n).port.reqRepeats)

def linkDown (n : Rgn) (cause : LinkDown) (s : State) : State :=
  if portLinked ≤ portState s n ∧ portState s n ≤ portFailed ∧ downDue s n cause then
    let s1 := portGoesDown n portTraining s
    raisePlain (rgnSrc n.val 42) (s1.bump (Reg.FAB_PORT_STATUS n) Reg.FAB_PORT_STATUS_DOWNS 1)
  else s

def execAxiumLinkDown (n : Rgn) (cause : LinkDown) (s : State) : Host.Outcome State Fault Refusal := live s (linkDown n cause)

/-- A write of FAB_PORT_CFG: ENABLE 0 holds the port DOWN. -/
def doPortCfg (n : Rgn) (v : Word) (s : State) : State :=
  let s1 := plainWrite (Reg.FAB_PORT_CFG n) v s
  if s1.flag (Reg.FAB_PORT_CFG n) Reg.FAB_PORT_CFG_ENABLE ∨ portState s1 n = portDown then s1 else portGoesDown n portDown s1

/-! ### Flits without payload (R340 to R343, R363) -/

/-- Flits that an ACK covers leave the replay buffer, if it names one of them. -/
def trimReplay (ack : BitVec 12) (p : Port) : Port :=
  if p.replay.any fun f => f.seq == ack then
    { p with replay := (p.replay.dropWhile fun f => f.seq != ack).drop 1 }
  else p

/-- What every flit header brings: an acknowledgement and credits. -/
def flitHeader (n : Rgn) (h : FlitHdr) (s : State) : State :=
  drainPort n (modPort n (fun p =>
    let q := trimReplay h.ack p
    { q with lastFlit := s.now, credits := Vec.modify q.credits (vcIx h.creditVc) (· + h.credits.toNat) }) s)

def idleFlit (n : Rgn) (h : FlitHdr) (s : State) : State := if linkOpen s n then flitHeader n h s else s

def execIdleFlit (n : Rgn) (h : FlitHdr) (s : State) : Host.Outcome State Fault Refusal := live s (idleFlit n h)

/-- The sender replays in order from the flit after the SEQ named. -/
def replayRequested (n : Rgn) (h : FlitHdr) (s : State) : State :=
  if linkOpen s n then
    let s1 := (flitHeader n h s).bump (Reg.FAB_LINK_ERR n) Reg.FAB_LINK_ERR_REPLAYS 1
    modPort n (fun p => { p with
      sent := p.sent ++ p.replay, lastReq := h.ack,
      reqRepeats := if p.lastReq = h.ack ∧ 0 < p.reqRepeats then p.reqRepeats + 1 else 1 }) s1
  else s

def execReplayRequest (n : Rgn) (h : FlitHdr) (s : State) : Host.Outcome State Fault Refusal := live s (replayRequested n h)

/-- A flit that cannot be taken: it is counted and discarded, and a replay request goes out (R341). A flit that is only
out of sequence after one already asked for is discarded in silence. -/
def flitFails (n : Rgn) (kind : FlitError) (s : State) : State :=
  if linkOpen s n then
    let a := Reg.FAB_LINK_ERR n
    let s1 := match kind with
      | .fec => s.bump a Reg.FAB_LINK_ERR_FEC_UNCORR 1
      | .crc => s.bump a Reg.FAB_LINK_ERR_CRC 1
      | .sequence => s
    let again := kind == .sequence && (s.rgn n).port.discarding
    let s2 := modPort n (fun p => { p with lastFlit := s.now, discarding := true }) s1
    if again then s2 else axPlain n 2 0 s2
  else s

def execFlitError (n : Rgn) (kind : FlitError) (s : State) : Host.Outcome State Fault Refusal := live s (flitFails n kind)

def pathGoesDown (n : Rgn) (h : FlitHdr) (s : State) : State :=
  if linkOpen s n then loseCirc n h.circuit.val (flitHeader n h s) else s

def execPathDown (n : Rgn) (h : FlitHdr) (s : State) : Host.Outcome State Fault Refusal := live s (pathGoesDown n h)

/-! ### Timers of a circuit (R348, R363) -/

def sendProbe (n : Rgn) (c : Nat) (cmd : Option Nat) (s : State) : State :=
  modCirc n c (fun x => { x with probed := some s.now, retry := none }) (axRequest n c axProbe 0 0 cmd none 0 s)

def probeDue (n : Rgn) (c : Nat) (s : State) : State :=
  match circOf s n c with
  | none => s
  | some x =>
    if (circState s n c = circBound ∨ circState s n c = circUnbinding) ∧ 0 < circUse s n c ∧ x.probed.isNone ∧
        x.lastRx + probeTicks s n ≤ s.now then sendProbe n c none s
    else s

def execProbeTimer (n : Rgn) (c : Fin 4096) (s : State) : Host.Outcome State Fault Refusal := live s (probeDue n c.val)

def reprobe (n : Rgn) (c : Nat) (s : State) : State :=
  match circOf s n c with
  | none => s
  | some x =>
    match x.retry with
    | none => s
    | some t => if circState s n c = circBinding ∧ t ≤ s.now then sendProbe n c x.cmd s else s

def execBindReprobe (n : Rgn) (c : Fin 4096) (s : State) : Host.Outcome State Fault Refusal := live s (reprobe n c.val)

def circTimes (n : Rgn) (c : Nat) (s : State) : State :=
  match circOf s n c with
  | none => s
  | some x =>
    if circState s n c = circBinding then
      if x.first + circTimeout s n ≤ s.now then
        let s1 := modPort n (fun p => { p with asks := p.asks.filter fun a => a.circuit != c }) s
        freeCirc n c (match x.cmd with | some id => endCommand id ST_NO_CIRCUIT 0 s1 | none => s1)
      else s
    else match x.probed with
      | some t => if t + circTimeout s n ≤ s.now then loseCirc n c s else s
      | none => s

def execCircuitTimeout (n : Rgn) (c : Fin 4096) (s : State) : Host.Outcome State Fault Refusal := live s (circTimes n c.val)

/-! ### A message arrives (R350 to R352) -/

/-- The link layer has taken a message's flits: they are acknowledged, owe credits, and the circuit has been heard from. -/
def axArrive (n : Rgn) (response : Bool) (m : AxMsg) (s : State) : State :=
  let k := flitsFor (32 + m.data.length + m.enables.length)
  let s1 := modPort n (fun p => { p with
    lastGood := p.lastGood + BitVec.ofNat 12 k, lastFlit := s.now, discarding := false,
    owed := Vec.modify p.owed (vcIx response) (· + k) }) s
  modCirc n m.circuit.val (fun x => { x with lastRx := s.now }) s1

/-- Does the message come from the peer that the entry names? -/
def fromPeer (s : State) (n : Rgn) (m : AxMsg) : Bool :=
  circPeer s n m.circuit.val == m.fromChip.toNat && circPart s n m.circuit.val == m.fromPart.val
def onBound (s : State) (n : Rgn) (m : AxMsg) : Bool := circState s n m.circuit.val == circBound && fromPeer s n m

/-- Answer a request. -/
def axReply (n : Rgn) (m : AxMsg) (ty cause arg : Nat) (body : List Byte) (s : State) : State :=
  axSend n m.circuit.val ty cause m.reqId.toNat m.tag.toNat arg 0 body s
def axAccept (n : Rgn) (m : AxMsg) (s : State) : State := axReply n m axAckT 0 0 [] s
def axRefuse (n : Rgn) (m : AxMsg) (cause : Nat) (s : State) : State :=
  let s1 := if cause = 3 then s.bump (Reg.FAB_RX_DROP n) Reg.FAB_RX_DROP_REFUSED 1
    else if cause = 2 then s.bump (Reg.FAB_RX_DROP n) Reg.FAB_RX_DROP_STALE 1 else s
  axReply n m axNak cause 0 [] s1

def countUnbound (n : Rgn) (s : State) : State := s.bump (Reg.FAB_RX_DROP n) Reg.FAB_RX_DROP_UNBOUND 1

/-- A request on a BOUND entry that names its sender, else UNBOUND_DROP (R352). -/
def onRequest (n : Rgn) (m : AxMsg) (f : State → State) (s : State) : State :=
  if linkOpen s n then
    let s1 := axArrive n false m s
    if onBound s1 n m then f s1 else axRefuse n m 1 (countUnbound n s1)
  else s

/-- PROBE (R348, R352): an entry for the same number that names the sender answers ACK, a BINDING one included, so that the
ends can be bound in either order. -/
def probed (n : Rgn) (m : AxMsg) (s : State) : State :=
  if linkOpen s n then
    let s1 := axArrive n false m s
    let st := circState s1 n m.circuit.val
    if (st = circBound ∨ st = circBinding) ∧ fromPeer s1 n m then axAccept n m s1 else axRefuse n m 1 (countUnbound n s1)
  else s

def execProbe (n : Rgn) (m : AxMsg) (s : State) : Host.Outcome State Fault Refusal := live s (probed n m)

/-! ### TILE_GET and TILE_PUT (R353) -/

/-- The command of the entry's partition with the message's TAG that runs in the region. -/
def taggedCmd (s : State) (n : Rgn) (m : AxMsg) : Option Cmd :=
  match (s.rgn n).plan.bind s.cmd with
  | none => none
  | some c => if c.tag = m.tag.toNat ∧ c.part = s.partOf n then some c else none

/-- Is the tile in one of the command's I/O windows of the tier? -/
def inIoWindow (c : Cmd) (n : Rgn) (tier tile : Nat) : Bool :=
  (ioWins c.argBlock).any fun w => w.limit != 0 && w.rgn == n.val && w.tier == tier &&
    decide (w.off / 4096 ≤ tile) && decide (tile < w.off / 4096 + w.limit)

/-- How a tile request is served: the partition whose key protects the tile, or the NAK's cause. -/
inductive Serve where
  | tile (p : Option Part)
  | nak (cause : Nat)
  deriving DecidableEq, Repr

def serve (s : State) (n : Rgn) (m : AxMsg) : Serve :=
  let g := m.gta
  let tile := gtaOff g / 4096
  let mine := gtaOk g && gtaChip g == myChip s && gtaRgn g == n.val
  let lot := (tile / lotTiles, m.fromChip.toNat, m.circuit.val)
  let offer := if mine && gtaTier g == 2 then s.offers.find? fun o => o.rgn == n.val && o.lent.contains lot else none
  let gone := mine && gtaTier g == 2 && s.offers.any fun o => o.rgn == n.val && o.gone.contains lot
  match offer with
  | some o => .tile (some o.part)
  | none =>
    match taggedCmd s n m with
    | some c =>
      if mine ∧ (s.partOf n).map Fin.val = some (gtaPart g) ∧ (gtaTier g = 1 ∨ gtaTier g = 2) ∧ inIoWindow c n (gtaTier g) tile then
        .tile c.part
      else .nak 3
    | none => if gone then .nak 3 else .nak 2

def reqTile (m : AxMsg) : Nat := gtaOff m.gta / 4096

/-- A lot request ends deep idle (R385). -/
def served (n : Rgn) (m : AxMsg) (f : Option Part → State → State) (s : State) : State :=
  onRequest n m (fun s =>
    let s1 := if gtaTier m.gta = 2 then endDeepIdle s else s
    match serve s1 n m with
    | .tile p => f p s1
    | .nak c => axRefuse n m c s1) s

def tileGet (n : Rgn) (m : AxMsg) (s : State) : State :=
  served n m (fun p s =>
    let tier := gtaTier m.gta
    if tilePoisoned s n.val tier (reqTile m) then
      axRefuse n m 4 (lineUe n (tier == 1) none (gtaOff m.gta) s)
    else axReply n m axData 0 0 (readTile s p n.val tier (reqTile m)) s) s

def execTileGet (n : Rgn) (m : AxMsg) (s : State) : Host.Outcome State Fault Refusal := live s (tileGet n m)

/-- The bits that a TILE_PUT writes: whole lines of ARG's mask, or the enabled bytes of the block that CAUSE bit 7 marks. -/
def putBits (m : AxMsg) : List Byte :=
  (List.range 4096).map fun j =>
    if m.arg.getLsbD (j / 64) && (!m.cause.getLsbD 7 || (m.enables.getD (j / 8) 0).getLsbD (j % 8)) then 0xFF else 0

def tilePut (n : Rgn) (m : AxMsg) (s : State) : State :=
  served n m (fun p s =>
    let tier := gtaTier m.gta
    let mask := putBits m
    let a := tileAddr n.val tier (reqTile m)
    if badLine s a fun i => !noneIn (lineMask mask i) && !allIn (lineMask mask i) then
      axRefuse n m 4 (lineUe n (tier == 1) none (gtaOff m.gta) s)
    else axAccept n m (storeMasked p n tier (reqTile m) (Config.fit 4096 m.data) mask s)) s

def execTilePut (n : Rgn) (m : AxMsg) (s : State) : Host.Outcome State Fault Refusal := live s (tilePut n m)

/-! ### SYNC_SIGNAL (R354) -/

def syncSignal (n : Rgn) (m : AxMsg) (s : State) : State :=
  onRequest n m (fun s =>
    match taggedCmd s n m with
    | some _ => axAccept n m (signalSem n (m.arg.toNat % 256) (m.arg.toNat / 256 % 16) s)
    | none => axRefuse n m 2 (s.bump (Reg.SEQ_STATUS n) Reg.SEQ_STATUS_STALE 1)) s

def execSyncSignal (n : Rgn) (m : AxMsg) (s : State) : Host.Outcome State Fault Refusal := live s (syncSignal n m)

/-! ### Responses to the port's own requests (R348, R353, R358, R360, R364, Table 14.6) -/

inductive AxAnswer where
  | data (b : List Byte)
  | ack
  | nak (cause : Nat)
  | grant (arg : Nat)
  deriving DecidableEq, Repr

/-- Status and TM_ERR cause of a NAK (Table 14.6). -/
def nakStatus (lent : Bool) (cause : Nat) : Nat :=
  if cause = 1 then ST_NO_CIRCUIT else if cause = 3 ∧ lent then ST_REMOTE_LOST
  else if cause = 5 then ST_ADMIT_MEMORY else if cause = 6 then ST_BAD_PARAM else ST_TIER_ERROR
def nakCause (lent : Bool) (cause : Nat) : Nat :=
  if cause = 4 then 1 else if cause = 3 ∧ lent then 7 else if cause = 1 then 8 else 3

/-- Does a tile request reach a borrowed lot, rather than a window of another chip? -/
def reqLent (s : State) (n : Rgn) (q : Req) : Bool :=
  match reqDesc s n q with
  | none => true
  | some d => d.tier (q.write && d.kind == 3) == 4

/-- A tile request is answered. -/
def answerReq (n : Rgn) (q : Req) (a : AxAnswer) (s : State) : State :=
  match a with
  | .data b =>
    if q.write then s
    else match q.desc with
      | some d => deliver n d q.tile (maskBytes (reqMask s n q) (Config.fit 4096 b)) s
      | none => fwDone n q (Config.fit 4096 b) s
  | .ack =>
    if q.write then
      (match q.desc with
      | some d => acked n d s
      | none => fwDone n q [] s)
    else s
  | .nak cause => reqFails n q (nakCause (reqLent s n q) cause) (nakStatus (reqLent s n q) cause) s
  | .grant _ => s

/-- Does an answer fit a tile request? -/
def fitsReq (q : Req) : AxAnswer → Bool
  | .data _ => !q.write
  | .ack => q.write
  | .nak _ => true
  | .grant _ => false

/-- Does an answer fit a request of another type (Table 14.5)? -/
def fitsAsk (x : AxAsk) : AxAnswer → Bool
  | .data _ => false
  | .ack => x.type != axAsk
  | .nak _ => true
  | .grant _ => x.type == axAsk

/-- A bind's PROBE or a circuit's PROBE is answered. -/
def answerProbe (n : Rgn) (c : Nat) (x : AxAsk) (ok : Bool) (s : State) : State :=
  if circState s n c = circBinding then
    if ok then
      let s1 := setCircState n c circBound (modCirc n c (fun y => { y with probed := none, retry := none, cmd := none }) s)
      match x.cmd with
      | some id => commitAs id ST_OK c [] s1
      | none => s1
    else modCirc n c (fun y => { y with probed := none, retry := some (s.now + 1000) }) s
  else if ok then modCirc n c (fun y => { y with probed := none }) s
  else s

/-- A LEND_GRANT commits the borrow: the lots enter the lent tier (R358). -/
def takeGrant (n : Rgn) (c : Nat) (x : AxAsk) (arg : Nat) (s : State) : State :=
  match x.cmd.bind s.cmd with
  | none => s
  | some d =>
    match d.extents with
    | [] => s
    | e :: _ =>
      let k := e.tiles / lotTiles
      let first := e.first / lotTiles
      let p := cmdPart d
      let new : List Borrow := (List.range k).map fun i =>
        ⟨p, n.val, first + i, circPeer s n c, c, arg / 2 ^ 32 % 256 + i, x.offer, none, false⟩
      let s1 := addAllocs p [⟨e, .lots x.offer⟩] { s with borrows := s.borrows ++ new }
      showLend n (commitAs d.id ST_OK first [] s1)

def answerAsk (n : Rgn) (c : Nat) (x : AxAsk) (a : AxAnswer) (s : State) : State :=
  if x.type = axProbe then answerProbe n c x (a == .ack) s
  else match a with
    | .grant arg => takeGrant n c x arg s
    | .nak cause =>
      let s1 := tmError n 0 4 0 (nakCause false cause) 0 s
      (match x.cmd with
      | none => s1
      | some id =>
        if x.type = axSignal then tmEnd n (some id) 0 4 0 (nakCause false cause) 0 (nakStatus false cause) s
        else endCommand id (nakStatus false cause) 0 s1)
    | _ => s

/-- A response on a circuit: to the request that its REQ_ID names; late if that request has ended, or the circuit is lost;
on a free entry unbound. -/
def axResponse (n : Rgn) (m : AxMsg) (a : AxAnswer) (s : State) : State :=
  if linkOpen s n then
    let s1 := axArrive n true m s
    let c := m.circuit.val
    let st := circState s1 n c
    if st = circFree ∨ ¬ fromPeer s1 n m then countUnbound n s1
    else if st = circLost then countLate n s1
    else match (s1.rgn n).reqs.find? fun q => q.remote == some (c, m.reqId.toNat) with
      | some q =>
        if fitsReq q a then
          let s2 := dropReq n q.id s1
          showMover n (showCirc n c (if q.killed then countLate n s2 else answerReq n q a s2))
        else s1
      | none =>
        match (s1.rgn n).port.asks.find? fun x => x.circuit == c && x.id == m.reqId && x.type != axHello with
        | some x => if fitsAsk x a then showCirc n c (answerAsk n c x a (dropAsk n x.id s1)) else s1
        | none => countLate n s1
  else s

def execTileData (n : Rgn) (m : AxMsg) (s : State) : Host.Outcome State Fault Refusal := live s (axResponse n m (.data m.data))

def execLendGrant (n : Rgn) (m : AxMsg) (s : State) : Host.Outcome State Fault Refusal :=
  live s (axResponse n m (.grant m.arg.toNat))

/-! ### HELLO (R344 to R346) -/

def helloAsk (s : State) (n : Rgn) (m : AxMsg) : Option AxAsk :=
  (s.rgn n).port.asks.find? fun x => x.type == axHello && x.id == m.reqId

/-- HELLO body up to the keys, and the whole (Table 14.15): identity keys are fused or generated, signatures are made by Tahr. -/
def helloHead (p : Port) : List Byte := Config.fit 32 p.nonce ++ Config.fit 32 p.peerNonce ++ Config.fit 48 Config.identityHash ++ List.replicate 16 0

def helloArg (s : State) (n : Rgn) : Nat :=
  myChip s + 2 ^ 18 * s.fld Reg.FAB_CHIP_ID Reg.FAB_CHIP_ID_VALID + 2 ^ 19 * n.val

def helloBody (s : State) (n : Rgn) : List Byte :=
  let p := (s.rgn n).port
  let msg := Config.sha384 (leBytes 8 (helloArg s n) ++ helloHead p)
  helloHead p ++ Config.identityKeys ++ Config.fit 384 (Config.identitySign 0 msg s.free) ++ Config.fit 16224 (Config.identitySign 1 msg s.free)

/-- The signed HELLO goes out, and the port waits for its answer, or for the chip ID. -/
def putHello (n : Rgn) (s : State) : State :=
  let id := s.nextId
  let b := axBytes axHello 0 (id % 65536) 0 (helloArg s n) 0 (helloBody s n)
  let valid := s.flag Reg.FAB_CHIP_ID Reg.FAB_CHIP_ID_VALID
  let s1 := { s with nextId := id + 1, free := s.free + 1 }
  let s2 := modPort n (fun p => { p with
    signing := false, helloValid := valid,
    asks := (p.asks.filter fun a => a.type != axHello) ++ [⟨BitVec.ofNat 16 id, 0, axHello, none, none, 0, s.now⟩],
    waiting := p.waiting ++ (cutFlits false 0 (flitsFor b.length) b).map fun f => { f with hello := true } }) s1
  drainPort n ((setPortState n portHello s2).setFld (Reg.FAB_PORT_STATUS n) Reg.FAB_PORT_STATUS_ID_WAIT (bit !valid))

/-- HELLO_SIGNED: Tahr finishes signing, in its turn. -/
def sendHello (n : Rgn) (s : State) : State :=
  let st := portState s n
  if (s.rgn n).port.signing ∧ (st = portLinked ∨ st = portHello) then tahrTurn (tqHello n.val) (putHello n) s else s

def execHelloSigned (n : Rgn) (s : State) : Host.Outcome State Fault Refusal := live s (sendHello n)

/-- A switch's HELLO: its nonce is answered with a signed HELLO; a short one is refused. -/
def helloArrives (n : Rgn) (nonce : List Byte) (short : Bool) (s : State) : State :=
  let st := portState s n
  if st = portLinked ∨ st = portHello then
    let k := flitsFor (if short then 32 else 17204)
    let s1 := modPort n (fun p => { p with
      lastGood := p.lastGood + BitVec.ofNat 12 k, lastFlit := s.now, discarding := false,
      owed := Vec.modify p.owed 0 (· + k) }) s
    if short then
      let b := axBytes axNak 3 0 0 0 0 []
      drainPort n (modPort n (fun p => { p with
        waiting := p.waiting ++ (cutFlits true 0 1 b).map fun f => { f with hello := true } })
        (s1.bump (Reg.FAB_RX_DROP n) Reg.FAB_RX_DROP_REFUSED 1))
    else tahrAsk (tqHello n.val) (modPort n (fun p => { p with peerNonce := nonce, signing := true }) s1)
  else s

def execHello (n : Rgn) (nonce : List Byte) (short : Bool) (s : State) : Host.Outcome State Fault Refusal :=
  live s (helloArrives n nonce short)

/-- The first port to join locks the chip ID, which Tahr then measures (R344, R430). -/
def lockChipId (s : State) : State :=
  if s.flag Reg.FAB_CHIP_ID Reg.FAB_CHIP_ID_LOCKED then s
  else extendMr 9 (leBytes 3 ((s.reg Reg.FAB_CHIP_ID).toNat % 2 ^ 19)) (s.setFld Reg.FAB_CHIP_ID Reg.FAB_CHIP_ID_LOCKED 1)

/-- ACK to a HELLO: with VALID 1 the port is JOINED, and the chip ID is locked. -/
def helloAccepted (n : Rgn) (x : AxAsk) (s : State) : State :=
  let s1 := dropAsk n x.id (modPort n (fun p => { p with lastFlit := s.now, discarding := false, lastGood := p.lastGood + 1,
                                                         owed := Vec.modify p.owed 1 (· + 1) }) s)
  if portState s n = portHello ∧ (s.rgn n).port.helloValid then
    drainPort n (showJoin n (setPortState n portJoined (lockChipId s1)))
  else s1

/-- NAK to a HELLO: the identity is refused. -/
def helloRefused (n : Rgn) (x : AxAsk) (s : State) : State :=
  if portState s n = portHello then raisePlain (rgnSrc n.val 45) (setPortState n portFailed (dropAsk n x.id s)) else s

def axAcked (n : Rgn) (m : AxMsg) (s : State) : State :=
  match if linkOpen s n then helloAsk s n m else none with
  | some x => helloAccepted n x s
  | none => axResponse n m .ack s

def execAxiumAck (n : Rgn) (m : AxMsg) (s : State) : Host.Outcome State Fault Refusal := live s (axAcked n m)

def axNaked (n : Rgn) (m : AxMsg) (s : State) : State :=
  match if linkOpen s n then helloAsk s n m else none with
  | some x => helloRefused n x s
  | none => axResponse n m (.nak m.cause.toNat) s

def execNak (n : Rgn) (m : AxMsg) (s : State) : Host.Outcome State Fault Refusal := live s (axNaked n m)

/-- FAB_CHIP_ID (R344): dropped once a port has joined; a port in HELLO that waits for the ID has a new HELLO signed. -/
def doChipId (v : Word) (s : State) : State :=
  if s.flag Reg.FAB_CHIP_ID Reg.FAB_CHIP_ID_LOCKED then s
  else
    let s1 := plainWrite Reg.FAB_CHIP_ID v s
    if s1.flag Reg.FAB_CHIP_ID Reg.FAB_CHIP_ID_VALID then
      allRgns.foldl (fun t (n : Rgn) =>
        if portState t n = portHello ∧ ¬ (t.rgn n).port.helloValid then
          tahrAsk (tqHello n.val)
            (modPort n (fun p => { p with signing := true }) (t.setFld (Reg.FAB_PORT_STATUS n) Reg.FAB_PORT_STATUS_ID_WAIT 0))
        else t) s1
    else s1

def execFabChipId (who : Requester) (v : Word) (s : State) : Host.Outcome State Fault Refusal :=
  live s (guardWrite who Reg.FAB_CHIP_ID 8 v (doChipId v))

end Sys2Proof.Machine
end

