-- ==== Sys2Proof/Machine/Lending.lean ====
section
/-!
DEFINITION. Binding and unbinding circuits, and the lent tier (R348, R349, R357 to R362): the five fabric commands, the
lending messages and the notices.
-/

namespace Sys2Proof.Machine

/-- An accepted command whose end other events bring. -/
def startWork (id : Nat) (f : Cmd → Cmd) (s : State) : State :=
  acceptAs id (fun d => f { d with planStart := max 1 s.now }) s |>.modCmd id fun d => { d with phase := .running }

/-! ### FAB_CIRCUIT_BIND (R348) -/

def bindCheck (c : Cmd) (s : State) : Fail :=
  let port := c.p1 0x10
  let n : Rgn := Fin.ofNat 16 port
  let k := c.p2 0x12
  let other := (s.rgn n).port.circuits.any fun x => x.index != k && circPeer s n x.index == c.p4 0x14 && circPart s n x.index == c.p1 0x19
  firstFail [reserved c [(0x10, 1), (0x12, 2), (0x14, 4), (0x18, 1), (0x19, 1)], param 0x10 (inPart s c port),
    param 0x12 (decide (k < 4096)), param 0x14 (decide (c.p4 0x14 < 2 ^ 18)), param 0x18 (c.p1 0x18 == port),
    param 0x19 (decide (c.p1 0x19 < 16)), param 0x12 (circState s n k == circFree), param 0x14 (!other), quarantineFail s [port]]

def bindAct (c : Cmd) (s : State) : State :=
  let n : Rgn := Fin.ofNat 16 (c.p1 0x10)
  let k := c.p2 0x12
  let s1 := startWork c.id (fun d => { d with span := [n.val] }) s
  let v := Reg.FAB_CIRC_STATE.put (Reg.FAB_CIRC_PEER_PARTITION.put (Reg.FAB_CIRC_PEER_CHIP.put 0 (c.p4 0x14)) (c.p1 0x19)) circBinding
  let s2 := modPort n (fun p => { p with circuits := p.circuits ++ [⟨k, s.now, s.now, none, none, some c.id⟩] }) (s1.setReg (Reg.FAB_CIRC n k) v)
  sendProbe n k (some c.id) s2

def execFabCircuitBind (r : Ring) (_ : Choice) (s : State) : Host.Outcome State Fault Refusal :=
  live s (process 0x60 r (quiet bindCheck) bindAct)

/-! ### FAB_CIRCUIT_UNBIND (R349) -/

def unbindCheck (c : Cmd) (s : State) : Fail :=
  let port := c.p1 0x10
  let k := c.p2 0x12
  firstFail [reserved c [(0x10, 1), (0x12, 2)], param 0x10 (inPart s c port), param 0x12 (decide (k < 4096)),
    param 0x12 (!s.flag (Reg.FAB_CIRC (Fin.ofNat 16 port) k) Reg.FAB_CIRC_LOTS), quarantineFail s [port]]

/-- No new request uses an UNBINDING entry; a bind still in progress ends. -/
def startUnbind (n : Rgn) (k : Nat) (s : State) : State :=
  let bind := (circOf s n k).bind Circuit.cmd
  let s1 := match bind with
    | some id => endCommand id ST_NO_CIRCUIT 0 s
    | none => s
  setCircState n k circUnbinding (modCirc n k (fun x => { x with cmd := none, retry := none }) s1)

/-- A LOST entry, or one without a request outstanding, is freed. -/
def tryFree (n : Rgn) (k : Nat) (s : State) : State := if circUse s n k = 0 then freeCirc n k s else s

def unbindWork (c : Cmd) (s : State) : State :=
  let n : Rgn := Fin.ofNat 16 (c.p1 0x10)
  let k := c.p2 0x12
  let s1 := if circState s n k = circUnbinding ∨ circState s n k = circLost then tryFree n k s else s
  if circState s1 n k = circFree then commitAs c.id ST_OK k [] s1 else s1

def unbindAct (c : Cmd) (s : State) : State :=
  let n : Rgn := Fin.ofNat 16 (c.p1 0x10)
  let k := c.p2 0x12
  let s1 := startWork c.id (fun d => { d with span := [n.val] }) s
  unbindWork c (if circState s1 n k = circBinding ∨ circState s1 n k = circBound then startUnbind n k s1 else s1)

def execFabCircuitUnbind (r : Ring) (_ : Choice) (s : State) : Host.Outcome State Fault Refusal :=
  live s (process 0x61 r (quiet unbindCheck) unbindAct)

/-! ### LEND_OFFER (R357) -/

/-- The offer ID: chip ID and a serial that firmware picks. -/
def offerId (s : State) (ch : Choice) : BitVec 32 := BitVec.ofNat 32 (myChip s * 2 ^ 14 + ch.handle.toNat % 2 ^ 14)

/-- Lots that a region has on offer. -/
def offered (s : State) (n : Rgn) : Nat := (s.offers.filter fun o => o.rgn == n.val).foldl (fun k o => k + (offerLots s o).length) 0

def offerCheck (c : Cmd) (s : State) : Fail :=
  let n := c.p1 0x10
  firstFail [reserved c [(0x10, 1), (0x14, 4)], param 0x10 (inPart s c n),
    param 0x14 (decide (1 ≤ c.p4 0x14) && decide (offered s (Fin.ofNat 16 n) + c.p4 0x14 ≤ 256)), quarantineFail s [n]]

/-- Is some aligned run of herd tiles free? -/
def lotRoom (s : State) (n : Rgn) (k : Nat) : Bool :=
  (List.range (tierCap s n 2 / lotTiles)).any fun i => isFree s ⟨n.val, 2, lotTiles * i, k⟩

/-- The lots are allocated and zeroed, and the command commits. A serial still in use, or a run that is not aligned, is no
choice of firmware's. -/
def offerAct (ch : Choice) (c : Cmd) (s : State) : State :=
  let n : Rgn := Fin.ofNat 16 (c.p1 0x10)
  let id := offerId s ch
  let e : Extent := ⟨n.val, 2, ch.first, lotTiles * c.p4 0x14⟩
  if s.offers.any fun o => o.id == id && !(o.withdrawn && o.lent.isEmpty) then s
  else if ¬ quotaOk s (cmdPart c) 2 e.tiles then reject c.id ST_QUOTA 2 s
  else if ch.first % lotTiles ≠ 0 ∨ ¬ isFree s e then (if lotRoom s n e.tiles then s else reject c.id ST_ADMIT_MEMORY 0 s)
  else
    let o : Offer := ⟨cmdPart c, id, n.val, e.first, c.p4 0x14, [], [], false, none⟩
    let s1 := addAllocs (cmdPart c) [⟨e, .lots id⟩] (acceptAs c.id (fun d => { d with span := [n.val] }) s)
    let s2 := zeroRange (some (cmdPart c)) n.val 2 e.first e.tiles { s1 with offers := (s1.offers.filter fun x => x.id != id) ++ [o] }
    showLend n (commitAs c.id ST_OK id.toNat [] s2)

def execLendOffer (r : Ring) (ch : Choice) (s : State) : Host.Outcome State Fault Refusal :=
  live s (process 0x62 r (quiet offerCheck) (offerAct ch))

/-! ### LEND_BORROW (R358) -/

/-- Lots in use or held by a borrow in progress, in a region. -/
def lotsUsed (s : State) (n : Nat) : List Nat :=
  ((s.borrows.filter fun b => b.rgn == n).map Borrow.lot) ++
  (s.cmds.flatMap fun c => if c.live ∧ c.opcode = 0x64 then
    (c.extents.filter fun e => e.rgn == n).flatMap fun e => (List.range (e.tiles / lotTiles)).map (· + e.first / lotTiles) else [])

/-- The run of lot indices a borrow takes: above the highest in use, or else the lowest free run. -/
def lotRun (s : State) (n k : Nat) : Option Nat :=
  let used := lotsUsed s n
  let top := used.foldl (fun a l => max a (l + 1)) 0
  if top + k ≤ 256 then some top
  else (List.range 256).find? fun f => decide (f + k ≤ 256) && (List.range k).all fun i => !used.contains (f + i)

def borrowCheck (c : Cmd) (s : State) : Fail :=
  let n := c.p1 0x10
  firstFail [reserved c [(0x10, 1), (0x14, 4), (0x18, 4), (0x1C, 4)], param 0x10 (inPart s c n),
    param 0x14 (decide (c.p4 0x14 < 2 ^ 18)), param 0x18 (c.p4 0x18 / 2 ^ 14 == c.p4 0x14),
    param 0x1C (decide (1 ≤ c.p4 0x1C) && decide (c.p4 0x1C ≤ 256)),
    param 0x10 ((circTo s (Fin.ofNat 16 n) (c.p4 0x14)).isSome), quarantineFail s [n]]

def borrowAct (c : Cmd) (s : State) : State :=
  let n : Rgn := Fin.ofNat 16 (c.p1 0x10)
  let k := c.p4 0x1C
  match circTo s n (c.p4 0x14) with
  | none => s
  | some circ =>
    if ¬ quotaOk s (cmdPart c) 4 (lotTiles * k) then reject c.id ST_QUOTA 4 s
    else match lotRun s n.val k with
      | none => reject c.id ST_ADMIT_MEMORY 0 s
      | some f =>
        let s1 := startWork c.id (fun d => { d with
          span := [n.val], extents := [⟨n.val, 4, lotTiles * f, lotTiles * k⟩], resv := [(n.val, 4, lotTiles * k)] }) s
        axRequest n circ axAsk 0 (c.p4 0x18 + 2 ^ 32 * k) (some c.id) none (BitVec.ofNat 32 (c.p4 0x18)) s1

def execLendBorrow (r : Ring) (_ : Choice) (s : State) : Host.Outcome State Fault Refusal :=
  live s (process 0x64 r (quiet borrowCheck) borrowAct)

/-- LEND_ASK at the lender (R358): a run of unlent lots of a live offer of the partition that the circuit names. -/
def askArrives (n : Rgn) (m : AxMsg) (s : State) : State :=
  onRequest n m (fun s =>
    let s := endDeepIdle s
    let id := BitVec.ofNat 32 (m.arg.toNat % 2 ^ 32)
    let k := m.arg.toNat / 2 ^ 32 % 512
    match s.offers.find? fun o => o.id == id && o.rgn == n.val && !o.withdrawn && some o.part == s.partOf n with
    | none => axReply n m axNak 6 0 [] s
    | some o =>
      let idle := idleLots s o
      match idle.find? fun l => decide (0 < k) && (List.range k).all fun i => idle.contains (l + i) with
      | none => axReply n m axNak 5 0 [] s
      | some l =>
        let new := (List.range k).map fun i => (l + i, m.fromChip.toNat, m.circuit.val)
        axReply n m axGrant 0 (id.toNat + 2 ^ 32 * l) []
          (showLend n (modOffer id (fun x => { x with lent := x.lent ++ new }) s))) s

def execLendAsk (n : Rgn) (m : AxMsg) (s : State) : Host.Outcome State Fault Refusal := live s (askArrives n m)

/-! ### LEND_WITHDRAW (R360) -/

def lenderOffer (s : State) (p : Part) (id : Nat) : Option Offer :=
  s.offers.find? fun o => o.id.toNat == id && o.part == p && (!o.withdrawn || !o.lent.isEmpty)
def borrowedUnder (s : State) (p : Part) (id : Nat) : List Borrow := s.borrows.filter fun b => b.part == p && b.offer.toNat == id

def withdrawCheck (c : Cmd) (s : State) : Fail :=
  let id := c.p4 0x10
  let rgns := match lenderOffer s (cmdPart c) id with
    | some o => [o.rgn]
    | none => (borrowedUnder s (cmdPart c) id).map Borrow.rgn
  firstFail [reserved c [(0x10, 4), (0x14, 4)], param 0x10 (!rgns.isEmpty), quarantineFail s rgns]

/-- One LEND_RECALL on each circuit over which lots of the offer are lent. -/
def sendRecalls (n : Rgn) (o : Offer) (cmd : Option Nat) (ms : Nat) : List Nat → State → State
  | [], s => s
  | c :: cs, s => sendRecalls n o cmd ms cs (axRequest n c axRecall 0 (o.id.toNat + 2 ^ 32 * ms) cmd none o.id s)

/-- The lender takes its offer back: no further grant, idle lots freed at once, the lent ones recalled; without notice they
are refused and freed at once, no request to them being in progress between steps. -/
def withdrawOffer (o : Offer) (cmd : Option Nat) (ms : Nat) (s : State) : State :=
  let n : Rgn := Fin.ofNat 16 o.rgn
  let s1 := sendRecalls n o cmd ms ((o.lent.map fun x => x.2.2).eraseDups) (freeLots o (idleLots s o) s)
  let s2 := modOffer o.id (fun x => { x with withdrawn := true, notice := if ms = 0 then none else some (s.now + 100000 * ms) }) s1
  showLend n (if ms = 0 then takeBack o (fun _ => true) s2 else s2)

/-- Return one lot after another with LEND_RETURN: they leave the lent tier. -/
def sendReturns (n : Rgn) (cmd : Option Nat) : List Borrow → State → State
  | [], s => s
  | b :: bs, s =>
    sendReturns n cmd bs (dropBorrows n (fun x => x.lot == b.lot)
      (axRequest n b.circuit axReturn 0 (b.offer.toNat + 2 ^ 32 * b.lenderLot + 2 ^ 40) cmd none b.offer s))

def returnLots (cmd : Option Nat) (l : List Borrow) (s : State) : State :=
  allRgns.foldl (fun t (n : Rgn) => showLend n (sendReturns n cmd (l.filter fun b => b.rgn == n.val) t)) s

/-- Has an unretired command a request outstanding to a lot? -/
def lotBusy (s : State) (b : Borrow) : Bool :=
  ((s.rgns.toList.getD b.rgn Region.reset).reqs).any fun q =>
    (q.remote.map Prod.fst) == some b.circuit && !q.killed && decide (q.addr / 2 ^ 30 = b.lenderLot)

/-- The work of LEND_WITHDRAW that is left: the borrower returns lots that nothing uses; the command commits when every
affected lot is free. DETAIL, kept in `stepNo`, is the number of lots. -/
def withdrawWork (c : Cmd) (s : State) : State :=
  let p := cmdPart c
  let id := c.p4 0x10
  let s1 := returnLots (some c.id) ((borrowedUnder s p id).filter fun b => !lotBusy s b) s
  let lent := s1.offers.any fun o => o.id.toNat == id && o.part == p && !o.lent.isEmpty
  let back := s1.rgns.toList.any fun r => r.port.asks.any fun a => a.cmd == some c.id && a.type == axReturn
  if lent ∨ ¬ (borrowedUnder s1 p id).isEmpty ∨ back then s1 else commitAs c.id ST_OK c.stepNo [] s1

def withdrawAct (c : Cmd) (s : State) : State :=
  let p := cmdPart c
  let id := c.p4 0x10
  let go := fun (rgns : List Nat) (k : Nat) (f : State → State) =>
    withdrawWork { c with stepNo := k } (f (startWork c.id (fun d => { d with span := rgns.eraseDups, stepNo := k }) s))
  match lenderOffer s p id with
  | some o => go [o.rgn] (offerLots s o).length (withdrawOffer o (some c.id) (c.p4 0x14))
  | none => go ((borrowedUnder s p id).map Borrow.rgn) (borrowedUnder s p id).length (fun t => t)

def execLendWithdraw (r : Ring) (_ : Choice) (s : State) : Host.Outcome State Fault Refusal :=
  live s (process 0x63 r (quiet withdrawCheck) withdrawAct)

/-- WITHDRAW_NOTICE_EXPIRY: the lender refuses the lots still lent, and frees them. -/
def withdrawEnds (n : Rgn) (id : BitVec 32) (s : State) : State :=
  match s.offers.find? fun o => o.id == id && o.rgn == n.val with
  | none => s
  | some o =>
    match o.notice with
    | none => s
    | some t =>
      if t ≤ s.now then showLend n (takeBack o (fun _ => true) (modOffer id (fun x => { x with notice := none }) s)) else s

def execWithdrawNoticeExpiry (n : Rgn) (offer : BitVec 32) (s : State) : Host.Outcome State Fault Refusal :=
  live s (withdrawEnds n offer)

/-! ### LEND_RECALL and LEND_RETURN (R360, R361) -/

/-- The borrower raises its lot-recall source with the offer and the notice, which it counts from now. -/
def recallArrives (n : Rgn) (m : AxMsg) (s : State) : State :=
  onRequest n m (fun s =>
    let id := BitVec.ofNat 32 (m.arg.toNat % 2 ^ 32)
    let ms := m.arg.toNat / 2 ^ 32
    let mark := fun (b : Borrow) =>
      if b.rgn = n.val ∧ b.offer = id ∧ b.circuit = m.circuit.val then { b with recalled := true, notice := some (s.now + 100000 * ms) } else b
    raiseDetail (rgnSrc n.val 44) none (m.arg.toNat) (axAccept n m (showLend n { s with borrows := s.borrows.map mark }))) s

def execLendRecall (n : Rgn) (m : AxMsg) (s : State) : Host.Outcome State Fault Refusal := live s (recallArrives n m)

/-- RECALL_NOTICE_EXPIRY: the borrower returns the lots itself. -/
def recallEnds (n : Rgn) (id : BitVec 32) (s : State) : State :=
  let due := s.borrows.filter fun b => b.rgn == n.val && b.offer == id && (match b.notice with | some t => decide (t ≤ s.now) | none => false)
  if due.isEmpty then s else showLend n (sendReturns n none due s)

def execRecallNoticeExpiry (n : Rgn) (offer : BitVec 32) (s : State) : Host.Outcome State Fault Refusal := live s (recallEnds n offer)

/-- LEND_RETURN at the lender: the lots are zeroed, and freed when the offer has been withdrawn. -/
def returnArrives (n : Rgn) (m : AxMsg) (s : State) : State :=
  onRequest n m (fun s =>
    let s := endDeepIdle s
    let id := BitVec.ofNat 32 (m.arg.toNat % 2 ^ 32)
    let first := m.arg.toNat / 2 ^ 32 % 256
    let k := m.arg.toNat / 2 ^ 40 % 512
    let back := fun (x : Nat × Nat × Nat) => decide (first ≤ x.1) && decide (x.1 < first + k) && x.2.2 == m.circuit.val
    let s1 := match s.offers.find? fun o => o.id == id && o.rgn == n.val with
      | none => s
      | some o =>
        if o.withdrawn then takeBack o back s
        else
          let s' := (o.lent.filter back).foldl (fun t x => zeroRange (some o.part) n.val 2 (lotTiles * x.1) lotTiles t) s
          modOffer id (fun x => { x with lent := x.lent.filter fun y => !back y }) s'
    axAccept n m (showLend n s1)) s

def execLendReturn (n : Rgn) (m : AxMsg) (s : State) : Host.Outcome State Fault Refusal := live s (returnArrives n m)

/-! ### A partition reset (R362) -/

/-- Lots borrowed are returned, offers withdrawn without notice, and circuits set to unbind. -/
def releaseFabric (p : Part) (s : State) : State :=
  let s1 := returnLots none (s.borrows.filter fun b => b.part == p) s
  let s2 := (s1.offers.filter fun o => o.part == p).foldl (fun t o => withdrawOffer o none 0 t) s1
  (maskRgns (s2.part p).mask).foldl (fun t (n : Rgn) =>
    (t.rgn n).port.circuits.foldl (fun u c => tryFree n c.index
      (if circState u n c.index = circBinding ∨ circState u n c.index = circBound then startUnbind n c.index u else u)) t) s2

/-- Circuits of the partition still to be unbound are freed where nothing is outstanding. -/
def freeCircs (p : Part) (s : State) : State :=
  (maskRgns (s.part p).mask).foldl (fun t (n : Rgn) =>
    (t.rgn n).port.circuits.foldl (fun u c => tryFree n c.index u) t) s

def circsGone (s : State) (p : Part) : Bool := (maskRgns (s.part p).mask).all fun n => (s.rgn n).port.circuits.isEmpty

end Sys2Proof.Machine
end

