-- ==== Sys2Proof/Machine/Domains.lean ====
section
/-!
DEFINITION. Power domains and block voltages (R381 to R384, R389): the policy in force, the order of voltage changes, blocks
and region services going off and coming on, and the hold that the stall monitors follow.
-/

namespace Sys2Proof.Machine

/-! ### The policy in force (Table 16.5) -/

def polNat (s : State) (off k : Nat) : Nat := leAt s.pwr.policy off k
def polFlag (s : State) (k : Nat) : Bool := (polNat s 1 1).testBit k
def polRamp (s : State) : Bool := polFlag s 0
def polBallast (s : State) : Bool := polFlag s 1
def polDeepIdle (s : State) : Bool := polFlag s 2
def polGate (s : State) : Bool := polFlag s 3
def polL0p (s : State) : Bool := polFlag s 4
def polOffUnassigned (s : State) : Bool := polFlag s 5
def polVSet (s : State) (n : Nat) : Nat := polNat s (0x20 + n) 1

/-! ### Block voltages (R381, R382) -/

/-- Millivolts of an LDO code. -/
def codeMv (k : Nat) : Nat := 600 + 10 * k

def vAct (s : State) (n : Nat) : Nat := s.fld (Reg.PWR_RGN n) Reg.PWR_RGN_V_ACT
def setVAct (n k : Nat) (s : State) : State := s.setFld (Reg.PWR_RGN n) Reg.PWR_RGN_V_ACT k
def vSet (s : State) (n : Nat) : Nat := s.fld (Reg.PWR_RGN n) Reg.PWR_RGN_V_SET

/-- VDD_CORE that a highest LDO code asks for: 50 mV above it, and never below 0.70 V. -/
def coreFor (k : Nat) : Nat := max 700 (codeMv k + 50)

/-- The highest block-LDO code of any region. -/
def topCode (s : State) : Nat := (List.range 16).foldl (fun k n => max k (vAct s n)) 0

def askCore (mv : Nat) (s : State) : State := modPwr (fun p => { p with vddAsked := some mv }) s

/-- After a fall of the LDOs, VDD_CORE follows. -/
def lowerCore (s : State) : State :=
  if coreFor (topCode s) < s.pwr.vddCore ∧ s.pwr.changes = [] then askCore (coreFor (topCode s)) s else s

/-- Begin the oldest waiting change: to raise a region, VDD_CORE is raised first. -/
def startChange (s : State) : State :=
  match s.pwr.changes with
  | [] => lowerCore s
  | (n, k) :: _ =>
    if vAct s n < k ∧ s.pwr.vddCore < coreFor (max k (topCode s)) then askCore (coreFor (max k (topCode s))) s else s

/-- A change of a region's voltage joins the order; one already waiting for the region is replaced where it stands. -/
def askVolt (n k : Nat) (s : State) : State :=
  if s.pwr.changes.any fun c => c.1 == n then
    startChange (modPwr (fun p => { p with changes := p.changes.map fun c => if c.1 = n then (n, k) else c }) s)
  else if vAct s n = k then s
  else startChange (modPwr (fun p => { p with changes := p.changes ++ [(n, k)] }) s)

/-- A fast change lowers every region at once, by at most `k` steps; what was waiting is dropped. -/
def fastChange (k : Nat) (s : State) : State :=
  let s1 := (List.range 16).foldl (fun t n => setVAct n (vAct t n - k) t) s
  lowerCore (modPwr (fun p => { p with changes := [] }) s1)

/-! ### Holds and the stall monitors (R44, R389) -/

/-- A hold begins. -/
def holdBegins (s : State) : State := modPwr (fun p => { p with holdFrom := some (p.holdFrom.getD s.now) }) s

/-- When no hold is in force any more, the stall monitors count on from where they stopped. -/
def holdEnds (s : State) : State :=
  if s.pwr.hold ∨ s.flag Reg.PWR_STATUS Reg.PWR_STATUS_HOLD then s
  else match s.pwr.holdFrom with
    | none => s
    | some t =>
      let later := fun (r : Region) => { r with stepAt := r.stepAt + (s.now - t) }
      modPwr (fun p => { p with holdFrom := none }) { s with rgns := s.rgns.map later }

/-- Set or clear PWR_STATUS.HOLD. -/
def showHoldBit (on : Bool) (s : State) : State :=
  let s1 := s.setFld Reg.PWR_STATUS Reg.PWR_STATUS_HOLD (bit on)
  if on then holdBegins s1 else holdEnds s1

/-! ### Blocks (R384) -/

/-- Slots that hold a context. -/
def loadedSlots (s : State) (n : Rgn) : BitVec 4 :=
  heldBits fun sl => s.slotState n sl != slotEmpty && s.slotState n sl != slotLoading

def emptySlots (n : Rgn) (s : State) : State :=
  (List.range 4).foldl (fun t sl => t.setSlotState n sl slotEmpty) s

/-- A block goes off, with what its cells hold; a failed one is off already. -/
def blockOff (n : Rgn) (st b : Nat) (s : State) : State :=
  if blockState s n b = 3 then s else setBlockState n b st ((blankBlock n b s).setDom (blkDom n b) false)

/-- Every block of a region goes off (gated: 2, off: 0): no slot holds a context, and firmware remembers which did. -/
def blocksOff (n : Rgn) (st : Nat) (s : State) : State :=
  let m := loadedSlots s n
  let s1 := (List.range 9).foldl (fun t b => blockOff n st b t) s
  (emptySlots n s1).modRgn n fun r => { r with reload := r.reload ||| m, ballast := none }

def blocksReady (s : State) (n : Rgn) : Bool := (List.range 9).all fun b => blockState s n b == 1 || blockState s n b == 3

/-- Reload, from the context store, every slot that was loaded before the power-off. -/
def reloadSlots (n : Rgn) (s : State) : State :=
  let entry := fun (sl : Nat) => s.fld (Reg.CTX_SLOT_STATE n) ⟨24 + 6 * sl, 6, .ro, 0⟩
  let due := (List.range 4).filter fun sl => (s.rgn n).reload.getLsbD sl && s.flag (Reg.CTX_DIR n (entry sl)) Reg.CTX_DIR_VALID
  let order := fun (sl : Nat) => (⟨entry sl, sl, s.now, 0xFFFFFFFF, none, false, false⟩ : LoadOrder)
  modLoads n (fun l => l ++ due.map order) (s.modRgn n fun r => { r with reload := 0 })

def releaseAll (srcs : List Nat) (s : State) : State := srcs.foldl (fun t k => releaseLatched k t) s

/-- A block comes on: cell store and registers zero, slots EMPTY, LFSRs seeded, poison clear; what its latches hold becomes
reports; after the region's last block, the slots are reloaded. -/
def blockOn (n : Rgn) (b : Nat) (s : State) : State :=
  let s1 := setBlockState n b 1 ((blankBlock n b s).setDom (blkDom n b) true)
  let s2 := releaseAll ([3 * b, 3 * b + 1, 3 * b + 2].map (rgnSrc n.val)) s1
  if blocksReady s2 n then reloadSlots n (modPwr (fun p => { p with wake := p.wake &&& ~~~ (1#16 <<< n.val) }) s2) else s2

def wakeRgn (n : Nat) (s : State) : State := modPwr (fun p => { p with wake := p.wake ||| (1#16 <<< n) }) s

/-! ### Region services (R383) -/

/-- The registers of a region's blocks are at reset. -/
def dropRgnRegs (n : Rgn) (s : State) : State :=
  { s with regs := s.regs.filter fun p => !(decide (rgnBase n ≤ p.1) && decide (p.1 < rgnBase n + 0x100000)) }

/-- A region's bring-up starts over (R372); only the fold tier keeps anything. -/
def restartRgn (n : Rgn) (s : State) : State :=
  let r := keptRegion s n
  let s1 := (dropRgnRegs n s).modRgn n fun _ => { r with idleFrom := s.now }
  let s2 := s1.modCells n.val fun _ c => { Cell.empty with field := c.field }
  s2.setReg (Reg.BOOT_RGN n) (Reg.BOOT_RGN_STAGE.put 0 (min 2 s.chipStage))

def serviceOn (s : State) (n : Rgn) : Bool := s.domOn (rgnDom n.val)

def setService (n : Rgn) (on : Bool) (s : State) : State :=
  (s.setDom (rgnDom n.val) on).setFld (Reg.PWR_RGN n.val) Reg.PWR_RGN_SERVICE_ON (bit on)

/-- Firmware switches the services of an unassigned region off, its blocks and its port with them. -/
def serviceGoesOff (n : Rgn) (s : State) : State :=
  setService n false (restartRgn n (blocksOff n 0 (portGoesDown n portDown s)))

/-- A service domain comes on: the region repeats bring-up steps 1 to 6, and its start power is 25 W again. -/
def serviceComesOn (n : Rgn) (s : State) : State :=
  let s1 := setService n true s
  let s2 := wakeRgn n.val (modPwr (fun p => { p with startPower := Vec.modify p.startPower n.val fun _ => 250 }) (restartRgn n s1))
  releaseAll ((List.range 60).map (rgnSrc n.val)) s2

/-- Services follow OFF_UNASSIGNED and the partitions, from stage 2 and outside minimal mode. -/
def settleService (n : Rgn) (s : State) : State :=
  let off := polOffUnassigned s && (s.partOf n).isNone && !s.quarantined n
  if s.chipStage < 2 ∨ s.minimal ∨ s.pwr.shut then s
  else if off ∧ serviceOn s n then serviceGoesOff n s
  else if ¬ off ∧ ¬ serviceOn s n then serviceComesOn n s
  else s

def settleServices (s : State) : State := allRgns.foldl (fun t n => settleService n t) s

end Sys2Proof.Machine
end

