-- ==== Sys2Proof/Machine/Mgmt.lean ====
section
/-!
DEFINITION. QUERY, PARTITION_SET, FAULT_CONFIG and FAULT_INJECT (R297, R308, R409, R410).
-/

namespace Sys2Proof.Machine

/-! ### QUERY (R297, Tables 11.7, 11.17 to 11.19, 12.4) -/

/-- The partition queried: the ring's own, or the one a management command names. -/
def queryPart (c : Cmd) : Part := match c.ring with | .part p _ => p | .mgmt => Fin.ofNat 16 (c.p1 0x12)

def isMgmt (c : Cmd) : Bool := c.ring == .mgmt

def queryCheck (c : Cmd) (s : State) : Fail :=
  let two := c.p1 0x10 == 2
  firstFail [reserved c [(0x10, 1), (0x11, 1), (0x12, 1), (0x14, 2), (0x18, 8)], param 0x10 (decide (c.p1 0x10 ≤ 4)),
    param 0x11 (!two || (decide (c.p1 0x11 < 16) && (isMgmt c || inPart s c (c.p1 0x11)))),
    param 0x12 (if isMgmt c then decide (c.p1 0x12 < 16) else c.p1 0x12 == 0),
    param 0x18 (bufOk c (some (queryPart c)) (c.p8 0x18) 1 s), if two then quarantineFail s [c.p1 0x11] else none]

def regByte (s : State) (n : Rgn) : Nat :=
  let a := Reg.BOOT_RGN n.val
  let b := Reg.RGN_BLOCK_STATE n
  s.fld a Reg.BOOT_RGN_HERD_OK + 2 * s.fld a Reg.BOOT_RGN_NEAR_OK + 4 * s.fld a Reg.BOOT_RGN_FOLD_READY +
  8 * s.fld a Reg.BOOT_RGN_JOINED + 16 * s.fld a Reg.BOOT_RGN_FAILED + 32 * s.fld a Reg.BOOT_RGN_STANDIN +
  64 * s.fld b Reg.RGN_BLOCK_STATE_DEGRADED + 128 * s.fld b Reg.RGN_BLOCK_STATE_QUARANTINED

/-- REGION_n of page 0. -/
def regionEntry (s : State) (n : Rgn) : List Byte :=
  leBytes 1 (s.stage n) ++ leBytes 1 (regByte s n) ++ leBytes 1 ((s.partOf n).map Fin.val |>.getD 0xFF) ++ [0] ++
  leBytes 4 (s.reg (Reg.RGN_BLOCK_STATE n)).toNat ++ leBytes 4 (s.fld (Reg.RGN_RATE n) Reg.RGN_RATE_STEPS) ++ leBytes 4 0

def page0 (s : State) : List Byte :=
  let w := fun (a : Nat) => leBytes 8 (s.reg a).toNat
  w Reg.CHIP_PART ++ w Reg.CHIP_VENDOR ++ leBytes 8 s.now ++ w Reg.FAB_CHIP_ID ++ w Reg.BOOT_STATUS ++ w Reg.PWR_STATUS ++
  List.replicate 16 0 ++ allRgns.flatMap (regionEntry s)

def page1 (s : State) (p : Part) : List Byte :=
  let q := s.part p
  let cfg := fun (k : Nat) => match q.lead with
    | some n => leBytes 8 (s.reg (Reg.CMD_RING_CFG n k)).toNat
    | none => leBytes 8 0
  leBytes 2 q.mask.toNat ++ leBytes 1 ((q.lead.map Fin.val).getD 0) ++
  leBytes 1 (bit q.encHerd + 2 * bit q.encFold + 4 * bit q.requireSig) ++ leBytes 4 0 ++ cfg 0 ++ cfg 1 ++ cfg 2 ++
  [1, 2, 3, 4].flatMap (fun t => leBytes 8 (quotaOf s p t) ++ leBytes 8 (usage s p t)) ++
  leBytes 4 (countState q .opened) ++ leBytes 4 (countState q .parked) ++ leBytes 4 q.clients.length

/-- Cells in cell-index order, bits [31:0] of RGN_DEFECT_DATA. -/
def page2 (s : State) (n : Rgn) : List Byte := (List.range 576).flatMap fun ix => leBytes 4 (defectData s n ix).toNat

/-- An entry of page 3: the active version, or the one staged last, gives the positions. -/
def pkgEntry (q : Partition) (id : Word) : List Byte :=
  let vs := q.versions.filter fun v => v.pkg == id
  let act := (q.active.find? fun a => a.1 == id).map Prod.snd
  let shown := match act.bind fun x => vs.find? fun v => v.ver == x with
    | some v => some v
    | none => vs.getLast?
  let ts := (shown.map Version.targets).getD []
  let ads := (q.adapters.filter fun a => a.base == id).length
  leBytes 8 id.toNat ++ leBytes 4 ((act.map BitVec.toNat).getD 0) ++ leBytes 2 vs.length ++
  leBytes 1 (bit (vs.any fun v => v.retiring) + 2 * bit (decide (0 < ads))) ++ leBytes 1 ts.length ++
  leBytes 8 ((List.range ts.length).foldl (fun k i => k + ts.getD i 0 * 16 ^ i) 0) ++ leBytes 4 ads ++ leBytes 4 0

def page3 (s : State) (p : Part) (start : Nat) : List Byte :=
  (((s.part p).pkgOrder.drop start).take 128).flatMap (pkgEntry (s.part p))

def clientEntry (c : Client) (flags : Nat) : List Byte :=
  leBytes 2 c.client.toNat ++ leBytes 2 flags ++ leBytes 3 c.submitted.toNat ++ leBytes 3 c.completed.toNat ++
  leBytes 3 c.aborted.toNat ++ leBytes 3 c.rejected.toNat

/-- Slot `i` of the client counters: slot 4,096 is the overflow bucket. -/
def clientAt (q : Partition) (i : Nat) : List Byte :=
  if i = 4096 then
    match q.overflow with
    | some c => clientEntry { c with client := 0 } 3
    | none => clientEntry (Client.zero 0) 2
  else match q.clients[i]? with
    | some c => clientEntry c 1
    | none => List.replicate 16 0

def page4 (s : State) (p : Part) (start : Nat) : List Byte := (List.range 256).flatMap fun i => clientAt (s.part p) (start + i)

def queryPage (c : Cmd) (s : State) : List Byte :=
  let k := c.p1 0x10
  let p := queryPart c
  if k = 0 then page0 s else if k = 1 then page1 s p else if k = 2 then page2 s (Fin.ofNat 16 (c.p1 0x11))
  else if k = 3 then page3 s p (c.p2 0x14) else page4 s p (c.p2 0x14)

/-- Write a result to a command's buffer, and commit; a window that the lost link cannot reach ends the command. -/
def writeResult (c : Cmd) (named : Option Part) (v : Nat) (b : List Byte) (detail : Nat) (s : State) : State :=
  if bufLoc v = 0 ∧ linkLost s then endCommand c.id ST_TIER_ERROR 0 s
  else commitAs c.id ST_OK detail [] ((List.range ((b.length + 4095) / 4096)).foldl (fun t k =>
    writeBuf c named v (4096 * k) (slice b (4096 * k) 4096) t) s)

def queryAct (c : Cmd) (s : State) : State :=
  let s1 := acceptAs c.id id s
  writeResult c (some (queryPart c)) (c.p8 0x18) (Config.fit 4096 (queryPage c s1)) 4096 s1

def execQuery (r : Ring) (_ : Choice) (s : State) : Host.Outcome State Fault Refusal :=
  live s (process 0x01 r (quiet queryCheck) queryAct)

/-! ### PARTITION_SET (R308, Tables 11.6, 11.9) -/

def psPart (c : Cmd) : Part := Fin.ofNat 16 (c.p1 0x10)
def psMask (c : Cmd) : BitVec 16 := BitVec.ofNat 16 (c.p2 0x12)
def psFlag (c : Cmd) (k : Nat) : Bool := (c.p1 0x11).testBit k

/-- P has no regions and gets none. -/
def psNothing (s : State) (c : Cmd) : Bool := (s.part (psPart c)).mask == 0 && psMask c == 0
/-- Only the policy changes. -/
def psPolicyOnly (s : State) (c : Cmd) : Bool :=
  psMask c == (s.part (psPart c)).mask && psMask c != 0 && !psFlag c 0

/-- Does a PARTITION_SET accepted earlier, and not yet done, give the region to another partition (R17)? -/
def psClaims (s : State) (c : Cmd) (n : Rgn) : Bool :=
  s.cmds.any fun d => d.opcode == 0x02 && d.live && psPart d != psPart c && (psMask d).getLsbD n.val

def zeroBytes (b : List Byte) : Bool := b.all (· == 0)

/-- Is the policy block well formed (Table 11.6)? -/
def policyOk (b : List Byte) : Bool :=
  let k := leAt b 1 1
  decide (leAt b 0 1 < 2) && decide (k ≤ 4) && zeroBytes (slice b 2 14) && zeroBytes (slice b 0xD0 48) &&
  zeroBytes (slice b (0x10 + 48 * k) (192 - 48 * k))

def psParams (c : Cmd) (s : State) : Fail :=
  let q := s.part (psPart c)
  firstFail [reserved c [(0x10, 1), (0x11, 1), (0x12, 2), (0x18, 8)], param 0x10 (decide (c.p1 0x10 < 16)),
    param 0x11 (decide (c.p1 0x11 < 8)),
    param 0x12 ((maskRgns (psMask c)).all fun n =>
      (s.partOf n == none || s.partOf n == some (psPart c)) && !psClaims s c n),
    param 0x11 (!psPolicyOnly s c || (psFlag c 1 == q.encHerd && psFlag c 2 == q.encFold)),
    param 0x18 (psNothing s c || bufOk c (some (psPart c)) (c.p8 0x18) 1 s)]

/-- What is checked after the block has been read: its fields, quarantined regions, and debug scope bit 0 (R438). -/
def psLate (c : Cmd) (b : List Byte) (s : State) : Fail :=
  firstFail [param 0x18 (policyOk b), quarantineFail s ((maskRgns (psMask c)).map Fin.val),
    if psMask c != 0 && s.scope 0 then some (ST_AUTH_FAIL, 0) else none]

def psCheck (out : ReadOutcome) (c : Cmd) (s : State) : State × Verdict :=
  match psParams c s with
  | some f => (s, .reject f.1 f.2)
  | none =>
    if psNothing s c then (s, .accept)
    else
      let r := readBuf out c (some (psPart c)) (c.p8 0x18) 1 s
      match r.2 with
      | .waiting => (r.1, .wait)
      | .failed st => (r.1, .reject st 0x18)
      | .bytes b =>
        let s1 := r.1.modCmd c.id fun d => { d with work := b.take 256 }
        (s1, verdict (psLate c b s1))

/-- The policy is applied, and measured (R430). -/
def applyPolicy (p : Part) (b : List Byte) (s : State) : State :=
  s.modPart p fun q => { q with
    requireSig := (leAt b 0 1).testBit 0, digests := [],
    signers := (List.range (leAt b 1 1)).map fun i => slice b (0x10 + 48 * i) 48 }

/-- MR8 at each committed PARTITION_SET: the partition and the digest of the policy block, hashed to 48 bytes. -/
def measurePolicy (p : Part) (b : List Byte) (s : State) : State :=
  extendMr 8 (Config.sha384 (leBytes 1 p.val ++ Config.sha384 (Config.fit 256 b))) s

/-- A bridge is open when the regions on both sides belong to the same partition (R38): north, east, south, west. -/
def sameSide (s : State) (n : Rgn) (side : Nat) : Bool :=
  let m := n.val
  let other : Option Nat :=
    if side = 0 then (if 8 ≤ m then some (m - 8) else none) else if side = 1 then (if m % 8 = 7 then none else some (m + 1))
    else if side = 2 then (if m < 8 then some (m + 8) else none) else (if m % 8 = 0 then none else some (m - 1))
  match other with
  | none => false
  | some k => (s.partOf n).isSome && s.partOf n == s.partOf (Fin.ofNat 16 k)

/-- CMD_STATUS, HERD_CFG.ENC and RGN_BRIDGE_STATE of every region follow the partitions' masks. -/
def showAssigned (s : State) (n : Rgn) : State :=
  let a := Reg.CMD_STATUS n
  match (List.finRange 16).find? fun (p : Part) => (s.part p).has n.val with
  | none => ((s.setReg a 0).setFld (Reg.HERD_CFG n) Reg.HERD_CFG_ENC 0)
  | some p =>
    (((s.setFld a Reg.CMD_STATUS_ASSIGNED 1).setFld a Reg.CMD_STATUS_LEAD (bit ((s.part p).lead == some n))).setFld a
      Reg.CMD_STATUS_PARTITION p.val).setFld (Reg.HERD_CFG n) Reg.HERD_CFG_ENC (bit (s.part p).encHerd)

def showBridges (s : State) (n : Rgn) : State :=
  s.setReg (Reg.RGN_BRIDGE_STATE n) (BitVec.ofNat 64 ((List.range 4).foldl (fun k i => k + bit (sameSide s n i) * 2 ^ i) 0))

def showPartitions (s : State) : State := allRgns.foldl showBridges (allRgns.foldl showAssigned s)

/-- A region's part of a quota (R183, R374): the tier's capacity less reserved space, once the region has reached it. -/
def quotaShare (s : State) (tier : Nat) (n : Rgn) : Nat :=
  let up := if tier = 3 then s.flag (Reg.FOLD_STATUS n) Reg.FOLD_STATUS_READY else decide (3 ≤ s.stage n)
  if tier < 4 ∧ up then tierCap s n tier - reservedTiles s n tier else 0

def fullQuota (s : State) (p : Part) (tier : Nat) : Nat := ((maskRgns (s.part p).mask).map (quotaShare s tier)).foldl (· + ·) 0

/-- Set the quotas that QUOTA_SET has not set (R374). -/
def setQuotas (p : Part) (s : State) : State :=
  s.modPart p fun q => { q with
    quota := Vector.ofFn fun (i : Fin 4) => if q.quotaSet[i] then q.quota[i] else fullQuota s p (i.val + 1) }

/-- A barrier is broken, disabled and cleared (R152, R153). -/
def breakBarrier (b : Nat) (s : State) : State :=
  let s1 := if s.flag (Reg.BAR_CFG b) Reg.BAR_CFG_ENABLE then raiseBarrier none b (breakBar ST_PARTITION_RESET b s) else s
  let s2 := (s1.setFld (Reg.BAR_CFG b) Reg.BAR_CFG_ENABLE 0).setFld (Reg.BAR_CFG b) Reg.BAR_CFG_MEMBERS 0
  clearBar b s2

/-- Steps 1 to 4 as far as they start at once: commands end, barriers break, circuits and lots are released (R362). -/
def breakBarriers (p : Part) : List Nat → State → State
  | [], s => s
  | b :: bs, s =>
    breakBarriers p bs
      (if s.fld (Reg.BAR_CFG b) Reg.BAR_CFG_PARTITION = p.val then breakBarrier b s else s)

def startReset (p : Part) (s : State) : State :=
  let ids := (s.cmds.filter fun c => c.part == some p && c.live).map Cmd.id
  let heads := (s.cmds.filter fun c => c.part == some p && c.phase == .fetched).map Cmd.id
  let s1 := heads.foldl (fun t i => reject i ST_PARTITION_RESET 0 t) (endAll ST_PARTITION_RESET s ids)
  releaseFabric p (breakBarriers p (List.range 64) s1)

/-- Steps 4 to 6: sessions, packages, adapters and tiles go, with the fold tiles recorded for P; keys and counters go; the
rings are disabled. The completion ring's records on their way stay. -/
def clearPartition (p : Part) (s : State) : State :=
  let rgns := maskRgns (s.part p).mask
  let s1 := (s.part p).versions.foldl (fun t v => clearVersionDirs v.targets v.dirs t) s
  let s2 := dropAllocs p (fun _ => true) s1
  let s3 := rgns.foldl (fun t (n : Rgn) => modFold n.val (fun f => { f with owners := f.owners.filter fun o => o.2.2.1 != p.val }) t) s2
  let s4 := match (s3.part p).lead with
    | none => s3
    | some n => (List.range 3).foldl (fun t k => t.setFld (Reg.CMD_RING_CFG n k) Reg.CMD_RING_CFG_ENABLE 0) s3
  s4.modPart p fun q => { Partition.reset with replay := q.replay, stopped := q.stopped, cq := q.cq, mask := q.mask }

/-- Step 7: the new regions, keys for the tiers that FLAGS names, quotas and policy. -/
def assignPartition (c : Cmd) (s : State) : State :=
  let p := psPart c
  let herd := psFlag c 1 && psMask c != 0
  let fold := psFlag c 2 && psMask c != 0
  let s1 := ({ s with nextKey := s.nextKey + 2 }).modPart p fun q => { q with
    mask := psMask c, encHerd := herd, encFold := fold,
    keyHerd := if herd then s.nextKey else 0, keyFold := if fold then s.nextKey + 1 else 0 }
  let s2 := setQuotas p (showPartitions s1)
  if psMask c = 0 then s2 else applyPolicy p c.work s2

def leadDetail (s : State) (p : Part) : Nat := (((s.part p).lead).map Fin.val).getD 0xFF

/-- The rest of a reset, once every command of P has retired and its circuits are unbound. -/
def partitionWork (c : Cmd) (s : State) : State :=
  let p := psPart c
  let s1 := freeCircs p s
  if (s1.cmds.any fun d => d.part == some p) ∨ ¬ circsGone s1 p then s1
  else
    let s2 := showDeferred (settleServices (assignPartition c (clearPartition p s1)))
    let s3 := showSessions p (measurePolicy p c.work s2)
    commitAs c.id ST_OK (leadDetail s3 p) [] s3

def psAct (c : Cmd) (s : State) : State :=
  let p := psPart c
  if psNothing s c then commitAs c.id ST_OK 0xFF [] (acceptAs c.id id s)
  else
    let b := ((s.cmd c.id).map Cmd.work).getD []
    if psPolicyOnly s c then
      commitAs c.id ST_OK (leadDetail s p) [] (measurePolicy p b (applyPolicy p b (acceptAs c.id id s)))
    else startReset p (startWork c.id id s)

def execPartitionSet (r : Ring) (ch : Choice) (s : State) : Host.Outcome State Fault Refusal :=
  live s (process 0x02 r (psCheck ch.herd) psAct)

/-! ### FAULT_CONFIG and FAULT_INJECT (R399, R409, R410, R423) -/

/-- A source that a management command may name: listed, and not 13 or 16. -/
def faultNamed (src : Nat) : Bool := srcListed src && src != 13 && src != 16

def faultConfigCheck (c : Cmd) (s : State) : Fail :=
  let src := c.p2 0x10
  firstFail [reserved c [(0x10, 2), (0x12, 1), (0x13, 1)], param 0x10 (decide (src < 1024) && faultNamed src),
    param 0x12 (decide (c.p1 0x12 ≤ 5) && (!s.flag (Reg.FLT_SRC_SEV src) Reg.FLT_SRC_SEV_FIXED || c.p1 0x12 == s.sev src)),
    param 0x13 (decide (c.p1 0x13 < 2))]

def faultConfigAct (c : Cmd) (s : State) : State :=
  let a := Reg.FLT_SRC_SEV (c.p2 0x10)
  let s1 := acceptAs c.id id s
  commitAs c.id ST_OK (c.p2 0x10) []
    (settleErr ((s1.setFld a Reg.FLT_SRC_SEV_SEV (c.p1 0x12)).setFld a Reg.FLT_SRC_SEV_PIN (c.p1 0x13)))

def execFaultConfig (r : Ring) (_ : Choice) (s : State) : Host.Outcome State Fault Refusal :=
  live s (process 0x70 r (quiet faultConfigCheck) faultConfigAct)

def faultInjectCheck (c : Cmd) (_ : State) : Fail :=
  firstFail [reserved c [(0x10, 2), (0x12, 2)], param 0x10 (decide (c.p2 0x10 < 1024) && faultNamed (c.p2 0x10)),
    param 0x12 (decide (1 ≤ c.p2 0x12) && decide (c.p2 0x12 ≤ 255))]

/-- One forced report after another. -/
def forceReports (src : Nat) : Nat → State → State
  | 0, s => s
  | k + 1, s => forceReports src k (raiseWith ST_INTERNAL src true ⟨(srcRgn src).bind fun n => (s.rgn n).plan, 0, 0⟩ s)

def faultInjectAct (c : Cmd) (s : State) : State :=
  forceReports (c.p2 0x10) (c.p2 0x12) (commitAs c.id ST_OK (c.p2 0x10) [] (acceptAs c.id id s))

def execFaultInject (r : Ring) (_ : Choice) (s : State) : Host.Outcome State Fault Refusal :=
  live s (process 0x71 r (quiet faultInjectCheck) faultInjectAct)

end Sys2Proof.Machine
end

