-- ==== Sys2Proof/Machine/Power.lean ====
section
/-!
DEFINITION. Power, cooling and the rack (16_power.md): the policy, windows, caps, ramp and ballast, the peak limit, power
failure, coolant, temperature, gating, deep idle and the rack-manager watchdog.
-/

namespace Sys2Proof.Machine

/-! ### Status -/

def setPwr (f : Fld) (x : Nat) (s : State) : State := s.setFld Reg.PWR_STATUS f x
def pwrBit (k : Nat) : Fld := ⟨20 + k, 1, .ro, 0⟩

/-- A power source's report carries PWR_STATUS. -/
def raisePower (src : Nat) (s : State) : State := raiseDetail src none (s.reg Reg.PWR_STATUS).toNat s
def raiseCoolant (src : Nat) (s : State) : State := raiseDetail src none (s.reg Reg.PWR_COOLANT).toNat s

def flowLoss (s : State) : Bool := s.flag Reg.PWR_COOLANT Reg.PWR_COOLANT_FLOW_LOSS
def throttled (s : State) (n : Nat) : Bool := s.flag (Reg.PWR_RGN n) Reg.PWR_RGN_THROTTLED
def meanW (s : State) : Nat := s.fld Reg.PWR_MEAS Reg.PWR_MEAS_MEAN10_W
def windowW (s : State) : Nat := s.fld Reg.PWR_MEAS Reg.PWR_MEAS_WINDOW_W

/-- Inlet derating in force: none while the sensor is not used (R395). -/
def derating (s : State) : Nat := if s.flag Reg.PWR_COOL_CFG Reg.PWR_COOL_CFG_ENABLE then s.pwr.derate else 0

/-- The lowest cap in force, in tenths of a watt (R393). -/
def capTenths (s : State) : Nat :=
  let cap := 10 * polNat s 0x04 2
  let c1 := min cap (cap - derating s)
  let c2 := if flowLoss s then min c1 (10 * polNat s 0x0C 2) else c1
  if s.pins.pwrfailN then c2 else min c2 (10 * polNat s 0x0E 2)

/-- Is a cap reached? DEDUCED (log entry 109): a window at the cap would, kept up at this voltage, bring the mean of the last 100
windows to it, so the power manager acts from that window on, before the mean gets there (R21, R387). -/
def overCap (s : State) : Bool :=
  decide (0 < s.pwr.history.length) && decide (capTenths s ≤ 10 * max (windowW s) (meanW s))

/-- The ramp ceiling in tenths of a watt (R389); none before the first window, or without RAMP. -/
def rampCeiling (s : State) : Option Nat :=
  match s.pwr.history with
  | [] => none
  | w :: _ => if polRamp s then some (10 * w + polNat s 0x06 2) else none

/-- The floor in tenths of a watt after a window of mean `w`: the ballast floor and the ramp-down limit (R390), suspended under
the power-fail hold (R394). -/
def floorAfter (s : State) (w : Nat) : Nat :=
  if polBallast s ∧ ¬ s.pwr.hold then max (10 * polNat s 0x0A 2) (10 * w - polNat s 0x08 2) else 0
def rampFloor (s : State) : Nat := floorAfter s (windowW s)

def anyBallast (s : State) : Bool := allRgns.any fun n => (s.rgn n).ballast.isSome

/-- CEILING_W, FLOOR_W and LIMITS; the peak step shows until the window after it. -/
def showLimits (s : State) : State :=
  let s1 := s.setFld Reg.PWR_MEAS Reg.PWR_MEAS_CEILING_W (min 65535 (((rampCeiling s).getD 0) / 10))
  let s2 := s1.setFld Reg.PWR_MEAS Reg.PWR_MEAS_FLOOR_W (min 65535 (rampFloor s / 10))
  let put := fun (k : Nat) (b : Bool) (t : State) => setPwr (pwrBit k) (bit b) t
  put 7 (anyBallast s) (put 6 (derating s != 0) (put 4 s.pwr.hold (put 3 ((List.range 16).any (throttled s))
    (put 2 (flowLoss s) (put 1 (overCap s)
      (put 0 (s.flag Reg.PWR_STATUS Reg.PWR_STATUS_HOLD && (rampCeiling s).isSome) s2))))))

/-! ### The ballast context (R390, R391) -/

/-- The slot firmware loads the ballast into: an EMPTY one, else the IDLE one least recently active. -/
def ballastSlot (s : State) (n : Rgn) : Option (Fin 4) :=
  let at_ := fun (st : Nat) => (List.finRange 4).filter fun sl => s.slotState n sl.val == st
  match at_ slotEmpty with
  | sl :: _ => some sl
  | [] => (at_ slotIdle).foldl (fun (best : Option (Fin 4)) sl => match best with
      | none => some sl
      | some b => if (s.rgn n).activeAt[sl] < (s.rgn n).activeAt[b] then some sl else some b) none

def loadBallast (n : Rgn) (sl : Nat) (s : State) : List Nat → State
  | [] => s
  | c :: cs =>
    loadBallast n sl (if blockState s n (cellBlk c) = 1 then
      s.setCell n.val c ((s.cell n.val c).putSlot sl (recordSlot Config.ballastRecord)) else s) cs

/-- May the ballast run in a region: served, its blocks on, no plan and no command dispatched to it? -/
def ballastFits (s : State) (n : Rgn) : Bool :=
  decide (3 ≤ s.stage n) && serviceOn s n && !s.quarantined n && (s.rgn n).plan.isNone && (s.rgn n).ballast.isNone &&
  blocksReady s n && !s.pwr.wake.getLsbD n.val && (ballastSlot s n).isSome

def startBallast (n : Rgn) (s : State) : State :=
  match ballastSlot s n with
  | none => s
  | some sl =>
    let s1 := (loadBallast n sl.val s (List.range 576)).setSlotState n sl.val slotIdle
    let s2 := s1.modRgn n fun r => { r with ballast := some sl, clean := Vec.modify r.clean sl.val fun _ => 0 }
    applySwitch n sl s2

/-- Registers and accumulators of a cell after ballast has run: undefined. -/
def afterBallast (k ix : Nat) (c : Cell) : Cell :=
  { c with
    regs := (List.range 64).map fun r => (r, Config.freeReg k ix r),
    acc := (List.range 128).map fun a => (a, Config.freeAcc k ix a) }

def loseRegisters (n : Rgn) (k : Nat) (s : State) : List Nat → State
  | [] => s
  | c :: cs =>
    loseRegisters n k (if blockState s n (cellBlk c) = 1 then s.setCell n.val c (afterBallast k (cellKey n.val c) (s.cell n.val c)) else s) cs

/-- Firmware flushes the ballast slot. -/
def stopBallast (n : Rgn) (s : State) : State :=
  match (s.rgn n).ballast with
  | none => s
  | some sl =>
    let s1 := loseRegisters n s.free { s with free := s.free + 1 } (List.range 576)
    flushSlot n sl.val (s1.modRgn n fun r => { r with ballast := none })

def stopAllBallast (s : State) : State := allRgns.foldl (fun t n => stopBallast n t) s

/-- Below the floor that the window before it set, one more region runs the ballast context; it stops where BALLAST is clear,
power has failed, or a cap is passed (R393). -/
def settleBallast (s : State) : State :=
  if ¬ polBallast s ∨ s.pwr.hold ∨ overCap s then stopAllBallast s
  else if 10 * windowW s < floorAfter s ((s.pwr.history.drop 1).headD 0) then
    match allRgns.find? (ballastFits s) with
    | some n => startBallast n s
    | none => s
  else s

/-! ### POWER_WINDOW (R386, R387, R389, R390, R396) -/

/-- HBM stacks of a region (R159). -/
def rgnStacks (n : Nat) : List Nat := [12 * n / 32, (12 * n + 11) / 32]

def hotStack (m : PowerSample) (n limit : Nat) : Bool := (rgnStacks n).any fun k => decide (limit < m.hbmTemp.getD k 0)

/-- What a window measures of one region. -/
def measureRgn (m : PowerSample) (s : State) (n : Rgn) : State :=
  let a := Reg.PWR_RGN n.val
  let p := min 4095 (m.rgnPower.getD n.val 0)
  let s1 := (s.setFld a Reg.PWR_RGN_POWER p).setFld a Reg.PWR_RGN_TEMP (min 4095 (m.rgnTemp.getD n.val 0))
  let s2 := if (s.rgn n).plan.isSome then
      modPwr (fun q => { q with startPower := Vec.modify q.startPower n.val fun _ => Config.scalePower (vAct s n.val) p }) s1
    else s1
  if serviceOn s n then s2.setFld (Reg.NEAR_STATUS n) Reg.NEAR_STATUS_HOT (bit (hotStack m n.val 850)) else s2

def meanOf (l : List Nat) : Nat := l.foldl (· + ·) 0 / max 1 l.length
def hottest (l : List Nat) : Nat := l.foldl max 0

def measure (m : PowerSample) (s : State) : State :=
  let h := (m.packageW :: s.pwr.history).take 100
  let s1 := allRgns.foldl (measureRgn m) (modPwr (fun p => { p with history := h, started := 0 }) s)
  let s2 := (s1.setFld Reg.PWR_MEAS Reg.PWR_MEAS_WINDOW_W (min 65535 m.packageW)).setFld Reg.PWR_MEAS
    Reg.PWR_MEAS_MEAN10_W (min 65535 (meanOf h))
  let top := max m.chipTemp (max (hottest m.hbmTemp) (hottest m.rgnTemp))
  ((s2.setFld Reg.PWR_CHIP_TEMP Reg.PWR_CHIP_TEMP_CHIP (min 4095 m.chipTemp)).setFld Reg.PWR_CHIP_TEMP
    Reg.PWR_CHIP_TEMP_HBM (min 4095 (hottest m.hbmTemp))).setFld Reg.PWR_CHIP_TEMP Reg.PWR_CHIP_TEMP_HOTTEST (min 4095 top)

/-- The throttle of a region begins above THROTTLE_C (95 degrees for a stack) and ends 2 degrees below it. -/
def throttle (m : PowerSample) (s : State) (n : Rgn) : State :=
  let a := Reg.PWR_RGN n.val
  let lim := 10 * polNat s 0x32 1
  let t := m.rgnTemp.getD n.val 0
  if throttled s n.val then
    (if t + 20 ≤ lim ∧ ¬ hotStack m n.val 930 then s.setFld a Reg.PWR_RGN_THROTTLED 0 else s)
  else if lim < t ∨ hotStack m n.val 950 then
    raisePower 6 ((s.setFld a Reg.PWR_RGN_THROTTLED 1).bump Reg.PWR_EVENTS Reg.PWR_EVENTS_THROTTLE 1)
  else s

/-- Does a region draw most, of those whose voltage can fall? -/
def drawsMost (m : PowerSample) (s : State) (n : Nat) : Bool :=
  decide (0 < vAct s n) && (List.range 16).all fun k => vAct s k == 0 || decide (m.rgnPower.getD k 0 ≤ m.rgnPower.getD n 0)

/-- One region's voltage after a window: a step down under the throttle, or where a cap is passed and it draws most; V_SET
is never exceeded; otherwise a step up, toward V_SET. -/
def stepRgn (m : PowerSample) (past : Bool) (s : State) (n : Nat) : State :=
  let v := vAct s n
  if throttled s n ∨ (past ∧ drawsMost m s n) then (if 0 < v then askVolt n (v - 1) s else s)
  else if vSet s n < v then askVolt n (vSet s n) s
  else if past ∨ s.pwr.hold ∨ v = vSet s n then s
  else askVolt n (v + 1) s

def coolUsed (s : State) : Bool := s.flag Reg.PWR_COOL_CFG Reg.PWR_COOL_CFG_ENABLE && decide (s.pwr.badReads < 3)

/-- Inlet, signed, and flow as last read. -/
def inlet (s : State) : Int := (BitVec.ofNat 16 (s.fld Reg.PWR_COOLANT Reg.PWR_COOLANT_INLET)).toInt
def flowReads (s : State) : Bool :=
  decide (polNat s 0x30 2 ≤ s.fld Reg.PWR_COOLANT Reg.PWR_COOLANT_FLOW) && decide (inlet s < 450)

/-- Flow judged good: COOLANT_OK high and, where the sensor is used, the last reading good. -/
def flowGood (s : State) : Bool := s.pins.coolantOk && (!coolUsed s || flowReads s)

/-- Flow loss ends once COOLANT_OK has been high, and the flow good, for 1 s (R395). -/
def flowEnds (s : State) : State :=
  match s.pwr.flowOk with
  | some t => if flowLoss s ∧ t + 100000000 ≤ s.now then s.setFld Reg.PWR_COOLANT Reg.PWR_COOLANT_FLOW_LOSS 0 else s
  | none => s

/-- While the flow is judged good, the 1 s toward the end of a flow loss runs from the first such judgement. -/
def flowSettles (s : State) : State :=
  if flowGood s then flowEnds (modPwr (fun p => { p with flowOk := some (p.flowOk.getD s.now) }) s) else s

def powerWindow (m : PowerSample) (s : State) : State :=
  if s.pwr.shut then s
  else
    let s1 := flowSettles (allRgns.foldl (throttle m) (measure m s))
    let s2 := setPwr (pwrBit 5) 0 s1
    let s3 := (List.range 16).foldl (stepRgn m (overCap s2)) s2
    showLimits (settleBallast (showHoldBit false s3))

def execPowerWindow (m : PowerSample) (s : State) : Host.Outcome State Fault Refusal := live s (powerWindow m)

/-! ### PEAK_LIMIT, VOLTAGE_STEP_DONE and REGULATOR_REPORT (R381, R382, R387) -/

def peakLimit (s : State) : State :=
  if s.pwr.shut then s
  else
    let s1 := setPwr (pwrBit 5) 1 ((fastChange 5 s).bump Reg.PWR_EVENTS Reg.PWR_EVENTS_PEAK 1)
    raisePower 9 s1

def execPeakLimit (s : State) : Host.Outcome State Fault Refusal := live s peakLimit

/-- A 10 mV step of the change in progress settles. A raise waits for VDD_CORE. -/
def voltageStep (n : Nat) (s : State) : State :=
  match s.pwr.changes with
  | [] => s
  | (m, k) :: rest =>
    let v := vAct s n
    let next := fun (t : State) => startChange (modPwr (fun p => { p with changes := rest }) t)
    if m ≠ n then s
    else if v = k then next s
    else if v < k then
      if s.pwr.vddCore < coreFor (max (v + 1) (topCode s)) then s
      else if v + 1 = k then next (setVAct n (v + 1) s) else setVAct n (v + 1) s
    else if v = k + 1 then next (setVAct n k s)
    else setVAct n (v - 1) s

def execVoltageStepDone (n : Rgn) (s : State) : Host.Outcome State Fault Refusal := live s (voltageStep n.val)

/-- The regulator reports the value the device asked for. -/
def regulatorReports (mv : Nat) (s : State) : State :=
  if s.pwr.vddAsked = some mv then startChange (modPwr (fun p => { p with vddCore := mv, vddAsked := none }) s) else s

def execRegulatorReport (mv : Nat) (s : State) : Host.Outcome State Fault Refusal := live s (regulatorReports mv)

/-! ### POWER_POLICY (R388) -/

/-- Is a profile within its ranges? The rack-manager fields of UNATTENDED are ignored. -/
def profileOk (b : List Byte) : Bool :=
  let x := fun (off k : Nat) => leAt b off k
  let within := fun (lo hi v : Nat) => decide (lo ≤ v) && decide (v ≤ hi)
  x 0 1 == 1 && decide (x 1 1 < 64) && within 300 950 (x 4 2) && within 1 1000 (x 6 2) && within 1 1000 (x 8 2) &&
  decide (x 0x0A 2 ≤ x 4 2) && within 150 500 (x 0x0C 2) && within 150 400 (x 0x0E 2) && decide (1000 ≤ x 0x10 4) &&
  decide (100000 ≤ x 0x14 4) && ((List.range 16).all fun i => decide (x (0x20 + i) 1 ≤ 35)) && within 80 104 (x 0x32 1) &&
  (slice b 0x33 13).all (· == 0)

def policyBlockOk (b : List Byte) : Bool :=
  profileOk (slice b 0 64) && profileOk (slice b 0x40 64) && (slice b 0x80 3968).all (· == 0)

/-- A change still waiting goes no higher than the policy's setting, which is the highest voltage a region runs (R21). -/
def clipChanges (s : State) : State :=
  let clip := fun (c : Nat × Nat) => (c.1, min c.2 (vSet s c.1))
  let l := (s.pwr.changes.map clip).filter fun c => decide (vAct s c.1 ≠ c.2)
  if l = s.pwr.changes then s else startChange (modPwr (fun p => { p with changes := l }) s)

/-- A profile takes effect: lower voltages at once, higher ones under the ramp rule; region services follow its flags. -/
def applyProfile (b : List Byte) (s : State) : State :=
  let s1 := modPwr (fun p => { p with policy := b }) s
  let s2 := (List.range 16).foldl (fun t n => t.setFld (Reg.PWR_RGN n) Reg.PWR_RGN_V_SET (leAt b (0x20 + n) 1)) s1
  let s3 := (List.range 16).foldl (fun t n => if vSet t n < vAct t n then askVolt n (vSet t n) t else t) (clipChanges s2)
  let s4 := setPwr Reg.PWR_STATUS_PROFILE (leAt b 2 2) s3
  settleServices (showLimits (if polBallast s4 then s4 else stopAllBallast s4))

/-- The watchdog starts over (R397). -/
def restartWdt (s : State) : State := modPwr (fun p => { p with wdtFrom := s.now, wdtExpired := none }) s

/-- RUNNING of PWR_RM_WDT. -/
def showWdt (s : State) : State := s.setFld Reg.PWR_RM_WDT Reg.PWR_RM_WDT_RUNNING (bit (polNat s 0x18 4 != 0))

def powerPolicyCheck (c : Cmd) (s : State) : State × Verdict :=
  match firstFail [reserved c [(0x10, 8)], param 0x10 (bufOk c none (c.p8 0x10) 1 s)] with
  | some f => (s, .reject f.1 f.2)
  | none =>
    let r := readBuf .ok c none (c.p8 0x10) 1 s
    match r.2 with
    | .waiting => (r.1, .wait)
    | .failed st => (r.1, .reject st 0x10)
    | .bytes b => if policyBlockOk b then (r.1.modCmd c.id fun d => { d with work := b.take 128 }, .accept)
                  else (r.1, .reject ST_BAD_PARAM 0x10)

def powerPolicyAct (c : Cmd) (s : State) : State :=
  let b := ((s.cmd c.id).map Cmd.work).getD []
  let s1 := commitAs c.id ST_OK 0 [] (acceptAs c.id id s)
  let s2 := modPwr (fun p => { p with unattended := slice b 0x40 64 }) s1
  let s3 := applyProfile (slice b 0 64) (setPwr Reg.PWR_STATUS_UNATTENDED 0 s2)
  showWdt (restartWdt (setPwr Reg.PWR_STATUS_RM_LOST 0 s3))

def execPowerPolicy (r : Ring) (_ : Choice) (s : State) : Host.Outcome State Fault Refusal :=
  live s (process 0x80 r powerPolicyCheck powerPolicyAct)

/-! ### The rack-manager watchdog (R397) -/

def wdtTicks (s : State) : Nat := polNat s 0x18 4

def kick (v : Nat) (s : State) : State :=
  if v = 0x5A5A then restartWdt (setPwr Reg.PWR_STATUS_RM_LOST 0 s) else s

def doRmKick (v : Word) (s : State) : State := kick (Reg.PWR_RM_KICK_KEY.get v) s

def execPwrRmKick (who : Requester) (v : Word) (s : State) : Host.Outcome State Fault Refusal :=
  live s (guardWrite who Reg.PWR_RM_KICK 8 v (doRmKick v))

def rmWdtExpires (s : State) : State :=
  if wdtTicks s = 0 ∨ s.pwr.wdtExpired.isSome ∨ s.now < s.pwr.wdtFrom + wdtTicks s then s
  else raisePower 10 (setPwr Reg.PWR_STATUS_RM_LOST 1 (modPwr (fun p => { p with wdtExpired := some s.now }) s))

def execRmWdtExpiry (s : State) : Host.Outcome State Fault Refusal := live s rmWdtExpires

/-- The unattended profile in force, with the rack-manager fields of the policy it replaces. -/
def unattendedProfile (s : State) : List Byte := splice s.pwr.unattended 0x18 (slice s.pwr.policy 0x18 8)

def rmHoldExpires (s : State) : State :=
  match s.pwr.wdtExpired with
  | none => s
  | some t =>
    if s.now < t + polNat s 0x1C 4 ∨ s.flag Reg.PWR_STATUS Reg.PWR_STATUS_UNATTENDED then s
    else applyProfile (unattendedProfile s) (setPwr Reg.PWR_STATUS_UNATTENDED 1 s)

def execRmHoldExpiry (s : State) : Host.Outcome State Fault Refusal := live s rmHoldExpires

/-- REMAIN of PWR_RM_WDT: to expiry, or of the hold after it. -/
def wdtRemain (s : State) : Nat :=
  match s.pwr.wdtExpired with
  | none => if wdtTicks s = 0 then 0 else s.pwr.wdtFrom + wdtTicks s - s.now
  | some t => t + polNat s 0x1C 4 - s.now

/-! ### PWRFAIL_N (R394, R212) -/

def powerFails (s : State) : State :=
  if ¬ s.pins.pwrfailN then s
  else
    let s1 := setPwr Reg.PWR_STATUS_PWRFAIL 1 { s with pins := { s.pins with pwrfailN := false } }
    let s2 := fastChange 35 (holdAndFlush (s1.bump Reg.PWR_EVENTS Reg.PWR_EVENTS_PWRFAIL 1))
    raisePower 8 (showLimits (stopAllBallast s2))

def execPwrfailNFall (s : State) : Host.Outcome State Fault Refusal := live s powerFails

/-- Acknowledge the writes that a channel held, in order; where no page is free they wait. -/
def ackHeld (n : Rgn) : List Nat → State → State
  | [], s => s
  | r :: rs, s =>
    match lowestPage s n with
    | some k => ackHeld n rs (unitWrite n r k 0 s)
    | none => s

def foldResumes (s : State) (n : Rgn) : State :=
  let held := (s.rgn n).fold.held
  let s1 := (modFold n (fun f => { f with hold := false, held := [] }) s).setFld (Reg.FOLD_STATUS n) Reg.FOLD_STATUS_FLUSHING 0
  ackHeld n held s1

/-- Copies and image reads that the hold had stopped go on. -/
def pumpAll (s : State) : State := ((s.cmds.filter fun c => c.phase == .running).map Cmd.id).foldl (fun t i => pump i t) s

/-- PWRFAIL_N rises: the hold is released, unless the chip has stopped (R406). -/
def powerReturns (s : State) : State :=
  if s.pins.pwrfailN then s
  else
    let s1 := setPwr Reg.PWR_STATUS_PWRFAIL 0 { s with pins := { s.pins with pwrfailN := true } }
    if s1.fatal then showLimits s1
    else
      let s2 := allRgns.foldl foldResumes (modPwr (fun p => { p with hold := false }) s1)
      releaseWarm (showLimits (pumpAll (holdEnds s2)))

def execPwrfailNRise (s : State) : Host.Outcome State Fault Refusal := live s powerReturns

/-! ### Coolant (R395) -/

def loseFlow (s : State) : State :=
  if flowLoss s then s
  else
    let s1 := (s.setFld Reg.PWR_COOLANT Reg.PWR_COOLANT_FLOW_LOSS 1).bump Reg.PWR_EVENTS Reg.PWR_EVENTS_FLOW_LOSS 1
    raiseCoolant 4 s1

/-- Flow loss begins, or the count toward its end runs. -/
def judgeFlow (s : State) : State :=
  if flowGood s then flowSettles s
  else loseFlow (modPwr (fun p => { p with flowOk := none }) s)

def coolantFalls (s : State) : State :=
  if ¬ s.pins.coolantOk then s
  else showLimits (judgeFlow (setPwr Reg.PWR_STATUS_COOLANT_OK 0 { s with pins := { s.pins with coolantOk := false } }))

def execCoolantOkFall (s : State) : Host.Outcome State Fault Refusal := live s coolantFalls

def coolantRises (s : State) : State :=
  if s.pins.coolantOk then s
  else showLimits (judgeFlow (setPwr Reg.PWR_STATUS_COOLANT_OK 1 { s with pins := { s.pins with coolantOk := true } }))

def execCoolantOkRise (s : State) : Host.Outcome State Fault Refusal := live s coolantRises

/-- Inlet derating: 20 W for each degree above 40, in tenths of a watt; 45 and above count as flow loss. -/
def deratingOf (t : Int) : Nat := if 400 < t ∧ t < 450 then 20 * (t - 400).toNat else 0

def coolantRead (res : Option (BitVec 16 × BitVec 16)) (s : State) : State :=
  if ¬ s.flag Reg.PWR_COOL_CFG Reg.PWR_COOL_CFG_ENABLE ∨ s.pwr.shut then s
  else match res with
    | some (t, f) =>
      let s1 := (s.setFld Reg.PWR_COOLANT Reg.PWR_COOLANT_INLET t.toNat).setFld Reg.PWR_COOLANT Reg.PWR_COOLANT_FLOW f.toNat
      let s2 := s1.setFld Reg.PWR_COOLANT Reg.PWR_COOLANT_STALE 0
      showLimits (judgeFlow (modPwr (fun p => { p with badReads := 0, derate := deratingOf t.toInt }) s2))
    | none =>
      let s1 := modPwr (fun p => { p with badReads := p.badReads + 1 }) (s.setFld Reg.PWR_COOLANT Reg.PWR_COOLANT_STALE 1)
      let s2 := if s1.pwr.badReads = 3 then
          raiseCoolant 5 (setPwr Reg.PWR_STATUS_SENSOR_ERR 1 (modPwr (fun p => { p with derate := 0 }) s1)) else s1
      showLimits (if 3 ≤ s1.pwr.badReads then judgeFlow s2 else s2)

def execCoolantRead (res : Option (BitVec 16 × BitVec 16)) (s : State) : Host.Outcome State Fault Refusal :=
  live s (coolantRead res)

/-! ### THERMAL_TRIP and TRIP_SHUTDOWN (R396) -/

def thermalTrip (s : State) : State :=
  if s.pwr.tripAt.isSome then s
  else if s.chipStage < 2 ∧ ¬ s.minimal then failedStart 0x09 s
  else raisePower 7 (holdAndFlush (modPwr (fun p => { p with tripAt := some s.now }) s))

def execThermalTrip (s : State) : Host.Outcome State Fault Refusal := live s thermalTrip

/-- Chip domains 0, 2 and 3. -/
def tripDomains : BitVec 168 := 0x0D#168 <<< 160

def shutRgn (s : State) (n : Rgn) : State :=
  (blocksOff n 0 s).setFld (Reg.PWR_RGN n.val) Reg.PWR_RGN_SERVICE_ON 0

def tripShutdown (s : State) : State :=
  match s.pwr.tripAt with
  | none => s
  | some t =>
    if s.pwr.shut ∨ (anyFlushing s ∧ s.now < t + 2500000) then s
    else
      let s1 := allRgns.foldl shutRgn s
      { (modPwr (fun p => { p with domains := tripDomains, shut := true }) s1) with pins := { s1.pins with thermtripN := false } }

def execTripShutdown (s : State) : Host.Outcome State Fault Refusal := live s tripShutdown

/-! ### Gating, deep idle and waking (R384, R385) -/

/-- No plan, no command dispatched to the region, no load and no ballast. -/
def rgnIdle (s : State) (n : Rgn) : Bool :=
  (s.rgn n).plan.isNone && !s.pwr.wake.getLsbD n.val && (s.rgn n).seq.loads.isEmpty && (s.rgn n).ballast.isNone &&
  !(s.cmds.any fun c => c.phase == .running && c.span.contains n.val)

def gateBlocks (n : Rgn) (s : State) : State :=
  if polGate s ∧ 3 ≤ s.stage n ∧ rgnIdle s n ∧ blocksReady s n ∧ (s.rgn n).idleFrom + polNat s 0x10 4 ≤ s.now then
    blocksOff n 2 s
  else s

def execBlockGating (n : Rgn) (s : State) : Host.Outcome State Fault Refusal := live s (gateBlocks n)

/-- No accepted command is unfinished in any partition. -/
def noCommand (s : State) : Bool := s.cmds.all fun c => !(c.live || c.phase == .committed)

def deepIdle (s : State) : State :=
  if polDeepIdle s ∧ ¬ polBallast s ∧ s.chipStage = 2 ∧ ¬ s.minimal ∧ ¬ s.pwr.shut ∧
      ¬ s.flag Reg.PWR_STATUS Reg.PWR_STATUS_DEEP_IDLE ∧ noCommand s ∧ s.pwr.lastActive + polNat s 0x14 4 ≤ s.now ∧
      allRgns.all (rgnIdle s) then
    let s1 := setPwr Reg.PWR_STATUS_DEEP_IDLE 1 (allRgns.foldl (fun t n => blocksOff n 0 t) s)
    if polL0p s ∧ linkUp s1 then s1.setFld Reg.TAITH_STATUS Reg.TAITH_STATUS_WIDTH 1 else s1
  else s

def execDeepIdleEntry (s : State) : Host.Outcome State Fault Refusal := live s deepIdle

/-- A block that is off or gated comes on once its region has been asked to wake. -/
def powerBlock (n : Rgn) (b : Nat) (s : State) : State :=
  if s.pwr.wake.getLsbD n.val ∧ serviceOn s n ∧ (blockState s n b = 0 ∨ blockState s n b = 2) then blockOn n b s else s

def execBlockPowerOn (n : Rgn) (b : Blk) (s : State) : Host.Outcome State Fault Refusal := live s (powerBlock n b.val)

/-! ### Starting plans under power (R384, R389, R391, R393) -/

/-- Start power of a command's regions in tenths of a watt. -/
def startNeed (s : State) (c : Cmd) : Nat := c.span.foldl (fun k n => k + s.pwr.startPower.toList.getD n 0) 0

/-- Does power hold the start: would the start power reach a cap (R21, R387) or pass the ceiling (R389)? -/
def startHeld (s : State) (c : Cmd) : Bool :=
  let p := 10 * windowW s + s.pwr.started + startNeed s c
  overCap s || (decide (0 < s.pwr.history.length) && decide (capTenths s ≤ p)) ||
  match rampCeiling s with
  | none => false
  | some k => decide (k < p)

/-- A region that a dispatched command waits for: its ballast is flushed, and blocks that are off are woken. -/
def prepareRgn (n : Nat) (s : State) : State :=
  if 16 ≤ n then s
  else
    let r : Rgn := Fin.ofNat 16 n
    let s1 := stopBallast r s
    if blocksReady s1 r then s1 else wakeRgn n s1

def prepareRgns (ns : List Nat) (s : State) : State := ns.foldl (fun t n => prepareRgn n t) s

end Sys2Proof.Machine
end

