-- ==== Sys2Proof/Machine/Firmware.lean ====
section
/-!
DEFINITION. Root of trust, attestation and firmware (18_security.md): boot bundles, ATTEST, FW_STAGE, FW_COMMIT, the Tahr mailbox
and the management endpoint.
-/

namespace Sys2Proof.Machine

/-! ### Boot bundles (R428, R429, Table 18.3) -/

def bTiles (b : List Byte) : Nat := leAt b 0x10 2
def bRollback (b : List Byte) : Nat := leAt b 5 1
def bRevoke (b : List Byte) : BitVec 4 := BitVec.ofNat 4 (leAt b 6 1)
def bVersion (b : List Byte) : Nat := leAt b 8 8
def bFirst (b : List Byte) (i : Nat) : Nat := leAt b (0x40 + 64 * i) 4
def bCount (b : List Byte) (i : Nat) : Nat := leAt b (0x44 + 64 * i) 4
def bDigest (b : List Byte) (i : Nat) : List Byte := slice b (0x50 + 64 * i) 48
def bSection (b : List Byte) (i : Nat) : List Byte := slice b (4096 * bFirst b i) (4096 * bCount b i)
def bHeaderDigest (b : List Byte) : List Byte := Config.sha384 (slice b 0 0x100)
/-- Tiles 1 to 5, the signature block. -/
def bSig (b : List Byte) : List Byte := slice b 4096 20480

def sectionsApart (b : List Byte) (i k : Nat) : Bool :=
  decide (bFirst b i + bCount b i ≤ bFirst b k) || decide (bFirst b k + bCount b k ≤ bFirst b i)

/-- Item 1 of R429. -/
def bundleHeaderOk (b : List Byte) : Bool :=
  leAt b 0 4 == 0x1F6A0E01 && leAt b 4 1 == 1 && decide (bRollback b ≤ 64) && decide (leAt b 6 1 < 16) && leAt b 7 1 == 0 &&
  decide (9 ≤ bTiles b) && decide (bTiles b ≤ 1024) && decide (4096 * bTiles b ≤ b.length) && zeroBytes (slice b 0x12 46) &&
  ((List.range 3).all fun i => zeroBytes (slice b (0x48 + 64 * i) 8) && decide (6 ≤ bFirst b i) && decide (1 ≤ bCount b i) &&
    decide (bFirst b i + bCount b i ≤ bTiles b)) &&
  sectionsApart b 0 1 && sectionsApart b 0 2 && sectionsApart b 1 2

/-- The unrevoked ROOT slot that a bundle's signer hash equals; an all-zero slot is empty. -/
def signerSlot (s : State) (b : List Byte) : Option Nat :=
  (List.range 4).find? fun i =>
    Config.fit 48 (Config.rootHash i) == signerHash (bSig b) && !zeroBytes (Config.fit 48 (Config.rootHash i)) && !s.sec.revoke.getLsbD i

/-- The checks of R429 in order: none, or the reason of the first failure. -/
def bundleCheck (s : State) (b : List Byte) : Option Nat :=
  if ¬ bundleHeaderOk b then some 1
  else if (signerSlot s b).isNone ∨ ¬ sigVerifies (bSig b) (bHeaderDigest b) then some 2
  else if bRollback b < s.sec.counter then some 3
  else if (List.range 3).all fun i => Config.sha384 (bSection b i) == bDigest b i then none
  else some 2

def bundleStatus (reason : Nat) : Nat := if reason = 1 then ST_BAD_PARAM else if reason = 2 then ST_AUTH_FAIL else ST_ROLLBACK

/-- STAGED and PLDM_OWNED follow the staging store. -/
def showStaging (s : State) : State :=
  let a := Reg.TAHR_STATUS
  match s.sec.staging with
  | none => (s.setFld a Reg.TAHR_STATUS_STAGED 0).setFld a Reg.TAHR_STATUS_PLDM_OWNED 0
  | some x => (s.setFld a Reg.TAHR_STATUS_STAGED (bit x.checked)).setFld a Reg.TAHR_STATUS_PLDM_OWNED (bit x.pldm)

def setStaging (x : Option Staging) (s : State) : State := showStaging (modSec (fun c => { c with staging := x }) s)

def pldmHeld (s : State) : Bool := (s.sec.staging.map Staging.pldm).getD false

/-- An image refused (source 14). -/
def imageRefused (cmd : Option Nat) (s : State) : State := raiseDetail 14 cmd (s.reg Reg.TAHR_STATUS).toNat s

/-- SEAL_PENDING: the running ROLLBACK is above the counter. -/
def showSeal (s : State) : State :=
  s.setFld Reg.TAHR_STATUS Reg.TAHR_STATUS_SEAL_PENDING (bit (decide (s.sec.counter < bRollback s.sec.running)))

/-! ### ATTEST (R433) -/

def attestCheck (c : Cmd) (s : State) : Fail :=
  firstFail [reserved c [(0x10, 32), (0x30, 8)], param 0x30 (bufOk c none (c.p8 0x30) 5 s)]

def attestAct (c : Cmd) (s : State) : State := tahrAsk (tqAttest c.id) (startWork c.id id s)

def execAttest (r : Ring) (_ : Choice) (s : State) : Host.Outcome State Fault Refusal :=
  live s (process 0x90 r (quiet attestCheck) attestAct)

/-- Bytes 0x000 to 0x38F of Table 18.5. -/
def reportBody (s : State) (c : Cmd) : List Byte :=
  let f := fun (x : Fld) => s.flag Reg.TAHR_STATUS x
  leBytes 4 0x1F6A0A77 ++ [1] ++
  leBytes 1 (bit s.minimal + 2 * bit (f Reg.TAHR_STATUS_UNLOCKED) + 4 * bit (f Reg.TAHR_STATUS_SEAL_PENDING)) ++
  leBytes 1 ((c.part.map Fin.val).getD 0xFF) ++ leBytes 1 s.sec.counter ++ slice c.pkt 0x10 32 ++ Config.identityHash ++
  Config.fit 16 Config.deviceId ++ leBytes 8 (s.reg Reg.FAB_CHIP_ID).toNat ++
  leBytes 8 (if s.minimal then 0 else bVersion s.sec.running) ++ leBytes 1 (s.fld Reg.TAHR_STATUS Reg.TAHR_STATUS_SCOPE) ++
  leBytes 1 s.sec.revoke.toNat ++ List.replicate 6 0 ++ s.sec.mrs.toList.flatMap (Config.fit 48) ++ List.replicate 16 0

def attestReport (s : State) (c : Cmd) : List Byte :=
  let b := reportBody s c
  let d := Config.sha384 (b.take 0x390)
  b ++ Config.fit 384 (Config.identitySign 0 d s.free) ++ Config.fit 16224 (Config.identitySign 1 d s.free)

/-- The report's length. -/
def attestLength : Nat := 17520

def attestWork (c : Cmd) (s : State) : State :=
  tahrTurn (tqAttest c.id) (fun t =>
    writeResult c none (c.p8 0x30) (attestReport t c) attestLength { t with free := t.free + 1 }) s

/-! ### FW_STAGE and FW_COMMIT (R439 to R442) -/

def isFw (op : Nat) : Bool := op == 0x91 || op == 0x92

/-- No firmware command accepted earlier is unfinished (R440). -/
def fwTurn (s : State) (c : Cmd) : Bool := !(s.cmds.any fun d => isFw d.opcode && d.live && d.id != c.id && decide (d.seq < c.seq))

def fwStageCheck (c : Cmd) (s : State) : Fail :=
  let k := c.p4 0x18
  firstFail [reserved c [(0x10, 8), (0x18, 4), (0x1C, 1)], param 0x1C (c.p1 0x1C == 0),
    param 0x18 (decide (1 ≤ k) && decide (k ≤ 1024)), param 0x10 (bufLoc (c.p8 0x10) == 0 && bufOk c none (c.p8 0x10) k s)]

/-- Where the image lies in companion memory, and its bytes. -/
def fwBase (s : State) (c : Cmd) : Nat := winBase s + bufOff (c.p8 0x10)
def fwTotal (c : Cmd) : Nat := 4096 * c.p4 0x18

def fwFeed (c : Cmd) (s : State) : State := feedTile c (fwBase s c) true (fwTotal c) s

/-- A firmware command starts once those before it have ended: a stage empties the store and reads its image. -/
def fwStart (c : Cmd) (s : State) : State :=
  if c.phase = .accepted ∧ fwTurn s c then
    let s1 := s.modCmd c.id fun d => { d with phase := .running, planStart := max 1 s.now }
    if c.opcode = 0x91 then (if pldmHeld s then endCommand c.id ST_ADMIT_MEMORY 0 s1 else fwFeed c (setStaging none s1))
    else s1
  else s

/-- Start a firmware command that has just been accepted, if it may. -/
def fwTry (id : Nat) (s : State) : State :=
  match s.cmd id with
  | none => s
  | some c => fwStart c s

def fwStageAct (c : Cmd) (s : State) : State := fwTry c.id (acceptAs c.id id s)

def execFwStage (r : Ring) (_ : Choice) (s : State) : Host.Outcome State Fault Refusal :=
  live s (process 0x91 r (quiet fwStageCheck) fwStageAct)

/-- The check of a staged image, once all of it is in the store. -/
def fwStageWork (c : Cmd) (s : State) : State :=
  match c.rdErr with
  | some st => endCommand c.id st 0 s
  | none =>
    if c.work.length < fwTotal c then s
    else tahrTurn (tqFirmware c.id) (fun t =>
      match bundleCheck t c.work with
      | some k => imageRefused (some c.id) (endCommand c.id (bundleStatus k) 0 t)
      | none =>
        if bTiles c.work = c.p4 0x18 then
          commitAs c.id ST_OK (c.p4 0x18) [] (setStaging (some ⟨c.work, true, false, t.now⟩) t)
        else imageRefused (some c.id) (endCommand c.id ST_BAD_PARAM 0 t)) s

def fwCommitCheck (c : Cmd) (_ : State) : Fail := firstFail [reserved c [(0x10, 1)], param 0x10 (decide (c.p1 0x10 < 2))]

/-- `ch.handle` other than 0 stands for a flash write or read-back that fails. -/
def execFwCommit (r : Ring) (ch : Choice) (s : State) : Host.Outcome State Fault Refusal :=
  live s (process 0x92 r (quiet fwCommitCheck) fun c s => fwTry c.id (acceptAs c.id (fun d => { d with ch := ch }) s))

/-- Write a bundle to the slot that is not current, read it back and check it, and make it current; a write that fails leaves
that slot's bytes open. -/
def writeFlash (b : List Byte) (ok : Bool) (s : State) : State × Bool :=
  let o := 1 - s.sec.current
  if ok then
    let s1 := modSec (fun c => { c with flash := Vec.modify c.flash o fun _ => b }) s
    if (bundleCheck s b).isNone then (modSec (fun c => { c with current := o }) s1, true) else (s1, false)
  else
    let junk := (List.range b.length).map (Config.freeByte s.free)
    (modSec (fun c => { c with flash := Vec.modify c.flash o fun _ => junk }) { s with free := s.free + 1 }, false)

/-- A checked bundle that no PLDM update holds. -/
def stagedBundle (s : State) : Option (List Byte) :=
  match s.sec.staging with
  | some x => if x.checked ∧ ¬ x.pldm then some x.bytes else none
  | none => none

def companionBoot (s : State) : Bool := s.flag Reg.BOOT_STATUS Reg.BOOT_STATUS_SRC

/-- FW_COMMIT 0 (R441). -/
def commitSlot (c : Cmd) (s : State) : State :=
  match stagedBundle s with
  | none => endCommand c.id ST_BAD_PARAM 0 s
  | some b =>
    if companionBoot s then endCommand c.id ST_BAD_PARAM 0 s
    else
      let r := writeFlash b (c.ch.handle == 0) s
      if r.2 then commitAs c.id ST_OK r.1.sec.counter [] r.1
      else
        let s1 := endCommand c.id ST_TIER_ERROR 0 r.1
        if (bundleCheck s b).isNone then s1 else imageRefused (some c.id) s1

/-- Seal the running bundle (R442, R427): the counter never falls, and the slot that signed it is not revoked. -/
def sealRunning (s : State) : State :=
  let own := 1#4 <<< s.fld Reg.TAHR_STATUS Reg.TAHR_STATUS_SIGNER
  showSeal (modSec (fun c => { c with
    counter := max c.counter (bRollback c.running), revoke := c.revoke ||| (bRevoke c.running &&& ~~~ own) }) s)

def commitSeal (c : Cmd) (s : State) : State :=
  if s.minimal then endCommand c.id ST_BAD_PARAM 0 s
  else
    let s1 := sealRunning s
    commitAs c.id ST_OK s1.sec.counter [] s1

def fwCommitWork (c : Cmd) (s : State) : State :=
  tahrTurn (tqFirmware c.id) (if c.p1 0x10 = 0 then commitSlot c else commitSeal c) s

/-! ### The Tahr mailbox (R430, R432, R436 to R438, Tables 18.8 to 18.11) -/

def setScope (k : Nat) (s : State) : State :=
  let a := Reg.TAHR_STATUS
  ((s.setFld a Reg.TAHR_STATUS_SCOPE k).setFld a Reg.TAHR_STATUS_UNLOCKED (bit (k != 0))).setDom (chipDom 6) (k.testBit 0)

/-- LOCK: the scope is clear at once, and MR7 is extended with 48 bytes of 0xFF. -/
def lockNow (s : State) : State := extendMr 7 (List.replicate 48 0xFF) (setScope 0 s)

def raiseDebug (s : State) : State := raiseDetail 13 none (s.reg Reg.TAHR_STATUS).toNat s

/-- A write of TAHR_MBX_CMD: GO starts an operation unless one is in progress. -/
def doMbxCmd (v : Word) (s : State) : State :=
  let a := Reg.TAHR_MBX_CMD
  let s1 := plainWrite a v s
  if Reg.TAHR_MBX_CMD_GO.get v = 1 ∧ ¬ s.flag a Reg.TAHR_MBX_CMD_BUSY then
    let op := Reg.TAHR_MBX_CMD_OP.get v
    let x : MbxOp := ⟨op, Reg.TAHR_MBX_CMD_INDEX.get v, (s.reg Reg.TAHR_MBX_ARG).toNat, false⟩
    let s2 := (s1.setFld a Reg.TAHR_MBX_CMD_BUSY 1).setFld a Reg.TAHR_MBX_CMD_RESULT 0
    let s3 := tahrAsk tqMailbox (modSec (fun c => { c with mbxOp := some x }) s2)
    if op = 5 then raiseDebug (lockNow s3) else if op = 4 then raiseDebug s3 else s3
  else s1

/-- The write starts operation `op`. -/
def startsMbx (op : Nat) (v : Word) : Bool := Reg.TAHR_MBX_CMD_OP.get v == op && Reg.TAHR_MBX_CMD_GO.get v == 1

def mbxWrite (op : Nat) (who : Requester) (v : Word) (s : State) : State :=
  if startsMbx op v then guardWrite who Reg.TAHR_MBX_CMD 8 v (doMbxCmd v) s else s

def execGetCert (who : Requester) (v : Word) (s : State) : Host.Outcome State Fault Refusal := live s (mbxWrite 1 who v)
def execMrExtend (who : Requester) (v : Word) (s : State) : Host.Outcome State Fault Refusal := live s (mbxWrite 2 who v)
def execUnlockChallenge (who : Requester) (v : Word) (s : State) : Host.Outcome State Fault Refusal := live s (mbxWrite 3 who v)
def execUnlock (who : Requester) (v : Word) (s : State) : Host.Outcome State Fault Refusal := live s (mbxWrite 4 who v)
def execLock (who : Requester) (v : Word) (s : State) : Host.Outcome State Fault Refusal := live s (mbxWrite 5 who v)

/-- The end of an operation: BUSY clears, RESULT and LENGTH are set. -/
def tahrEnds (result length : Nat) (s : State) : State :=
  let a := Reg.TAHR_MBX_CMD
  let s1 := (s.setFld a Reg.TAHR_MBX_CMD_BUSY 0).setFld a Reg.TAHR_MBX_CMD_RESULT result
  modSec (fun c => { c with mbxOp := none }) (s1.setFld Reg.TAHR_MBX_RESP Reg.TAHR_MBX_RESP_LENGTH length)

/-- A mailbox buffer is a valid one in the coherent window: no partition owns the mailbox (R289). -/
def mbxBufOk (buf tiles : Nat) (s : State) : Bool :=
  bufLoc buf == 0 && buf / 4 % 1024 == 0 && decide (bufOff buf + 4096 * tiles ≤ winSize) && linkPresent s && !linkLost s

/-- Write bytes to the buffer. -/
def mbxWrites (buf : Nat) (b : List Byte) (s : State) : State :=
  if mbxBufOk buf ((b.length + 4095) / 4096) s then
    tahrEnds 1 b.length (writeWindowLines ((b.length + 63) / 64) (winBase s + bufOff buf) b s)
  else tahrEnds 7 0 s

/-- Operations that read the buffer; `mailboxDone` has seen to it that its lines have come. -/
def mbxReads (x : MbxOp) (tiles lines : Nat) (f : List Byte → State → State) (s : State) : State :=
  if x.failed ∨ ¬ mbxBufOk x.buf tiles s then tahrEnds 7 0 s
  else
    let r := readCompanion true none (winBase s + bufOff x.buf) lines s
    match r.2 with
    | some b => f b (dropHeld none (winBase s + bufOff x.buf) (64 * lines) r.1)
    | none => r.1

/-- The token body of R436. -/
def tokenBody (challenge : List Byte) : List Byte :=
  List.replicate 8 0 ++ Config.fit 32 challenge ++ Config.identityHash ++ List.replicate 40 0

/-- The RESULT with which UNLOCK refuses a token (R437), if it does. -/
def tokenRefused (s : State) (b : List Byte) : Option Nat :=
  let g := slice b 0x80 0x4294
  if ¬ (leAt b 0 4 = 0x1F6A0D0B ∧ leAt b 4 1 = 1 ∧ leAt b 5 1 < 16 ∧ zeroBytes (slice b 6 2) ∧ slice b 0x28 48 = Config.identityHash ∧
      zeroBytes (slice b 0x58 40) ∧ zeroBytes (b.drop 0x4314)) then some 3
  else if s.sec.challenge ≠ some (slice b 8 32) then some 6
  else if signerHash g ≠ Config.fit 48 Config.debugSignerHash ∨ ¬ sigVerifies g (Config.sha384 (slice b 0 0x80)) then some 5
  else if (leAt b 5 1).testBit 0 ∧ (s.parts.toList.any fun p => p.mask != 0) then some 4
  else none

def unlockToken (b : List Byte) (s : State) : State :=
  match tokenRefused s b with
  | some k => tahrEnds k 0 s
  | none =>
    let s1 := setScope (leAt b 5 1) (modSec (fun c => { c with challenge := none }) s)
    tahrEnds 1 0 (extendMr 7 (Config.sha384 (slice b 0 0x80)) s1)

/-- An operation at its turn in Tahr's queue; `rnd` is a fresh challenge. -/
def mbxRun (x : MbxOp) (rnd : List Byte) (s : State) : State :=
  if x.op = 1 then (if x.index < 4 then mbxWrites x.buf ((Config.cert x.index).take 20480) s else tahrEnds 3 0 s)
  else if x.op = 2 then
    (if 10 ≤ x.index then mbxReads x 1 1 (fun b t => tahrEnds 1 0 (extendMr x.index (b.take 48) t)) s else tahrEnds 3 0 s)
  else if x.op = 3 then
    mbxWrites x.buf (tokenBody rnd) (modSec (fun c => { c with challenge := some (Config.fit 32 rnd) }) s)
  else if x.op = 4 then mbxReads x 5 320 unlockToken s
  else if x.op = 5 then tahrEnds 1 0 s
  else tahrEnds 2 0 s

/-- Does the operation wait for lines of its buffer? They are asked for. -/
def mbxFetch (x : MbxOp) (s : State) : State × Bool :=
  let k := if x.op = 2 ∧ 10 ≤ x.index then 1 else if x.op = 4 then 320 else 0
  if x.failed ∨ k = 0 ∨ ¬ mbxBufOk x.buf ((k + 63) / 64) s then (s, false)
  else
    let r := readCompanion true none (winBase s + bufOff x.buf) k s
    (r.1, r.2.isNone)

def mailboxDone (rnd : List Byte) (s : State) : State :=
  match s.sec.mbxOp with
  | none => s
  | some x =>
    let r := mbxFetch x s
    if r.2 then r.1 else tahrTurn tqMailbox (mbxRun x rnd) r.1

def execTahrMailboxDone (rnd : List Byte) (s : State) : Host.Outcome State Fault Refusal := live s (mailboxDone rnd)

/-! ### The management endpoint (R443) -/

/-- Is the endpoint up: chip domain 7 on, and Eland firmware, or recovery firmware, running? -/
def mctpUp (s : State) : Bool := s.domOn (chipDom 7) && (s.chipStage == 2 || s.minimal)

def mctpReply (bus : MctpBus) (ok : Bool) (value : Option Int) (s : State) : State :=
  modSec (fun c => { c with mctpOut := c.mctpOut ++ [⟨bus, ok, value⟩] }) s

def setEid (bus : MctpBus) (eid : Byte) (s : State) : State :=
  if mctpUp s then mctpReply bus true none (modSec (fun c => { c with eid := eid }) s) else s

def execSetEndpointId (bus : MctpBus) (eid : Byte) (s : State) : Host.Outcome State Fault Refusal := live s (setEid bus eid)

/-- A discovery command is answered; what the answer holds is DSP0240's. -/
def discovery (bus : MctpBus) (s : State) : State :=
  if mctpUp s then
    let r := s.fresh
    mctpReply bus true (some r.1.toNat) r.2
  else s

def execPldmDiscovery (bus : MctpBus) (_ : Byte) (s : State) : Host.Outcome State Fault Refusal := live s (discovery bus)

/-- The numeric sensors: regions 0 to 15, chip, HBM, package power, coolant inlet and flow. -/
def sensorValue (s : State) (k : Nat) : Option Int :=
  if k < 16 then some (s.fld (Reg.PWR_RGN k) Reg.PWR_RGN_TEMP)
  else if k = 16 then some (s.fld Reg.PWR_CHIP_TEMP Reg.PWR_CHIP_TEMP_CHIP)
  else if k = 17 then some (s.fld Reg.PWR_CHIP_TEMP Reg.PWR_CHIP_TEMP_HBM)
  else if k = 18 then some (s.fld Reg.PWR_MEAS Reg.PWR_MEAS_WINDOW_W)
  else if k = 19 then some (inlet s)
  else if k = 20 then some (s.fld Reg.PWR_COOLANT Reg.PWR_COOLANT_FLOW)
  else none

def readSensor (bus : MctpBus) (k : Nat) (s : State) : State :=
  if mctpUp s then mctpReply bus (sensorValue s k).isSome (sensorValue s k) s else s

def execGetSensorReading (bus : MctpBus) (k : Nat) (s : State) : Host.Outcome State Fault Refusal := live s (readSensor bus k)

/-- Does a firmware command of the management ring hold the store? -/
def fwBusy (s : State) : Bool := s.cmds.any fun c => isFw c.opcode && c.phase == .running

def requestUpdate (bus : MctpBus) (s : State) : State :=
  if ¬ mctpUp s then s
  else if pldmHeld s ∨ fwBusy s then mctpReply bus false none s
  else mctpReply bus true none (setStaging (some ⟨[], false, true, s.now⟩) s)

def execRequestUpdate (bus : MctpBus) (s : State) : Host.Outcome State Fault Refusal := live s (requestUpdate bus)

/-- A transfer moves data into the store; after the last, the bundle is checked, and one that fails is dropped. -/
def pldmTransfer (bus : MctpBus) (off : Nat) (data : List Byte) (last : Bool) (s : State) : State :=
  match s.sec.staging with
  | none => if mctpUp s then mctpReply bus false none s else s
  | some x =>
    if ¬ mctpUp s then s
    else if ¬ x.pldm ∨ 4194304 < off + data.length ∨ x.bytes.length < off then mctpReply bus false none s
    else
      let b := splice (x.bytes ++ List.replicate (off + data.length - x.bytes.length) 0) off data
      if last then
        match bundleCheck s b with
        | none => mctpReply bus true none (setStaging (some ⟨b, true, true, s.now⟩) s)
        | some _ => mctpReply bus false none (imageRefused none (setStaging (some ⟨[], false, true, s.now⟩) s))
      else mctpReply bus true none (setStaging (some ⟨b, false, true, s.now⟩) s)

def execFirmwareTransfer (bus : MctpBus) (off : Nat) (data : List Byte) (last : Bool) (s : State) :
    Host.Outcome State Fault Refusal := live s (pldmTransfer bus off data last)

/-- ActivateFirmware has the effect of FW_COMMIT 0, and ends the update's hold. Whether the flash takes the bundle is open. -/
def activateFw (bus : MctpBus) (s : State) : State :=
  match s.sec.staging with
  | none => if mctpUp s then mctpReply bus false none s else s
  | some x =>
    if ¬ mctpUp s ∨ ¬ x.pldm then (if mctpUp s then mctpReply bus false none s else s)
    else
      let s1 := setStaging none s
      if ¬ x.checked ∨ companionBoot s then mctpReply bus false none s1
      else
        let r := s1.fresh
        let w := writeFlash x.bytes (!r.1.getLsbD 0) r.2
        mctpReply bus w.2 none w.1

def execActivateFirmware (bus : MctpBus) (s : State) : Host.Outcome State Fault Refusal := live s (activateFw bus)

def cancelUpdate (bus : MctpBus) (s : State) : State :=
  if ¬ mctpUp s then s
  else if pldmHeld s then mctpReply bus true none (setStaging none s) else mctpReply bus false none s

def execCancelUpdate (bus : MctpBus) (s : State) : Host.Outcome State Fault Refusal := live s (cancelUpdate bus)

/-- 60 s without a transfer. -/
def updateTimes (s : State) : State :=
  match s.sec.staging with
  | none => s
  | some x => if x.pldm ∧ x.last + 6000000000 ≤ s.now then setStaging none s else s

def execPldmUpdateTimeout (s : State) : Host.Outcome State Fault Refusal := live s updateTimes

def vendorKick (bus : MctpBus) (arg : Nat) (s : State) : State :=
  if mctpUp s then mctpReply bus true none (kick arg s) else s

def execVendorKick (bus : MctpBus) (arg : BitVec 16) (s : State) : Host.Outcome State Fault Refusal := live s (vendorKick bus arg.toNat)

end Sys2Proof.Machine
end

