-- ==== Sys2Proof/Machine/Commit.lean ====
section
/-!
DEFINITION. PLAN_DISPATCH and COMMIT (R300, R313, R317, R389, R391, R393): a dispatched command wakes and clears its regions and waits
for the ramp ceiling and the caps; the commit arbiter applies a finished command in one step.
-/

namespace Sys2Proof.Machine

/-! ### PLAN_DISPATCH -/

/-- The plan starts: its start power counts against the ceiling, and with RAMP its regions begin at 0.60 V (R389). -/
def startPowered (c : Cmd) (s : State) : State :=
  let s1 := modPwr (fun p => { p with started := p.started + startNeed s c }) (showHoldBit false (startRun c s))
  if polRamp s then c.span.foldl (fun t n => if n < 16 then askVolt n 0 t else t) s1 else s1

/-- A plan command that holds its regions: they are woken and cleared of ballast; the plan starts once all are free, unless
power holds it. -/
def dispatchRun (c : Cmd) (s : State) : State :=
  match c.part with
  | none => s
  | some p =>
    if c.span.all fun n => holds s p c n && decide (n < 16) && (s.rgn (Fin.ofNat 16 n)).plan.isNone then
      let s1 := prepareRgns c.span s
      if c.span.all (rgnFree s1) then (if startHeld s1 c then showHoldBit true s1 else startPowered c s1) else s1
    else s

def dispatchPlan (id : Nat) (ch : Choice) (s : State) : State :=
  match s.cmd id with
  | none => s
  | some c =>
    if s.fatal ∨ s.pwr.hold then s
    else if isRunOp c.opcode then (if c.phase = .accepted ∨ c.phase = .rerun then dispatchRun c s else s)
    else if isFreeOp c.opcode then pump id (startFree c ch s)
    else s

def execPlanDispatch (id : Nat) (ch : Choice) (s : State) : Host.Outcome State Fault Refusal :=
  live s (dispatchPlan id ch)

/-! ### COMMIT -/

/-- The work of the commands that neither run a plan nor are plan-free. -/
def otherWork (c : Cmd) (s : State) : State :=
  if c.phase = .accepted ∧ isFw c.opcode then fwStart c s
  else if c.phase ≠ .running then s
  else if c.opcode = 0x02 then partitionWork c s
  else if c.opcode = 0x61 then unbindWork c s
  else if c.opcode = 0x63 then withdrawWork c s
  else if c.opcode = 0x90 then attestWork c s
  else if c.opcode = 0x91 then fwStageWork c s
  else if c.opcode = 0x92 then fwCommitWork c s
  else s

/-- A chip-fatal stop commits nothing more; under the power-fail hold, plan-free work waits (R394, R406). -/
def commitAny (id : Nat) (s : State) : State :=
  match s.cmd id with
  | none => s
  | some c =>
    if s.fatal ∨ (s.pwr.hold ∧ isFreeOp c.opcode) then s
    else if [0x02, 0x61, 0x63, 0x90, 0x91, 0x92].contains c.opcode then otherWork c s
    else commitCmd id s

def execCommit (id : Nat) (s : State) : Host.Outcome State Fault Refusal := live s (commitAny id)

end Sys2Proof.Machine
end

