-- ==== Sys2Proof/Machine/Boot.lean ====
section
/-!
DEFINITION. Bring-up, reset and failed starts (15_bringup.md), the reset pins (R366, R467), the reference clock (R464) and the
supplies (R465).
-/

namespace Sys2Proof.Machine

/-! ### POR_N and the supplies (R366 to R368, R213, R465) -/

/-- Undo a buffered fold write that was not programmed: the unit is as it was before. -/
def undoWrite (n : Rgn) (w : FoldWrite) (s : State) : State :=
  let s1 := s.store (foldAddr n (16384 * w.unit)) w.data
  modFold n (fun f => { f with
    units := (f.units.filter fun u => u.unit != w.unit) ++ w.old.toList }) s1

/-- Buffered writes, latest first: each is kept or lost, and once a unit has kept one, its earlier ones stay under it. -/
def loseWrites (n : Rgn) : List FoldWrite → List Nat → State → State
  | [], _, s => s
  | w :: ws, kept, s =>
    if kept.contains w.unit then loseWrites n ws kept s
    else
      let r := s.fresh
      if r.1.getLsbD 0 then loseWrites n ws (w.unit :: kept) r.2 else loseWrites n ws kept (undoWrite n w r.2)

/-- Buffered writes that a unit still maps. -/
def survivors (s : State) (n : Rgn) : List FoldWrite :=
  (s.rgn n).fold.wbuf.filter fun w => (s.rgn n).fold.units.any fun u => u.unit == w.unit && u.seq == w.seq

/-- What a channel is after its writes not yet durable have been decided: the numbers go on from the latest write that stayed. -/
def loseBuffer (s : State) (n : Rgn) : State :=
  let t := loseWrites n (s.rgn n).fold.wbuf.reverse [] s
  let a := Reg.FOLD_SEQ n
  let seq := match (survivors t n).getLast? with
    | some w => w.seq
    | none => t.fld a Reg.FOLD_SEQ_DURABLE
  (modFold n (fun f => { f with wbuf := [] }) t).setFld a Reg.FOLD_SEQ_ACKED seq

/-- Everything but the fuses, the flash, the fold tier and its metadata is lost; the board's inputs stay as they are, and local
time starts over (R13, R366). -/
def powerOnReset (s : State) : State :=
  { State.reset with
    pending := s.pending, free := s.free, nextId := s.nextId,
    mem := keptMem s.mem, keys := keptKeys s.keys, nextKey := s.nextKey, cells := keptCells s.cells, rgns := Vector.ofFn (keptRegion s),
    sec := { State.reset.sec with counter := s.sec.counter, revoke := s.sec.revoke, flash := s.sec.flash,
                                  current := s.sec.current },
    pins := { s.pins with porN := false, errN := true, thermtripN := true, refclkLost := false } }

/-- POR_N falls: asynchronous, never deferred; acknowledged fold writes not yet durable may be lost (R213). -/
def porFalls (s : State) : State := if s.pins.porN then powerOnReset (allRgns.foldl loseBuffer s) else s

def execPorNFall (s : State) : Host.Outcome State Fault Refusal := .next (porFalls s)

/-- The supplies fall, announced or not; POR_N is low until they are back (Table 15.1). -/
def supplyFalls (s : State) : State := powerOnReset (allRgns.foldl loseBuffer s)

def execSupplyFall (s : State) : Host.Outcome State Fault Refusal := .next (supplyFalls s)

/-- POR_N rises: straps sampled, the ROM at stage 0; with TEST_EN high the device serves nothing (R457). -/
def porRises (boot recover testEn : Bool) (s : State) : State :=
  if s.pins.porN then s
  else
    let s1 := { s with pins := { s.pins with porN := true }, boot := { s.boot with start := s.now, testHold := testEn } }
    enterMinimal (showPins ((s1.setFld Reg.BOOT_STATUS Reg.BOOT_STATUS_SRC (bit boot)).setFld Reg.BOOT_STATUS
      Reg.BOOT_STATUS_RECOVER (bit recover)))

def execPorNRise (boot recover testEn : Bool) (s : State) : Host.Outcome State Fault Refusal := .next (porRises boot recover testEn s)

/-- REFCLK_100M is lost: Taith and Axium go down and local time stops (R464). -/
def refclkLoss (s : State) : State :=
  let s1 := allRgns.foldl (fun t n => if portState t n = portDown then t else portGoesDown n portDown t) s
  let s2 := s1.setFld Reg.TAITH_STATUS Reg.TAITH_STATUS_LINK_UP 0
  { s2 with pins := { s2.pins with refclkLost := true } }

def execRefclkLoss (s : State) : Host.Outcome State Fault Refusal := live s refclkLoss

/-! ### Warm resets (R368, R378) -/

/-- WARM_RST_N falls. -/
def execWarmRstN (s : State) : Host.Outcome State Fault Refusal := live s requestWarm

def bootKey (v : Word) : Bool := Reg.BOOT_CTRL_KEY.get v == 0xA5

/-- A write of BOOT_CTRL: without the key it is dropped. -/
def doBootCtrl (v : Word) (s : State) : State :=
  if ¬ bootKey v then s
  else
    let s1 := if Reg.BOOT_CTRL_CLEAR_ATTEMPTS.get v = 1 then s.setFld Reg.BOOT_STATUS Reg.BOOT_STATUS_ATTEMPTS 0 else s
    if Reg.BOOT_CTRL_WARM.get v = 1 then requestWarm s1 else s1

def execWarm (who : Requester) (v : Word) (s : State) : Host.Outcome State Fault Refusal :=
  live s fun s => if Reg.BOOT_CTRL_WARM.get v = 1 then guardWrite who Reg.BOOT_CTRL 8 v (doBootCtrl v) s else s

def execClearAttempts (who : Requester) (v : Word) (s : State) : Host.Outcome State Fault Refusal :=
  live s fun s => if Reg.BOOT_CTRL_CLEAR_ATTEMPTS.get v = 1 then guardWrite who Reg.BOOT_CTRL 8 v (doBootCtrl v) s else s

/-! ### The first firmware (R369 to R371, R429, R430) -/

def imgState (s : State) : Nat := s.fld Reg.BOOT_IMG_CTRL Reg.BOOT_IMG_CTRL_STATE
def setImgState (k : Nat) (s : State) : State := s.setFld Reg.BOOT_IMG_CTRL Reg.BOOT_IMG_CTRL_STATE k

/-- A write of BOOT_IMG_CTRL: GO starts the read, with STRAP_BOOT high and at stage 0, unless one runs or has been verified. -/
def doImgCtrl (v : Word) (s : State) : State :=
  let s1 := plainWrite Reg.BOOT_IMG_CTRL v s
  if Reg.BOOT_IMG_CTRL_GO.get v = 1 ∧ companionBoot s ∧ s.chipStage = 0 ∧ ¬ s.minimal ∧ (imgState s = 0 ∨ imgState s = 3) then
    setImgState 1 s1
  else s1

def execBootImgGo (who : Requester) (v : Word) (s : State) : Host.Outcome State Fault Refusal :=
  live s fun s => if Reg.BOOT_IMG_CTRL_GO.get v = 1 then guardWrite who Reg.BOOT_IMG_CTRL 8 v (doImgCtrl v) s else s

/-- The image as read: TILES tiles. -/
def imageRead (s : State) (bundle : List Byte) : List Byte :=
  Config.fit (4096 * s.fld Reg.BOOT_IMG_CTRL Reg.BOOT_IMG_CTRL_TILES) bundle

def bootImageRead (err : Bool) (bundle : List Byte) (s : State) : State :=
  if imgState s ≠ 1 ∨ s.chipStage ≠ 0 then s
  else if err then setImgState 3 s
  else
    let b := imageRead s bundle
    match bundleCheck s b with
    | none => setImgState 2 { s with boot := { s.boot with image := b } }
    | some k => setImgState 3 { s with boot := { s.boot with imageReason := k } }

def execBootImageReadDone (err : Bool) (bundle : List Byte) (s : State) : Host.Outcome State Fault Refusal :=
  live s (bootImageRead err bundle)

/-- MR5's record: straps, slot (0xFF for companion boot), counter, REVOKE, MINIMAL. -/
def bootRecord (s : State) (slot : Nat) : List Byte :=
  Config.fit 48 (leBytes 1 (s.fld Reg.BOOT_STATUS Reg.BOOT_STATUS_SRC + 2 * s.fld Reg.BOOT_STATUS Reg.BOOT_STATUS_RECOVER) ++
    leBytes 1 slot ++ leBytes 1 s.sec.counter ++ leBytes 1 s.sec.revoke.toNat ++ leBytes 1 (bit s.minimal))

/-- The measurements of a verified bundle (Table 18.4). -/
def measureBundle (b : List Byte) (slot : Nat) (s : State) : State :=
  extendMr 6 (signerHash (bSig b)) (extendMr 5 (bootRecord s slot) (extendMr 4 (bDigest b 2) (extendMr 3 (bDigest b 1)
    (extendMr 2 (bDigest b 0) (extendMr 1 (bHeaderDigest b) (extendMr 0 Config.romHash s))))))

/-- The chip reaches a stage: the regions' STAGE follows it, and the chip boot interrupt is raised. -/
def reachStage (k : Nat) (s : State) : State :=
  let s1 := s.setFld Reg.BOOT_STATUS Reg.BOOT_STATUS_CHIP_STAGE k
  let s2 := allRgns.foldl (fun t (n : Rgn) => t.setFld (Reg.BOOT_RGN n.val) Reg.BOOT_RGN_STAGE k) s1
  irqRaise evBoot 0 s2

/-- The bundle runs: measured, stage 1. -/
def runBundle (b : List Byte) (slot : Nat) (s : State) : State :=
  let s1 := modSec (fun c => { c with running := b }) (measureBundle b slot s)
  let s2 := s1.setFld Reg.TAHR_STATUS Reg.TAHR_STATUS_SIGNER ((signerSlot s b).getD 0)
  reachStage 1 (showSeal (if slot < 2 then s2.setFld Reg.BOOT_STATUS Reg.BOOT_STATUS_SLOT slot else s2))

def flashBundle (s : State) (k : Nat) : List Byte := s.sec.flash.toList.getD k []

/-- The ROM's start: the companion's image, or the current slot and then the other. -/
def verifyFirst (readErr : Bool) (s : State) : State :=
  if companionBoot s then (if imgState s = 2 then runBundle s.boot.image 0xFF s else s)
  else if readErr then failedStart 0x04 s
  else
    let k := s.sec.current % 2
    match bundleCheck s (flashBundle s k) with
    | none => runBundle (flashBundle s k) k s
    | some why => if (bundleCheck s (flashBundle s (1 - k))).isNone then runBundle (flashBundle s (1 - k)) (1 - k) s
                  else failedStart why s

/-- In minimal mode the ROM measures itself and the recovery firmware, once. -/
def measureRecovery (s : State) : State :=
  if mrOf s 0 = List.replicate 48 0 then
    extendMr 5 (bootRecord s 0xFF) (extendMr 3 Config.recoveryHash (extendMr 0 Config.romHash s))
  else s

def tahrVerified (readErr : Bool) (s : State) : State :=
  if s.minimal then measureRecovery s
  else if s.chipStage = 0 ∧ ¬ s.boot.pendingWarm then verifyFirst readErr s
  else s

def execTahrVerified (readErr : Bool) (s : State) : Host.Outcome State Fault Refusal := live s (tahrVerified readErr)

def setUp (s : State) : State := { s with boot := { s.boot with upAt := some s.now } }

/-- COMPANION_UP: stage 2, ATTEMPTS cleared, and the regions' bring-up begins; in minimal mode, the boot interrupt. -/
def companionUp (s : State) : State :=
  if ¬ linkUp s ∨ s.boot.upAt.isSome ∨ s.boot.pendingWarm then s
  else if s.minimal then irqRaise evBoot 0 (setUp s)
  else if s.chipStage = 1 then
    let s1 := reachStage 2 (setUp (s.setFld Reg.BOOT_STATUS Reg.BOOT_STATUS_ATTEMPTS 0))
    (List.range 16).foldl (fun t n => wakeRgn n t) s1
  else s

def execCompanionUp (s : State) : Host.Outcome State Fault Refusal := live s companionUp

/-- REASON when BOOT_WDT expires (Table 15.4). -/
def wdtReason (s : State) : Nat :=
  if 1 ≤ s.chipStage ∨ imgState s = 2 then 0x06 else if s.boot.imageReason ≠ 0 then s.boot.imageReason else 0x05

def bootWdtExpires (s : State) : State :=
  if s.chipStage < 2 ∧ s.boot.start + s.fld Reg.BOOT_WDT Reg.BOOT_WDT_TICKS ≤ s.now then failedStart (wdtReason s) s else s

def execBootWdtExpiry (s : State) : Host.Outcome State Fault Refusal := live s bootWdtExpires

/-- ELAPSED of BOOT_WDT: ticks since the start; it stops at stage 2. -/
def wdtElapsed (s : State) : Nat := (if s.chipStage = 2 then s.boot.upAt.getD s.now else s.now) - s.boot.start

/-! ### Region bring-up (R372, R373, R374, R376) -/

def bootFld (n : Rgn) (f : Fld) (x : Nat) (s : State) : State := s.setFld (Reg.BOOT_RGN n.val) f x

/-- A region fails bring-up: its reason, FAILED, and quarantine. -/
def regionFails (n : Rgn) (reason : Nat) (s : State) : State :=
  quarantineNow n (bootFld n Reg.BOOT_RGN_FAILED 1 (bootFld n Reg.BOOT_RGN_REASON reason s))

/-- May a region take a bring-up step: from stage 2, its services on, not failed? -/
def inBringUp (s : State) (n : Rgn) : Bool :=
  s.chipStage == 2 && !s.minimal && serviceOn s n && !s.flag (Reg.BOOT_RGN n.val) Reg.BOOT_RGN_FAILED

def clampStandin (k : Nat) : Nat := if k = 0 then 1 else min 24 k

/-- Blocks found failed are marked so. -/
def failBlocks (n : Rgn) (bad : Nat → Bool) (s : State) : State :=
  (List.range 9).foldl (fun t b => if bad b then setBlockState n b 3 ((blankBlock n b t).setDom (blkDom n b) false) else t) s

/-- Steps 1 and 2: the cell check and herd training. -/
def herdTrained (n : Rgn) (res : HerdResult) (s : State) : State :=
  if ¬ inBringUp s n ∨ s.stage n ≠ 2 ∨ s.flag (Reg.BOOT_RGN n.val) Reg.BOOT_RGN_HERD_OK ∨ ¬ blocksReady s n then s
  else match res with
    | .outside => regionFails n 0x11 s
    | .failed => regionFails n 0x12 s
    | .trained speed ranks2 stack size bad =>
      if size.val < 32 then regionFails n 0x11 s
      else
        let a := Reg.HERD_CFG n
        let s1 := ((s.setFld a Reg.HERD_CFG_SPEED speed.val).setFld a Reg.HERD_CFG_RANKS (bit ranks2)).setFld a
          Reg.HERD_CFG_STACK stack.val
        let s2 := s1.setFld a Reg.HERD_CFG_SIZE_GIB size.val
        let gib := clampStandin (s.fld Reg.BOOT_RGN_CFG Reg.BOOT_RGN_CFG_STANDIN_GIB)
        let s3 := { s2 with boot := { s2.boot with standin := Vec.modify s2.boot.standin n.val fun _ => gib } }
        let s4 := failBlocks n bad.getLsbD s3
        if 2 ≤ failedBlocks s4 n then regionFails n 0x10 s4
        else settleBlocks n (bootFld n Reg.BOOT_RGN_HERD_OK 1 s4)

def execHerdTrainingDone (n : Rgn) (res : HerdResult) (s : State) : Host.Outcome State Fault Refusal := live s (herdTrained n res)

/-- Quotas of the region's partition, as far as QUOTA_SET has not set them. -/
def settleQuotas (n : Rgn) (s : State) : State :=
  match s.partOf n with
  | some p => setQuotas p s
  | none => s

/-- Stage 3 is reported: the region is served from its stand-in, and firmware writes the base of the context store, the first
of the near reservations (R160, R373). -/
def reportStage3 (n : Rgn) (s : State) : State :=
  settleQuotas n (bootFld n Reg.BOOT_RGN_STANDIN 1 (bootFld n Reg.BOOT_RGN_STAGE 3
    (s.setFld (Reg.CTX_STORE_BASE n) Reg.CTX_STORE_BASE_BASE 0)))

/-- Read counters after a start: those last saved, with RD_LIMIT / 16 more after an unclean power-down (R204). -/
def startCounters (n : Rgn) (clean : Bool) (s : State) : State :=
  let lim := s.fld (Reg.FOLD_LIMITS n) Reg.FOLD_LIMITS_RD_LIMIT
  let add := (if lim = 0 then 1000 else lim) / 16
  let f := fun (b : FoldBlock) => { b with reads := b.saved + add }
  if clean then s else modFold n (fun x => { x with blocks := (List.range (foldTotal s n)).map fun b => f (blockOf s n b) }) s

/-- The geometry, raw capacity and rated cycles that the channel's targets report, and the write buffer that follows. -/
def showGeometry (n : Rgn) (geom : Word) (rawGib ratedPe : Nat) (s : State) : State :=
  let s1 := (s.setReg (Reg.FOLD_GEOM n) (geom &&& ~~~ (0xFF#64 <<< 36))).setFld (Reg.FOLD_CAP n) Reg.FOLD_CAP_RAW_GIB rawGib
  (s1.setFld (Reg.FOLD_STATUS n) Reg.FOLD_STATUS_WBUF_UNITS (wbufUnits s1 n)).setFld (Reg.FOLD_WEAR n) Reg.FOLD_WEAR_RATED_PE ratedPe

/-- The blocks of the metadata area are marked so (R207). -/
def markMeta (n : Rgn) (s : State) : State :=
  (metaBlocks s n).foldl (fun t b => if (blockOf t n b).st < 4 then setBlock n { blockOf t n b with st := 6 } t else t) s

/-- A formatted channel's geometry, capacity (R194) and limits. -/
def showFormatted (n : Rgn) (geom : Word) (rawGib ratedPe : Nat) (clean : Bool) (s : State) : State :=
  let a := Reg.FOLD_STATUS n
  let s1 := (showGeometry n geom rawGib ratedPe s).setFld (Reg.FOLD_CAP n) Reg.FOLD_CAP_UNITS (logicalUnits rawGib)
  startCounters n clean (markMeta n ((s1.setFld a Reg.FOLD_STATUS_UNFORMATTED 0).setFld a Reg.FOLD_STATUS_LAST_CLEAN (bit clean)))

/-- Is the channel within Table 7.1, as far as its geometry says (R193)? -/
def geomOk (geom : Word) : Bool :=
  decide (1 ≤ Reg.FOLD_GEOM_TARGETS.get geom) && decide (Reg.FOLD_GEOM_TARGETS.get geom ≤ 8)

/-- A channel that is not formatted, or not within Table 7.1: stage 3 is reported, and READY stays 0 (R193, R376). -/
def startUnformatted (n : Rgn) (s : State) : State :=
  reportStage3 n ((bootFld n Reg.BOOT_RGN_REASON 0x14 s).setFld (Reg.FOLD_STATUS n) Reg.FOLD_STATUS_UNFORMATTED 1)

/-- Step 3: the metadata area is read and the field defect list applied; then stage 3 is reported. -/
def foldStarted (n : Rgn) (res : FoldResult) (s : State) : State :=
  if ¬ inBringUp s n ∨ s.stage n ≠ 2 ∨ ¬ s.flag (Reg.BOOT_RGN n.val) Reg.BOOT_RGN_HERD_OK then s
  else match res with
    | .unreadable => regionFails n 0x13 s
    | .unformatted none => startUnformatted n s
    | .unformatted (some c) => startUnformatted n (if geomOk c.1 then showGeometry n c.1 c.2.1.val c.2.2.toNat s else s)
    | .started geom rawGib rated clean0 =>
      if ¬ geomOk geom then startUnformatted n s
      else
        let s1 := showFormatted n geom rawGib.val rated.toNat (clean0 && (s.rgn n).fold.clean) s
        let s2 := failBlocks n ((s.rgn n).fold.fences.contains) s1
        if 2 ≤ failedBlocks s2 n then regionFails n 0x10 s2
        else reportStage3 n (settleBlocks n s2)

def execFoldStartDone (n : Rgn) (res : FoldResult) (s : State) : Host.Outcome State Fault Refusal := live s (foldStarted n res)

/-! ### Near training and migration (R375) -/

def startMigration (n : Rgn) (s : State) : State := bootFld n Reg.BOOT_RGN_MIGRATING 1 s

def nearTrained (n : Rgn) (failed : BitVec 12) (s : State) : State :=
  let a := Reg.BOOT_RGN n.val
  if ¬ inBringUp s n ∨ s.stage n ≠ 3 ∨ s.flag a Reg.BOOT_RGN_NEAR_OK ∨ s.fld a Reg.BOOT_RGN_NEAR_FAIL ≠ 0 then s
  else
    let s1 := s.setFld (Reg.NEAR_STATUS n) Reg.NEAR_STATUS_TRAINED (~~~ failed).toNat
    if failed ≠ 0 then bootFld n Reg.BOOT_RGN_REASON 0x15 (bootFld n Reg.BOOT_RGN_NEAR_FAIL failed.toNat s1)
    else
      let s2 := bootFld n Reg.BOOT_RGN_NEAR_OK 1 s1
      if s2.flag Reg.BOOT_RGN_CFG Reg.BOOT_RGN_CFG_AUTO_MIGRATE then startMigration n s2 else s2

def execNearTrainingDone (n : Rgn) (failed : BitVec 12) (s : State) : Host.Outcome State Fault Refusal :=
  live s (nearTrained n failed)

/-- May a write of MIGRATE start the region's migration? -/
def mayMigrate (s : State) (n : Rgn) : Bool :=
  s.stage n == 3 && s.flag (Reg.BOOT_RGN n.val) Reg.BOOT_RGN_NEAR_OK && !migrating s n.val &&
  !s.flag Reg.BOOT_RGN_CFG Reg.BOOT_RGN_CFG_AUTO_MIGRATE

def doRgnCfg (v : Word) (s : State) : State :=
  let m := Reg.BOOT_RGN_CFG_MIGRATE.get v
  allRgns.foldl (fun t n => if m.testBit n.val ∧ mayMigrate t n then startMigration n t else t) (plainWrite Reg.BOOT_RGN_CFG v s)

def execMigrate (who : Requester) (v : Word) (s : State) : Host.Outcome State Fault Refusal :=
  live s fun s => if Reg.BOOT_RGN_CFG_MIGRATE.get v ≠ 0 then guardWrite who Reg.BOOT_RGN_CFG 8 v (doRgnCfg v) s else s

/-- Every started command of the region has retired. -/
def rgnRetired (s : State) (n : Nat) : Bool :=
  s.cmds.all fun c => !(c.span.contains n && decide (0 < c.planStart) && (c.phase == .running || c.phase == .committed || c.phase == .ended))

/-- The stand-in's tiles are in the near tier, which holds them at the same offsets. -/
def migrationEnds (n : Rgn) (s : State) : State :=
  if ¬ migrating s n.val ∨ ¬ rgnRetired s n.val ∨ s.stage n ≠ 3 then s
  else
    let s1 := bootFld n Reg.BOOT_RGN_STAGE 4 (bootFld n Reg.BOOT_RGN_STANDIN 0 (bootFld n Reg.BOOT_RGN_MIGRATING 0 s))
    irqRaise (evRgn n.val 5) 0 (showJoin n (settleQuotas n s1))

def execMigrationDone (n : Rgn) (s : State) : Host.Outcome State Fault Refusal := live s (migrationEnds n)

end Sys2Proof.Machine
end

