-- ==== Sys2Proof/Machine/FaultCmds.lean ====
section
/-!
DEFINITION. The commands of the fault and interrupt controllers (17_faults.md).
-/

namespace Sys2Proof.Machine

/-! ### Reports -/

/-- FAULT_REPORT (R400): a source is raised. -/
def execFaultReport (src : Fin 1024) (info : FaultInfo) (s : State) : Host.Outcome State Fault Refusal :=
  live s (raise src.val info)

/-- GRACE_EXPIRY (R407): with ESC the report escalates one severity; without it nothing follows. -/
def graceExpire (src : Nat) (s : State) : State :=
  match s.flt.grace.find? fun g => g.source == src with
  | none => s
  | some g =>
    if g.start + graceTicks s g.cls ≤ s.now ∧ s.flag (Reg.FLT_SRC_STAT src) Reg.FLT_SRC_STAT_PENDING then
      let s1 := stopGrace src s
      if s.flag (Reg.FLT_GRACE (g.cls - 2)) Reg.FLT_GRACE_ESC then
        let eff := s.fld (Reg.FLT_SRC_STAT src) Reg.FLT_SRC_STAT_EFF + 1
        let t := takeReports reportFuel [⟨src, some eff, false, false, g.info, ST_INTERNAL⟩] s1
        if t.fatal ∧ ¬ s.fatal ∧ s.chipStage < 2 then failedStart 0x07 t else t
      else s1
    else s

def execGraceExpiry (src : Fin 1024) (s : State) : Host.Outcome State Fault Refusal := live s (graceExpire src.val)

/-- FLT_ACK (R408): every report of the source taken so far is acknowledged. Through a region's alias the source is
64 + 60n + i (R454). -/
def doFltAck (addr : Nat) (v : Word) (s : State) : State :=
  if Reg.FLT_ACK_GO.get v = 1 then
    let src := match rgnOf addr with
      | none => Reg.FLT_ACK_SOURCE.get v
      | some n => rgnSrc n.val (Reg.FLT_ACK_SOURCE.get v)
    let st := Reg.FLT_SRC_STAT src
    let s1 := stopGrace src (((s.setFld st Reg.FLT_SRC_STAT_PENDING 0).setFld st Reg.FLT_SRC_STAT_EFF 0).setFld st
      Reg.FLT_SRC_STAT_ESCALATED 0)
    settleErr (showPending s1)
  else s

/-- The addresses FLT_ACK answers at. -/
def isFltAck (a : Nat) : Bool := unalias a == Reg.FLT_ACK

def execFltAck (who : Requester) (addr : Nat) (v : Word) (s : State) : Host.Outcome State Fault Refusal :=
  live s fun s => if isFltAck addr then guardWrite who addr 8 v (doFltAck addr v) s else s

/-- A write of FLT_SRC_SEV_s (R399, R409, R410): SEV unless FIXED, PIN, and FORCE as one forced report after them. -/
def doSrcSev (addr : Nat) (v : Word) (s : State) : State :=
  let a := unalias addr
  let src := (a - 0x31000) / 8
  if ¬ srcListed src then s
  else
    let s1 := if s.flag a Reg.FLT_SRC_SEV_FIXED then s else s.setFld a Reg.FLT_SRC_SEV_SEV (Reg.FLT_SRC_SEV_SEV.get v)
    let s2 := settleErr (s1.setFld a Reg.FLT_SRC_SEV_PIN (Reg.FLT_SRC_SEV_PIN.get v))
    if Reg.FLT_SRC_SEV_FORCE.get v = 1 then
      raiseWith ST_INTERNAL src true ⟨(srcRgn src).bind fun n => (s2.rgn n).plan, 0, 0⟩ s2
    else s2

/-- The addresses of FLT_SRC_SEV_s. -/
def isSrcSev (a : Nat) : Bool := decide (0x31000 ≤ unalias a) && decide (unalias a < 0x33000)

def execForce (who : Requester) (addr : Nat) (v : Word) (s : State) : Host.Outcome State Fault Refusal :=
  live s fun s => if isSrcSev addr then guardWrite who addr 8 v (doSrcSev addr v) s else s

/-- ERR_PULSE_END (R411): 2 us after the latest report ERR_N follows MODE. -/
def errPulseEnds (s : State) : State :=
  match s.flt.pulseEnd with
  | none => s
  | some t =>
    if t ≤ s.now then
      settleErr (({ s with flt := { s.flt with pulseEnd := none } }).setFld Reg.ERR_PIN_CTRL Reg.ERR_PIN_CTRL_PULSE 0)
    else s

def execErrPulseEnd (s : State) : Host.Outcome State Fault Refusal := live s errPulseEnds

/-! ### The record ring -/

/-- FLT_RING_CFG (R413). -/
def doRingCfg (v : Word) (s : State) : State :=
  let a := Reg.FLT_RING_CFG
  if s.flag a Reg.FLT_RING_CFG_ENABLE then
    if Reg.FLT_RING_CFG_ENABLE.get v = 1 then s
    else plainWrite a v s
  else if Reg.FLT_RING_CFG_ENABLE.get v = 1 then
    let size := Reg.FLT_RING_CFG_SIZE.get v
    let n : Rgn := Fin.ofNat 16 (Reg.FLT_RING_CFG_REGION.get v)
    let base := 4096 * Reg.FLT_RING_CFG_BASE.get v
    if 8 ≤ size ∧ size ≤ 16 ∧ 3 ≤ s.stage n ∧ base + 64 * 2 ^ size ≤ 0x400000 then
      let s1 := plainWrite a v s
      let s2 := (s1.setFld Reg.FLT_RING_PTR Reg.FLT_RING_PTR_HEAD 0).setFld Reg.FLT_RING_PTR Reg.FLT_RING_PTR_TAIL 0
      ({ s2 with flt := { s2.flt with thresh := false } }).setFld Reg.FLT_RING_PTR Reg.FLT_RING_PTR_PHASE 1
    else (plainWrite a v s).setFld a Reg.FLT_RING_CFG_ENABLE 0
  else plainWrite a v s

def execFltRingCfg (who : Requester) (v : Word) (s : State) : Host.Outcome State Fault Refusal :=
  live s (guardWrite who Reg.FLT_RING_CFG 8 v (doRingCfg v))

/-- A write of FLT_RING_PTR: HEAD and THRESH. -/
def doRingPtr (v : Word) (s : State) : State := ringThreshold (plainWrite Reg.FLT_RING_PTR v s)

/-- The kept source of lowest number. -/
def lowestKept : List Kept → Option Kept
  | [] => none
  | x :: xs => match lowestKept xs with
    | none => some x
    | some y => if x.source < y.source then some x else some y

/-- KEPT_DRAIN (R415): one kept record of the lowest source is written, its first before its last. -/
def keptDrain (s : State) : State :=
  match lowestKept s.flt.kept with
  | none => s
  | some x =>
    if ringRoom s then
      let s1 := ringWrite x.first true s
      let rest := s1.flt.kept.filter fun y => y.source != x.source
      let rest' := match x.last with
        | none => rest
        | some l => ⟨x.source, l, none⟩ :: rest
      let s2 := { s1 with flt := { s1.flt with kept := rest' } }
      showKept x.source (if x.last.isNone then setSince x.source 0 s2 else s2)
    else s

def execKeptDrain (s : State) : Host.Outcome State Fault Refusal := live s keptDrain

/-! ### Event queues -/

def qSize (s : State) (p : Nat) : Nat := 2 ^ s.fld (Reg.IRQ_Q_CFG p) Reg.IRQ_Q_CFG_SIZE
def qUsed (s : State) (p : Nat) : Nat :=
  (s.fld (Reg.IRQ_Q_PTR p) Reg.IRQ_Q_PTR_TAIL + qSize s p - s.fld (Reg.IRQ_Q_PTR p) Reg.IRQ_Q_PTR_HEAD) % qSize s p
def qRoom (s : State) (p : Nat) : Bool :=
  s.flag (Reg.IRQ_Q_CFG p) Reg.IRQ_Q_CFG_ENABLE && decide (qUsed s p < qSize s p - 1)

/-- Target of a source: 36 to 63 are treated as 32 (Table 17.21). -/
def srcTarget (s : State) (src : Nat) : Nat :=
  let t := s.fld (Reg.IRQ_SRC_CFG src) Reg.IRQ_SRC_CFG_TARGET
  if 36 ≤ t then 32 else t

def srcPrio (s : State) (src : Nat) : Nat := s.fld (Reg.IRQ_SRC_CFG src) Reg.IRQ_SRC_CFG_PRIO

/-- Eligibility (R417). -/
def eligible (s : State) (p src : Nat) : Bool :=
  s.irqPending src && s.irqEnabled src && srcTarget s src == p &&
  decide (s.fld (Reg.IRQ_Q_CTRL p) Reg.IRQ_Q_CTRL_THRESHOLD < srcPrio s src) &&
  decide (s.fld (Reg.IRQ_Q_CTRL p) Reg.IRQ_Q_CTRL_LEVEL < srcPrio s src)

/-- The eligible source of highest priority, ties to the lower number, among the sources that have been raised. -/
def bestSource (s : State) (p : Nat) : List Raise → Option Raise
  | [] => none
  | r :: rs =>
    let b := bestSource s p rs
    if eligible s p r.source then
      match b with
      | none => some r
      | some q => if srcPrio s q.source < srcPrio s r.source ∨
                     (srcPrio s q.source = srcPrio s r.source ∧ r.source < q.source) then some r else some q
    else b

/-- The event record (Table 17.8). -/
def eventBytes (s : State) (r : Raise) (phase : Bool) : List Byte :=
  leBytes 2 r.source ++ leBytes 1 (srcPrio s r.source + 16 * bit phase) ++ leBytes 1 r.arrivals ++
  leBytes 4 (r.tick % 2 ^ 32) ++ leBytes 8 r.data.toNat

def modQueue (p : Nat) (f : EventQ → EventQ) (s : State) : State :=
  { s with flt := { s.flt with queues := Vec.modify s.flt.queues p f } }

/-- Advance TAIL of a queue past a record written at `now`. -/
def qAdvance (p : Nat) (s : State) : State :=
  let a := Reg.IRQ_Q_PTR p
  let tail := (s.fld a Reg.IRQ_Q_PTR_TAIL + 1) % qSize s p
  let s1 := s.setFld a Reg.IRQ_Q_PTR_TAIL tail
  let s2 := if tail = 0 then s1.setFld a Reg.IRQ_Q_PTR_PHASE (bit !(s.flag a Reg.IRQ_Q_PTR_PHASE)) else s1
  modQueue p (fun q => { q with uncovered := q.uncovered ++ [s.now] }) s2

/-- Take a source's raise out of the pending set. -/
def takeRaise (src : Nat) (s : State) : State :=
  setPend src false { s with flt := { s.flt with raises := s.flt.raises.filter fun r => r.source != src } }

end Sys2Proof.Machine
end

