-- ==== Sys2Proof/Machine/IrqCmds.lean ====
section
/-!
DEFINITION. The commands of the interrupt controller: delivering event records, raising processors' interrupts, and the
writes of its registers (R417 to R422).
-/

namespace Sys2Proof.Machine

/-- Address of record `i` of a queue in the controller's copy. -/
def qAddr (s : State) (p i : Nat) : Nat := coreAddr p (4096 * s.fld (Reg.IRQ_Q_CFG p) Reg.IRQ_Q_CFG_BASE + 16 * i)

/-- Write one event record: to the core's local memory, or for the companion through to the coherent window, as the
32 bytes that hold it (R332, R418). -/
def writeEvent (p : Nat) (r : Raise) (s : State) : State :=
  let i := s.fld (Reg.IRQ_Q_PTR p) Reg.IRQ_Q_PTR_TAIL
  let b := eventBytes s r (s.flag (Reg.IRQ_Q_PTR p) Reg.IRQ_Q_PTR_PHASE)
  let s1 := s.store (qAddr s p i) b
  if p = 35 then
    let pair := s1.load (qAddr s p (i / 2 * 2)) 32
    let w := writeWindow (winBase s1 + 4096 * s.fld (Reg.IRQ_Q_CFG p) Reg.IRQ_Q_CFG_BASE + 32 * (i / 2)) pair s1
    modTaith (fun t => { t with writes := t.writes ++ [w.1] }) w.2
  else s1

/-- EVENT_DELIVERY (R418): the eligible source of highest priority goes into the queue. -/
def deliverEvent (p : Nat) (s : State) : State :=
  if qRoom s p ∧ ¬ (p = 35 ∧ linkLost s) then
    match bestSource s p s.flt.raises with
    | none => s
    | some r => qAdvance p (takeRaise r.source (writeEvent p r s))
  else s

def execEventDelivery (p : Fin 36) (s : State) : Host.Outcome State Fault Refusal := live s (deliverEvent p.val)

/-- Records that no interrupt has covered and the processor has not consumed (R420). -/
def uncovered (s : State) (p : Nat) : List Nat :=
  let u := (s.flt.queues.toList.getD p ⟨[], 0⟩).uncovered
  List.drop (u.length - qUsed s p) u

/-- Raise a processor's interrupt; for the companion it is one INTR, sent once the records are visible, and IDLE is
cleared (R420). -/
def raiseProcessor (p : Nat) (s : State) : State :=
  let s1 := modQueue p (fun q => { uncovered := [], raised := q.raised + 1 }) s
  if p = 35 then
    (sendMsg tyIntr 0 0 (BitVec.ofNat 8 (s.fld (Reg.IRQ_Q_CTRL 35) Reg.IRQ_Q_CTRL_VECTOR)) 0 [] s1).setFld
      (Reg.IRQ_Q_CTRL 35) Reg.IRQ_Q_CTRL_IDLE 0
  else s1

/-- The companion can take an INTR: the link is up and every event record is visible. -/
def irqReachable (s : State) (p : Nat) : Bool := p != 35 || (!linkLost s && s.taith.writes.isEmpty)

/-- Is the processor idle (R420)? A core's own wait in WFI lies outside the model: the event says that it is so (log entry 60). -/
def procIdle (s : State) (p : Nat) : Bool := p != 35 || s.flag (Reg.IRQ_Q_CTRL p) Reg.IRQ_Q_CTRL_IDLE

/-- PROCESSOR_INTERRUPT (R420): by count or because the processor is idle. -/
def processorInterrupts (p : Nat) (s : State) : State :=
  let u := uncovered s p
  let cnt := max 1 (s.fld (Reg.IRQ_Q_MOD p) Reg.IRQ_Q_MOD_COUNT)
  if ¬ u.isEmpty ∧ irqReachable s p ∧ (cnt ≤ u.length ∨ procIdle s p) then
    raiseProcessor p s
  else s

def execProcessorInterrupt (p : Fin 36) (s : State) : Host.Outcome State Fault Refusal :=
  live s (processorInterrupts p.val)

/-- IRQ_MOD_EXPIRY (R420): the oldest uncovered record has waited IRQ_Q_MOD.TICKS. -/
def irqModExpires (p : Nat) (s : State) : State :=
  match uncovered s p with
  | [] => s
  | t :: _ =>
    if irqReachable s p ∧ t + s.fld (Reg.IRQ_Q_MOD p) Reg.IRQ_Q_MOD_TICKS ≤ s.now then raiseProcessor p s else s

def execIrqModExpiry (p : Fin 36) (s : State) : Host.Outcome State Fault Refusal := live s (irqModExpires p.val)

/-- IRQ_EN_SET and IRQ_EN_CLR (R422): the enable bits of one word; both addresses read them. -/
def doEnable (w : Nat) (v : Word) (on : Bool) (s : State) : State :=
  let old := s.reg (Reg.IRQ_EN_SET w)
  let new := if on then old ||| v else old &&& ~~~ v
  (s.setReg (Reg.IRQ_EN_SET w) new).setReg (Reg.IRQ_EN_CLR w) new

def execIrqEnSet (who : Requester) (w : Fin 20) (v : Word) (s : State) : Host.Outcome State Fault Refusal :=
  live s (guardWrite who (Reg.IRQ_EN_SET w.val) 8 v (doEnable w.val v true))

def execIrqEnClr (who : Requester) (w : Fin 20) (v : Word) (s : State) : Host.Outcome State Fault Refusal :=
  live s (guardWrite who (Reg.IRQ_EN_CLR w.val) 8 v (doEnable w.val v false))

/-- A source made pending by software: as a raise, with ARRIVALS 0 (R422). -/
def pendSource (src : Nat) (s : State) : State :=
  setPend src true { s with flt := { s.flt with raises := foldRaise src s.now 0 0 s.flt.raises } }

def pendBits (w : Nat) (v : Word) (s : State) : List Nat → State
  | [] => s
  | b :: bs =>
    let src := 64 * w + b
    pendBits w v (if v.getLsbD b ∧ irqListed src ∧ ¬ s.irqPending src then pendSource src s else s) bs

/-- IRQ_PEND_SET (R422). -/
def doPendSet (w : Nat) (v : Word) (s : State) : State := pendBits w v s (List.range 64)

def clearBits (w : Nat) (v : Word) (s : State) : List Nat → State
  | [] => s
  | b :: bs => clearBits w v (if v.getLsbD b then takeRaise (64 * w + b) s else s) bs

/-- IRQ_PEND_CLR (R422). -/
def doPendClr (w : Nat) (v : Word) (s : State) : State := clearBits w v s (List.range 64)

def execIrqPendSet (who : Requester) (w : Fin 20) (v : Word) (s : State) : Host.Outcome State Fault Refusal :=
  live s (guardWrite who (Reg.IRQ_PEND_SET w.val) 8 v (doPendSet w.val v))

def execIrqPendClr (who : Requester) (w : Fin 20) (v : Word) (s : State) : Host.Outcome State Fault Refusal :=
  live s (guardWrite who (Reg.IRQ_PEND_CLR w.val) 8 v (doPendClr w.val v))

/-- IRQ_Q_CFG (R419). -/
def doQCfg (p : Nat) (v : Word) (s : State) : State :=
  let a := Reg.IRQ_Q_CFG p
  let size := Reg.IRQ_Q_CFG_SIZE.get v
  if s.flag a Reg.IRQ_Q_CFG_ENABLE then
    if Reg.IRQ_Q_CFG_ENABLE.get v = 1 then s else plainWrite a v s
  else if Reg.IRQ_Q_CFG_ENABLE.get v = 1 then
    if 4 ≤ size ∧ size ≤ 12 then
      let s1 := plainWrite a v s
      let s2 := (s1.setFld (Reg.IRQ_Q_PTR p) Reg.IRQ_Q_PTR_HEAD 0).setFld (Reg.IRQ_Q_PTR p) Reg.IRQ_Q_PTR_TAIL 0
      modQueue p (fun q => { q with uncovered := [] }) (s2.setFld (Reg.IRQ_Q_PTR p) Reg.IRQ_Q_PTR_PHASE 1)
    else (plainWrite a v s).setFld a Reg.IRQ_Q_CFG_ENABLE 0
  else plainWrite a v s

def execIrqQCfg (who : Requester) (p : Fin 36) (v : Word) (s : State) : Host.Outcome State Fault Refusal :=
  live s (guardWrite who (Reg.IRQ_Q_CFG p.val) 8 v (doQCfg p.val v))

/-- IRQ_Q_CTRL: IDLE is writable for the companion's queue only (Table 17.25). -/
def doQCtrl (p : Nat) (v : Word) (s : State) : State :=
  let a := Reg.IRQ_Q_CTRL p
  let s1 := plainWrite a v s
  if p = 35 then s1 else s1.setFld a Reg.IRQ_Q_CTRL_IDLE (s.fld a Reg.IRQ_Q_CTRL_IDLE)

end Sys2Proof.Machine
end

