-- ==== Sys2Proof/Machine/Access.lean ====
section
/-!
DEFINITION. Every register access (R5, R444 to R454): what a write of each register does, what a read returns and clears,
and the rows of registers that have none of their own.
-/

namespace Sys2Proof.Machine

/-! ### Registers of the Taith block (Tables 13.4 and 13.8) -/

/-- Is any ring in the coherent window enabled (R332)? -/
def windowRing (s : State) (o : RingOwner) : Bool :=
  (List.range 3).any fun k => rEnabled s (ringRegs o k) && rLoc s (ringRegs o k) == 0
def anyWindowRing (s : State) : Bool := windowRing s .mgmt || allRgns.any fun n => windowRing s (.rgn n)

/-- A write of TAITH_WIN_BASE is dropped while a window ring is enabled. -/
def doWinBase (v : Word) (s : State) : State := if anyWindowRing s then s else plainWrite Reg.TAITH_WIN_BASE v s

/-- TAITH_RESUME for one partition (R337): its replay starts. -/
def resumePart (p : Part) (s : State) : State :=
  if (s.part p).stopped then
    match ownerOf s p with
    | none => settleLost (s.modPart p fun q => { q with stopped := false })
    | some o => replayEnds (some p) (pumpReplay (some p) o (setReplay p true s))
  else s

/-- A write of TAITH_RESUME: dropped while LINK_UP is 0. -/
def doResume (v : Word) (s : State) : State :=
  if linkUp s then
    (List.finRange 16).foldl (fun t p => if v.getLsbD p.val then resumePart p t else t) s
  else s

/-! ### Writes -/

/-- A write of a ring register of owner `o`, ring `k`: HEAD is the consumer's in the completion ring, TAIL the
doorbell in a submission ring (Tables 11.10 to 11.13). -/
def writeRing (o : RingOwner) (k off : Nat) (v : Word) (s : State) : State :=
  let g := ringRegs o k
  let ring : Ring := match ownerPart s o with
    | some p => .part p (Fin.ofNat 2 k)
    | none => .mgmt
  if off = 0 then doRingEnable o k v s
  else if off = 8 then (if k = 2 then doHead o v s else s)
  else if off = 0x10 then (if k = 2 then s else doTail ring o k v s)
  else plainWrite g.stat v s

/-- A write of a chip register at address `u`, reached through address `a`. -/
def writeChip (a u : Nat) (v : Word) (s : State) : State :=
  if u = Reg.FAB_CHIP_ID then doChipId v s
  else if u = Reg.PWR_RM_KICK then doRmKick v s
  else if 0x20100 ≤ u ∧ u < 0x20200 then doEnable ((u - 0x20100) / 8) v true s
  else if 0x20200 ≤ u ∧ u < 0x20300 then doEnable ((u - 0x20200) / 8) v false s
  else if 0x20300 ≤ u ∧ u < 0x20400 then doPendSet ((u - 0x20300) / 8) v s
  else if 0x20400 ≤ u ∧ u < 0x20500 then doPendClr ((u - 0x20400) / 8) v s
  else if 0x20800 ≤ u ∧ u < 0x20C80 ∧ u % 32 = 0 then doQCfg ((u - 0x20800) / 32) v s
  else if 0x20800 ≤ u ∧ u < 0x20C80 ∧ u % 32 = 0x10 then doQCtrl ((u - 0x20800) / 32) v s
  else if u = Reg.FLT_RING_CFG then doRingCfg v s
  else if u = Reg.FLT_RING_PTR then doRingPtr v s
  else if u = Reg.FLT_ACK then doFltAck a v s
  else if u = Reg.ERR_PIN_CTRL then settleErr (plainWrite u v s)
  else if 0x31000 ≤ u ∧ u < 0x33000 then doSrcSev a v s
  else if u = Reg.TAHR_MBX_CMD then doMbxCmd v s
  else if u = Reg.TAITH_WIN_BASE then doWinBase v s
  else if u = Reg.TAITH_RESUME then doResume v s
  else if u = Reg.BOOT_CTRL then doBootCtrl v s
  else if u = Reg.BOOT_IMG_CTRL then doImgCtrl v s
  else if u = Reg.BOOT_RGN_CFG then doRgnCfg v s
  else if 0x60100 ≤ u ∧ u < 0x60160 then writeRing .mgmt ((u - 0x60100) / 32) (u % 32) v s
  else if u = Reg.MGT_CQ_MOD then doCqMod .mgmt v s
  else if 0x70000 ≤ u ∧ u < 0x70400 ∧ u % 16 = 0 then doBarCfg ((u - 0x70000) / 16) v s
  else if 0x70000 ≤ u ∧ u < 0x70400 ∧ u % 16 = 8 then doBarState ((u - 0x70000) / 16) v s
  else plainWrite u v s

/-- A write of region `n`'s register at offset `o`. -/
def writeRgn (who : Requester) (n : Rgn) (o : Nat) (v : Word) (s : State) : State :=
  let u := rgnBase n + o
  if u = Reg.SEQ_CTRL n then doSeqCtrl n v s
  else if 0x20000 ≤ o ∧ o < 0x20060 then writeRing (.rgn n) ((o - 0x20000) / 32) (o % 32) v s
  else if u = Reg.CMD_CQ_MOD n then doCqMod (.rgn n) v s
  else if u = Reg.FOLD_MBX_CMD n then doFoldMbx who n v s
  else if u = Reg.FAB_PORT_CFG n then doPortCfg n v s
  else if u = Reg.SYNC_FORCE n then doSyncForce n v s
  else if u = Reg.CTX_LOAD n then doCtxLoad n v s
  else if u = Reg.CTX_FLUSH n then doCtxFlush n v s
  else if u = Reg.SCAN_CTRL n then doScanCtrl n v s
  else if u = Reg.SCAN_DATA n then doScanWrite n v s
  else plainWrite u v s

/-- The value that a write brings: of its IRQ_Q_CTRL a sequencer host writes LEVEL only (R450). -/
def valueOf (who : Requester) (u : Nat) (v : Word) (s : State) : Word :=
  match who with
  | .host _ =>
    if 0x20800 ≤ u ∧ u < 0x20C80 ∧ u % 32 = 0x10 then Reg.IRQ_Q_CTRL_LEVEL.put (s.reg u) (Reg.IRQ_Q_CTRL_LEVEL.get v) else v
  | _ => v

/-- What a write that the access check lets through does (R446). -/
def writeEffect (who : Requester) (a : Nat) (v : Word) (s : State) : State :=
  let u := unalias a
  match rgnOf u with
  | some n => writeRgn who n (u - rgnBase n) v s
  | none => writeChip a u (valueOf who u v s) s

/-- A register write by a requester. -/
def writeReg (who : Requester) (a width : Nat) (v : Word) (s : State) : State :=
  guardWrite who a width v (writeEffect who a v) s

/-- REGISTER_WRITE (R446). -/
def execRegisterWrite (who : Requester) (addr width : Nat) (v : Word) (s : State) : Host.Outcome State Fault Refusal :=
  live s (writeReg who addr width v)

/-! ### Reads -/

/-- Word `j` of a byte string. -/
def wordAt (b : List Byte) (j : Nat) : Word := BitVec.ofNat 64 (leAt b (8 * j) 8)

/-- CTX_CREDIT (Table 4.11): the credit counts of the four slots. -/
def creditWord (s : State) (n : Rgn) : Word :=
  BitVec.ofNat 64 ((List.range 4).foldl (fun k sl => k + 2 ^ (16 * sl) * credits s n sl) 0)

/-- RGN_INFO (Table 19.10) holds the same partition state as CMD_STATUS. -/
def infoWord (s : State) (n : Rgn) : Word :=
  let c := Reg.CMD_STATUS n
  let v := Reg.RGN_INFO_ASSIGNED.put (BitVec.ofNat 64 n.val) (s.fld c Reg.CMD_STATUS_ASSIGNED)
  Reg.RGN_INFO_LEAD.put (Reg.RGN_INFO_PARTITION.put v (s.fld c Reg.CMD_STATUS_PARTITION)) (s.fld c Reg.CMD_STATUS_LEAD)

/-- The value of the register at `u`, its write-only fields still in it: registers that show other state are read from
that state. -/
def rawValue (s : State) (u : Nat) : Word :=
  match rgnOf u with
  | some n =>
    if u = Reg.RGN_INFO n then infoWord s n
    else if u = Reg.RGN_DEFECT_DATA n then (match defectSel s n with | some ix => defectData s n ix | none => 0)
    else if u = Reg.MOE_CNT_DATA n then moeData s n
    else if u = Reg.SCAN_DATA n then scanData s n
    else if u = Reg.CTX_CREDIT n then creditWord s n
    else s.reg u
  | none =>
    if u = Reg.CHIP_TIME then BitVec.ofNat 64 s.now
    else if u = Reg.PWR_RM_WDT then Reg.PWR_RM_WDT_REMAIN.put (s.reg u) (wdtRemain s)
    else if u = Reg.BOOT_WDT then Reg.BOOT_WDT_ELAPSED.put (s.reg u) (wdtElapsed s)
    else if u = Reg.TAHR_STATUS then
      Reg.TAHR_STATUS_REVOKED.put (Reg.TAHR_STATUS_COUNTER.put (s.reg u) s.sec.counter) s.sec.revoke.toNat
    else if 0x40100 ≤ u ∧ u < 0x40400 then wordAt (mrOf s ((u - 0x40100) / 48)) ((u - 0x40100) % 48 / 8)
    else if 0x40400 ≤ u ∧ u < 0x40430 then wordAt Config.identityHash ((u - 0x40400) / 8)
    else if 0x40430 ≤ u ∧ u < 0x40440 then wordAt Config.deviceId ((u - 0x40430) / 8)
    else s.reg u

/-- The value a read returns: write-only fields read as zero (R447). -/
def regValue (s : State) (u : Nat) : Word := rawValue s u &&& ~~~ accMask .wo (fieldsAt u)

/-- What a read leaves behind: RC fields are cleared (R447), and an access of SCAN_DATA moves SCAN_ADDR (R122). -/
def readEffect (u : Nat) (s : State) : State :=
  match rgnOf u with
  | some n => if u = Reg.SCAN_DATA n then scanAfter n s else s.setReg u (clearRc (fieldsAt u) (s.reg u))
  | none => s.setReg u (clearRc (fieldsAt u) (s.reg u))

/-- A register read: its value and what it leaves. -/
def readReg (who : Requester) (a width : Nat) (s : State) : Word × State :=
  match accessCheck who false a width 0 s with
  | .ok => (regValue s (unalias a), readEffect (unalias a) s)
  | .silent => (0, s)
  | .bad => (0, badAccess (requesterNum who) false width a s)

/-- RC_READ (R447). -/
def execRcRead (who : Requester) (addr width : Nat) (s : State) : Host.Outcome State Fault Refusal :=
  live s fun s => (readReg who addr width s).2

/-- Is the access a bad one? -/
def isBadRead (who : Requester) (a width : Nat) (s : State) : Bool := accessCheck who false a width 0 s == .bad

/-- BAD_READ (R445): zero is returned and fault source 0 raised. -/
def execBadRead (who : Requester) (addr width : Nat) (s : State) : Host.Outcome State Fault Refusal :=
  live s fun s => if isBadRead who addr width s then (readReg who addr width s).2 else s

end Sys2Proof.Machine
end

