-- ==== Sys2Proof/Machine/TaithCmds.lean ====
section
/-!
DEFINITION. The messages the companion sends on Taith, and the link's training, loss and return (R328 to R337).
-/

namespace Sys2Proof.Machine

/-- A message of class `cls` arrives: only over a link that is up. -/
def onMessage (cls : Nat) (cr : Credit) (f : State → State) (s : State) : State :=
  if linkPresent s ∧ ¬ linkLost s then f (received cls cr s) else s

/-! ### Register messages (R5, R329, R445) -/

/-- REG_RD is answered with REG_RSP, ARG 0. -/
def answerRegRd (tag : BitVec 16) (a : Nat) (s : State) : State :=
  let r := readReg .companion a 8 s
  sendMsg tyRegRsp 1 tag 0 0 (leBytes 8 r.1.toNat) r.2

def execRegRd (tag : BitVec 16) (addr : Nat) (cr : Credit) (s : State) : Host.Outcome State Fault Refusal :=
  live s (onMessage 1 cr (answerRegRd tag addr))

def execRegWr (addr : Nat) (v : Word) (cr : Credit) (s : State) : Host.Outcome State Fault Refusal :=
  live s (onMessage 0 cr (writeReg .companion addr 8 v))

/-! ### Herd messages (R330, R289) -/

/-- The partition that holds a herd tile through TIER_ALLOC. -/
def herdHolder (s : State) (n : Rgn) (tile : Nat) : Option Part :=
  (List.finRange 16).find? fun p => heldByAlloc s p n.val 2 tile 1

def blankLine : List Byte := List.replicate 64 0

/-- HERD_RD: 64 bytes of a held tile, or ARG 1 and zero data; a poisoned line fails as uncorrectable (R178). -/
def answerHerdRd (tag : BitVec 16) (n : Rgn) (off : Nat) (s : State) : State :=
  match herdHolder s n (off / 4096) with
  | none => sendMsg tyData 3 tag 1 0 blankLine s
  | some p =>
    if off % 64 ≠ 0 then sendMsg tyData 3 tag 1 0 blankLine s
    else if s.poison.contains (herdAddr n.val off / 64) then
      sendMsg tyData 3 tag 1 0 blankLine (lineUe n false none off s)
    else sendMsg tyData 3 tag 0 0 (slice (readTile s (some p) n.val 2 (off / 4096)) (off % 4096) 64) s

def execHerdRd (tag : BitVec 16) (n : Rgn) (off : Nat) (cr : Credit) (s : State) : Host.Outcome State Fault Refusal :=
  live s (onMessage 1 cr (answerHerdRd tag n off))

/-- Write one full line of a herd tile; the write clears the line's poison (R178). -/
def writeHerdLine (p : Part) (n : Rgn) (off : Nat) (b : List Byte) (s : State) : State :=
  let t := off / 4096
  let bad := s.poison.filter fun l => l != herdAddr n.val off / 64
  let s1 := writeTile (some p) n.val 2 t (splice (readTile s (some p) n.val 2 t) (off % 4096) (Config.fit 64 b)) s
  { s1 with poison := bad }

/-- HERD_WR: ACK, with ARG 1 and nothing written where no partition holds the tile. -/
def answerHerdWr (tag : BitVec 16) (n : Rgn) (off : Nat) (b : List Byte) (s : State) : State :=
  match herdHolder s n (off / 4096) with
  | none => sendMsg tyAck 0 tag 1 0 [] s
  | some p =>
    if off % 64 ≠ 0 then sendMsg tyAck 0 tag 1 0 [] s
    else sendMsg tyAck 0 tag 0 0 [] (writeHerdLine p n off b s)

def execHerdWr (tag : BitVec 16) (n : Rgn) (off : Nat) (data : List Byte) (cr : Credit) (s : State) :
    Host.Outcome State Fault Refusal :=
  live s (onMessage 0 cr (answerHerdWr tag n off data))

/-! ### Snoops and responses (R333) -/

/-- SNP_INV: the line goes Invalid and ACK is sent; while the line is being read, both wait for the fill. -/
def snoop (tag : BitVec 16) (a : Nat) (s : State) : State :=
  let line := a / 64 * 64
  match (s.taith.reads.filter fun r => r.window && r.addr == line).getLast? with
  | some q =>
    let f := fun (r : RdReq) => if r.tag = q.tag then { r with snoops := r.snoops ++ [tag] } else r
    modTaith (fun t => { t with reads := t.reads.map f }) s
  | none => sendMsg tyAck 0 tag 0 0 [] (modTaith (cacheDrop line) s)

def execSnpInv (tag : BitVec 16) (addr : Nat) (cr : Credit) (s : State) : Host.Outcome State Fault Refusal :=
  live s (onMessage 1 cr (snoop tag addr))

def ackSnoops : List (BitVec 16) → State → State
  | [], s => s
  | t :: ts, s => ackSnoops ts (sendMsg tyAck 0 t 0 0 [] s)

/-- The snoops that waited for a read are applied. -/
def applySnoops (r : RdReq) (s : State) : State :=
  if r.snoops.isEmpty then s else ackSnoops r.snoops (modTaith (cacheDrop r.addr) s)

/-- A line has come: into the queue cache, or for the one who asked if a snoop of it waits; outside the window into the
read buffer. -/
def takeLine (r : RdReq) (b : List Byte) (s : State) : State :=
  if ¬ r.window then modTaith (fun t => { t with membuf := t.membuf ++ [(r.addr, b)] }) s
  else if r.snoops.isEmpty then modTaith (cacheTouch r.addr b) s
  else applySnoops r (modTaith (fun t => { t with held := t.held ++ [(r.cmd, r.addr, b)] }) s)

/-- A running command goes on with the line it asked for. -/
def feedCmd (c : Cmd) (s : State) : State :=
  if c.phase ≠ .running then s
  else if c.opcode = 0x42 then
    (if copyFromCompanion c then pump c.id (feedTile c (c.p8 0x18) false (4096 * c.p4 0x28) s) else s)
  else if c.opcode = 0x10 ∨ c.opcode = 0x13 then imageSteps c.id (feedImage c s)
  else if c.opcode = 0x91 then fwFeed c s
  else s

/-- The head line of a ring that is fetched from the window. -/
def headLine (s : State) (o : RingOwner) (k : Nat) : Option Nat :=
  let g := ringRegs o k
  if rEnabled s g ∧ rLoc s g = 0 then some (winBase s + rBase s g + 64 * rHead s g) else none

def failFetches (line : Nat) : List Ring → State → State
  | [], s => s
  | r :: rs, s =>
    failFetches line rs (match submission s r with
      | none => s
      | some (o, k) => if headLine s o k = some line then fetchError r o k s else s)

def allRings : List Ring := .mgmt :: (List.finRange 16).flatMap fun p => [.part p 0, .part p 1]

/-- Is the line part of the buffer that a mailbox operation reads? -/
def mbxAsked (s : State) (r : RdReq) : Bool :=
  match s.sec.mbxOp with
  | some x => r.cmd.isNone && decide (winBase s + bufOff x.buf ≤ r.addr) && decide (r.addr < winBase s + bufOff x.buf + 20480)
  | none => false

/-- A read of companion memory has failed: the command that asked for it fails, or the mailbox operation. -/
def readLost (r : RdReq) (s : State) : State :=
  match r.cmd with
  | some id => s.modCmd id fun c => { c with rdErr := some ST_TIER_ERROR }
  | none => if mbxAsked s r then modSec (fun c => { c with mbxOp := c.mbxOp.map fun x => { x with failed := true } }) s else s

/-- So does a ring's fetch (R281). A stage or load ends once a step that it has reached needs the tile that failed. -/
def readFails (r : RdReq) (s : State) : State :=
  if r.cmd.isNone ∧ ¬ mbxAsked s r then failFetches r.addr allRings s
  else match r.cmd with
    | some id => imageSteps id (readLost r s)
    | none => readLost r s

/-- DATA answers a read of the device; the data of an unknown tag is dropped. -/
def dataArrives (tag : BitVec 16) (err : Bool) (b : List Byte) (s : State) : State :=
  match s.taith.reads.find? fun r => r.tag == tag with
  | none => s
  | some r =>
    let s1 := modTaith (fun t => { t with reads := t.reads.filter fun q => q.tag != tag }) s
    if err then applySnoops r (readFails r s1)
    else
      let s2 := takeLine r (Config.fit 64 b) s1
      match r.cmd.bind s2.cmd with
      | none => s2
      | some c => feedCmd c s2

def execData (tag : BitVec 16) (err : Bool) (data : List Byte) (cr : Credit) (s : State) :
    Host.Outcome State Fault Refusal :=
  live s (onMessage 2 cr (dataArrives tag err data))

/-- The record whose write a tag names becomes visible; a replay goes on. -/
def ackRecord (p : Option Part) (tag : BitVec 16) (s : State) : State :=
  match (cqOf p s).unacked.find? fun u => u.1 == tag with
  | none => s
  | some u =>
    let s1 := modCq p (fun q => { q with unacked := q.unacked.filter fun x => x.1 != tag }) s
    match (match p with | none => some RingOwner.mgmt | some q => ownerOf s q) with
    | none => s1
    | some o => pumpReplay p o (cqVisible p o u.2.1.irq (showShadow p s1))

/-- ACK: the write of its tag is complete, and a completion record visible (R282, R284, R333). -/
def ackArrives (tag : BitVec 16) (s : State) : State :=
  let s1 := modTaith (fun t => { t with writes := t.writes.filter fun w => w != tag }) s
  (List.finRange 16).foldl (fun t p => ackRecord (some p) tag t) (ackRecord none tag s1)

def execTaithAck (tag : BitVec 16) (_err : Bool) (cr : Credit) (s : State) : Host.Outcome State Fault Refusal :=
  live s (onMessage 2 cr (ackArrives tag))

/-! ### Reserved messages, PAD and KEEPALIVE (R330, R331, R334) -/

/-- A dropped message: one of class R is answered by its response with ARG 1. -/
def answerReserved (ty : BitVec 8) (tag : BitVec 16) (s : State) : State :=
  if msgClass ty ≠ 1 then s
  else if ty = 0x01 then sendMsg tyRegRsp 1 tag 1 0 (List.replicate 8 0) s
  else if ty = 0x0A then sendMsg tyAck 0 tag 1 0 [] s
  else sendMsg tyData 3 tag 1 0 blankLine s

def execReservedTaithMessage (type : BitVec 8) (tag : BitVec 16) (cr : Credit) (s : State) :
    Host.Outcome State Fault Refusal :=
  live s (onMessage (msgClass type) cr (answerReserved type tag))

/-- A header alone: it returns credits and ends the silence. -/
def padArrives (cr : Credit) (s : State) : State := onMessage 3 cr id s

def execPad (cr : Credit) (s : State) : Host.Outcome State Fault Refusal := live s (padArrives cr)

def execKeepalive (cr : Credit) (s : State) : Host.Outcome State Fault Refusal := live s (onMessage 2 cr id)

def kaPeriod (s : State) : Nat := max 1 (s.fld Reg.TAITH_KA Reg.TAITH_KA_PERIOD)
def kaTimeout (s : State) : Nat :=
  let t := s.fld Reg.TAITH_KA Reg.TAITH_KA_TIMEOUT
  if t = 0 then 1000 else t

/-- KEEPALIVE_TIMER: nothing has been sent for PERIOD. -/
def keepaliveDue (s : State) : State :=
  if linkPresent s ∧ ¬ linkLost s ∧ s.taith.lastTx + kaPeriod s ≤ s.now then sendMsg tyKeepalive 0 0 0 0 [] s else s

def execKeepaliveTimer (s : State) : Host.Outcome State Fault Refusal := live s keepaliveDue

/-! ### Loss of the link (R334, R335) -/

def raiseTaith (src : Nat) (s : State) : State := raiseDetail src none (s.reg Reg.TAITH_STATUS).toNat s

/-- Records with no ACK go to the front of the shadow ring. -/
def shadowUnacked (q : CqState) : CqState := { q with unacked := [], shadow := q.unacked.map (fun u => u.2.1) ++ q.shadow }

/-- A partition's window rings stop until TAITH_RESUME; a replay in progress stops. -/
def stopPart (p : Part) (s : State) : State :=
  let uses := match ownerOf s p with | none => false | some o => windowRing s o
  let s1 := if (s.part p).replay then setReplay p false s else s
  let s2 := s1.modPart p fun q => { q with stopped := q.stopped || uses }
  showShadow (some p) (modCq (some p) shadowUnacked s2)

/-- Commands whose reads of companion memory are outstanding end with ST_TIER_ERROR. -/
def failReads : List RdReq → State → State
  | [], s => s
  | r :: rs, s => failReads rs (readLost r s)

/-- Everything on its way over the link is lost; the queue cache is emptied. -/
def dropTraffic (s : State) : State :=
  modTaith (fun t => { t with
    waiting := [], cache := [], membuf := [], held := [], reads := [], writes := [], owed := Vector.replicate 3 0,
    lossAt := some s.now, parkTried := [] }) s

def linkIsLost (down : Bool) (s : State) : State :=
  let a := Reg.TAITH_STATUS
  let s1 := dropTraffic (failReads s.taith.reads s)
  let s2 := s1.setFld a Reg.TAITH_STATUS_LINK_UP 0
  let s3 := (if down then s2.setFld a Reg.TAITH_STATUS_WIDTH 0 else s2).bump a Reg.TAITH_STATUS_LOSSES 1
  let s4 := (s3.setReg Reg.TAITH_LOSS_STATUS 0)
  let s5 := (List.finRange 16).foldl (fun t p => stopPart p t) (modCq none shadowUnacked s4)
  raiseTaith 3 (settleLost s5)

/-- TAITH_LINK_LOSS: the physical layer reports link-down, or nothing has been received for TIMEOUT. -/
def linkLossDue (down : Bool) (s : State) : State :=
  if linkPresent s ∧ ¬ linkLost s ∧ (down ∨ s.taith.lastRx + kaTimeout s ≤ s.now) then linkIsLost down s else s

def execTaithLinkLoss (down : Bool) (s : State) : Host.Outcome State Fault Refusal := live s (linkLossDue down)

/-! ### Parking after a long loss (R336) -/

def lossTtl (s : State) : Nat := min 86400000 (max 1000 (s.fld Reg.TAITH_LOSS_CFG Reg.TAITH_LOSS_CFG_TTL_MS))

/-- Herd extents for the tables of a session, the lowest free ones in order. -/
def lossExtents (x : Session) : List PageTable → List Extent → State → Option (List Extent)
  | [], got, _ => some got
  | t :: ts, got, s =>
    let k := parkNeed x t
    let ends := reservedTiles s (Fin.ofNat 16 t.rgn) 2 ::
      ((heldExtents s ++ got).filter fun e => e.rgn == t.rgn && e.tier == 2).map fun e => e.first + e.tiles
    let fits := ends.filter fun f => isFree s ⟨t.rgn, 2, f, k⟩ && !(got.any (overlap ⟨t.rgn, 2, f, k⟩))
    match fits with
    | [] => none
    | f :: fs => lossExtents x ts (got ++ [⟨t.rgn, 2, fs.foldl min f, k⟩]) s

def countPark (f : Fld) (s : State) : State := s.bump Reg.TAITH_LOSS_STATUS f 1

/-- Carry out one move of a loss park within the step. DESIGN CHOICE (log entry 152): no command holds these copies, so the model
makes them at once; a source tile with a poisoned line fails the park. -/
def moveNow (p : Part) (m : Move) (a : State × Bool) : State × Bool :=
  if ¬ a.2 then a
  else match m.src with
    | none => (writeTile (some p) m.rgn m.dst.1 m.dst.2 m.data a.1, true)
    | some t =>
      if tilePoisoned a.1 m.rgn t.1 t.2 then (tierUe none m.rgn t.1 t.2 a.1, false)
      else (writeTile (some p) m.rgn m.dst.1 m.dst.2 (readTile a.1 (some p) m.rgn t.1 t.2) a.1, true)

def lossCopies (p : Part) (x : Session) (exts : List Extent) (s : State) : State × Bool :=
  ((x.tables.zip exts).flatMap fun a => parkMoves x a.1 a.2).foldl (fun a m => moveNow p m a) (s, true)

/-- Park one OPEN session to the herd tier; no record is written. -/
def lossPark (p : Part) (x : Session) (s : State) : State :=
  let s1 := modTaith (fun t => { t with parkTried := t.parkTried ++ [(p.val, x.handle)] }) s
  match lossExtents x x.tables [] s1 with
  | none => countPark Reg.TAITH_LOSS_STATUS_PARK_FAIL s1
  | some exts =>
    if ¬ quotaOk s1 p 2 (tilesIn 2 exts) then countPark Reg.TAITH_LOSS_STATUS_PARK_FAIL s1
    else
      let r := lossCopies p x exts s1
      if r.2 then
        countPark Reg.TAITH_LOSS_STATUS_PARKED (showSessions p (showDeferred (parkDone p x exts 2 (lossTtl s1) r.1)))
      else countPark Reg.TAITH_LOSS_STATUS_PARK_FAIL r.1

def lossParks (p : Part) : List Session → State → State
  | [], s => s
  | x :: xs, s =>
    lossParks p xs (if x.st = .opened ∧ ¬ busy s p x.handle ∧ ¬ s.taith.parkTried.contains (p.val, x.handle) then lossPark p x s
      else s)

/-- LOSS_PARK_TIMEOUT: the loss has lasted PARK_TICKS. A busy session is parked when the event comes again after its
command has retired. -/
def lossParkDue (s : State) : State :=
  let k := s.fld Reg.TAITH_LOSS_CFG Reg.TAITH_LOSS_CFG_PARK_TICKS
  match s.taith.lossAt with
  | none => s
  | some t =>
    if k ≠ 0 ∧ t + k ≤ s.now then
      (List.finRange 16).foldl (fun u p => lossParks p (u.part p).sessions u) s
    else s

def execLossParkTimeout (s : State) : Host.Outcome State Fault Refusal := live s lossParkDue

/-! ### The link comes up (R328, R331, R337) -/

/-- TAITH_LINK_UP: trained at x16 or x8 (Table 13.1); each side grants 128 credits a class. The management rings resume
at once. -/
def linkComesUp (width : Nat) (fast : Bool) (s : State) : State :=
  let a := Reg.TAITH_STATUS
  if linkUp s ∨ ¬ s.domOn (chipDom 3) then s
  else if width < 2 then failedStart 0x08 s
  else
    let s1 := ((s.setFld a Reg.TAITH_STATUS_LINK_UP 1).setFld a Reg.TAITH_STATUS_WIDTH width).setFld a
      Reg.TAITH_STATUS_RATE (bit fast)
    let s2 := modTaith (fun t => { t with
      credits := Vector.replicate 3 128, owed := Vector.replicate 3 0, lastRx := s.now, lastTx := s.now, lossAt := none,
      trained := width }) s1
    let s3 := pumpReplay none .mgmt (settleLost s2)
    let s4 := if linkLost s then irqRaise evTaith 0 s3 else s3
    if width < 3 ∨ ¬ fast then raiseTaith 2 s4 else s4

def execTaithLinkUp (width : Fin 4) (fast : Bool) (s : State) : Host.Outcome State Fault Refusal :=
  live s (linkComesUp width.val fast)

/-- TAITH_RESUME (R337). -/
def execTaithResume (who : Requester) (v : Word) (s : State) : Host.Outcome State Fault Refusal :=
  live s (guardWrite who Reg.TAITH_RESUME 8 v (doResume v))

end Sys2Proof.Machine
end

