-- ==== Sys2Proof/Machine/Dispatch.lean ====
section
/-!
DEFINITION. One arm per command: the meaning of each row of spec/opcode_table.json.
-/

namespace Sys2Proof.Machine

def exec (i : Instr) (s : State) : Host.Outcome State Fault Refusal :=
  match i with
  | .registerWrite who addr width v => Sys2Proof.Machine.execRegisterWrite who addr width v s
  | .rcRead who addr width => Sys2Proof.Machine.execRcRead who addr width s
  | .linkTransfer n l parityError => Sys2Proof.Machine.execLinkTransfer n l parityError s
  | .rateWindow n steps => Sys2Proof.Machine.execRateWindow n steps s
  | .stall n => Sys2Proof.Machine.execStall n s
  | .granuleRetire n c g => Sys2Proof.Machine.execGranuleRetire n c g s
  | .variantReselect n id variant => Sys2Proof.Machine.execVariantReselect n id variant s
  | .blockFence n b cause => Sys2Proof.Machine.execBlockFence n b cause s
  | .nopMicroOp n c sl => Sys2Proof.Machine.execNopMicroOp n c sl s
  | .mma n c sl => Sys2Proof.Machine.execMma n c sl s
  | .mmaComplete n c sl => Sys2Proof.Machine.execMmaComplete n c sl s
  | .mov n c sl => Sys2Proof.Machine.execMov n c sl s
  | .cvt n c sl => Sys2Proof.Machine.execCvt n c sl s
  | .mxscale n c sl => Sys2Proof.Machine.execMxscale n c sl s
  | .setp n c sl => Sys2Proof.Machine.execSetp n c sl s
  | .seed n c sl => Sys2Proof.Machine.execSeed n c sl s
  | .flags n c sl => Sys2Proof.Machine.execFlags n c sl s
  | .add n c sl => Sys2Proof.Machine.execAdd n c sl s
  | .sub n c sl => Sys2Proof.Machine.execSub n c sl s
  | .mul n c sl => Sys2Proof.Machine.execMul n c sl s
  | .fma n c sl => Sys2Proof.Machine.execFma n c sl s
  | .max n c sl => Sys2Proof.Machine.execMax n c sl s
  | .min n c sl => Sys2Proof.Machine.execMin n c sl s
  | .neg n c sl => Sys2Proof.Machine.execNeg n c sl s
  | .abs n c sl => Sys2Proof.Machine.execAbs n c sl s
  | .cmp n c sl => Sys2Proof.Machine.execCmp n c sl s
  | .sel n c sl => Sys2Proof.Machine.execSel n c sl s
  | .exp2 n c sl => Sys2Proof.Machine.execExp2 n c sl s
  | .log2 n c sl => Sys2Proof.Machine.execLog2 n c sl s
  | .rcp n c sl => Sys2Proof.Machine.execRcp n c sl s
  | .rsqrt n c sl => Sys2Proof.Machine.execRsqrt n c sl s
  | .silu n c sl => Sys2Proof.Machine.execSilu n c sl s
  | .gelu n c sl => Sys2Proof.Machine.execGelu n c sl s
  | .subexp n c sl => Sys2Proof.Machine.execSubexp n c sl s
  | .redRow n c sl => Sys2Proof.Machine.execRedRow n c sl s
  | .redCol n c sl => Sys2Proof.Machine.execRedCol n c sl s
  | .nstat n c sl => Sys2Proof.Machine.execNstat n c sl s
  | .nfin n c sl => Sys2Proof.Machine.execNfin n c sl s
  | .summary n c sl => Sys2Proof.Machine.execSummary n c sl s
  | .reservedMicroOp n c sl => Sys2Proof.Machine.execReservedMicroOp n c sl s
  | .pass n c => Sys2Proof.Machine.execPass n c s
  | .select n c => Sys2Proof.Machine.execSelect n c s
  | .drop n c => Sys2Proof.Machine.execDrop n c s
  | .takeA n c => Sys2Proof.Machine.execTakeA n c s
  | .takeB n c => Sys2Proof.Machine.execTakeB n c s
  | .switchContext n c => Sys2Proof.Machine.execSwitchContext n c s
  | .signal n b => Sys2Proof.Machine.execSignal n b s
  | .switchOrder n => Sys2Proof.Machine.execSwitchOrder n s
  | .chipSwitchOrder n => Sys2Proof.Machine.execChipSwitchOrder n s
  | .sweep n => Sys2Proof.Machine.execSweep n s
  | .loadStart n sl => Sys2Proof.Machine.execLoadStart n sl s
  | .loadComplete n sl out => Sys2Proof.Machine.execLoadComplete n sl out s
  | .loadWaitExpiry n sl => Sys2Proof.Machine.execLoadWaitExpiry n sl s
  | .ctxLoad who n v => Sys2Proof.Machine.execCtxLoad who n v s
  | .ctxFlush who n v => Sys2Proof.Machine.execCtxFlush who n v s
  | .freeze who n v => Sys2Proof.Machine.execFreeze who n v s
  | .frozen n b => Sys2Proof.Machine.execFrozen n b s
  | .unfreeze who n v => Sys2Proof.Machine.execUnfreeze who n v s
  | .scanDataRead who n => Sys2Proof.Machine.execScanDataRead who n s
  | .scanDataWrite who n v => Sys2Proof.Machine.execScanDataWrite who n v s
  | .seqGo who n v => Sys2Proof.Machine.execSeqGo who n v s
  | .seqAbort who n v => Sys2Proof.Machine.execSeqAbort who n v s
  | .run n => Sys2Proof.Machine.execRun n s
  | .iteration n => Sys2Proof.Machine.execIteration n s
  | .load n => Sys2Proof.Machine.execLoad n s
  | .jump n => Sys2Proof.Machine.execJump n s
  | .halt n => Sys2Proof.Machine.execHalt n s
  | .planDone n => Sys2Proof.Machine.execPlanDone n s
  | .groupFetch n what out => Sys2Proof.Machine.execGroupFetch n what out s
  | .brokenClear who b v => Sys2Proof.Machine.execBrokenClear who b v s
  | .forceRelease who b v => Sys2Proof.Machine.execForceRelease who b v s
  | .syncForceGo who n v => Sys2Proof.Machine.execSyncForceGo who n v s
  | .summaryToken n b => Sys2Proof.Machine.execSummaryToken n b s
  | .branch n => Sys2Proof.Machine.execBranch n s
  | .branchAnswer n => Sys2Proof.Machine.execBranchAnswer n s
  | .waitLimitExpiry n => Sys2Proof.Machine.execWaitLimitExpiry n s
  | .read n d => Sys2Proof.Machine.execRead n d s
  | .write n d => Sys2Proof.Machine.execWrite n d s
  | .copy n d => Sys2Proof.Machine.execCopy n d s
  | .descriptorComplete n d => Sys2Proof.Machine.execDescriptorComplete n d s
  | .tierResponse n r out => Sys2Proof.Machine.execTierResponse n r out s
  | .requestTimeout n r => Sys2Proof.Machine.execRequestTimeout n r s
  | .patrolScrub n near line out => Sys2Proof.Machine.execPatrolScrub n near line out s
  | .unitWriteAck n r phys lost => Sys2Proof.Machine.execUnitWriteAck n r phys lost s
  | .programComplete n u ok phys => Sys2Proof.Machine.execProgramComplete n u ok phys s
  | .eraseComplete n blk ok => Sys2Proof.Machine.execEraseComplete n blk ok s
  | .codewordRead n r out => Sys2Proof.Machine.execCodewordRead n r out s
  | .foldFlushDone n => Sys2Proof.Machine.execFoldFlushDone n s
  | .foldReady n => Sys2Proof.Machine.execFoldReady n s
  | .periodicCheckpoint n => Sys2Proof.Machine.execPeriodicCheckpoint n s
  | .retentionScrub n blk out => Sys2Proof.Machine.execRetentionScrub n blk out s
  | .refreshRelocation n blk dst => Sys2Proof.Machine.execRefreshRelocation n blk dst s
  | .garbageCollection n blk dst => Sys2Proof.Machine.execGarbageCollection n blk dst s
  | .staticWearLevelling n src dst => Sys2Proof.Machine.execStaticWearLevelling n src dst s
  | .blockInfo who n v => Sys2Proof.Machine.execBlockInfo who n v s
  | .checkpoint who n v => Sys2Proof.Machine.execCheckpoint who n v s
  | .format who n v => Sys2Proof.Machine.execFormat who n v s
  | .badList who n v => Sys2Proof.Machine.execBadList who n v s
  | .foldMailboxDone n ok => Sys2Proof.Machine.execFoldMailboxDone n ok s
  | .pageBlockRelocation p h grp page dst table => Sys2Proof.Machine.execPageBlockRelocation p h grp page dst table s
  | .ttlExpiry p h => Sys2Proof.Machine.execTtlExpiry p h s
  | .dispatch r => Sys2Proof.Machine.execDispatch r s
  | .combine r => Sys2Proof.Machine.execCombine r s
  | .signatureVerify id => Sys2Proof.Machine.execSignatureVerify id s
  | .doorbell who r v => Sys2Proof.Machine.execDoorbell who r v s
  | .entryFetch f => Sys2Proof.Machine.execEntryFetch f s
  | .heldEntryRelease r => Sys2Proof.Machine.execHeldEntryRelease r s
  | .cmdRingCfg who r k v => Sys2Proof.Machine.execCmdRingCfg who r k v s
  | .reservedOpcode r => Sys2Proof.Machine.execReservedOpcode r s
  | .nop r ch => Sys2Proof.Machine.execNop r ch s
  | .query r ch => Sys2Proof.Machine.execQuery r ch s
  | .partitionSet r ch => Sys2Proof.Machine.execPartitionSet r ch s
  | .pkgStage r ch => Sys2Proof.Machine.execPkgStage r ch s
  | .pkgActivate r ch => Sys2Proof.Machine.execPkgActivate r ch s
  | .pkgRetire r ch => Sys2Proof.Machine.execPkgRetire r ch s
  | .adapterLoad r ch => Sys2Proof.Machine.execAdapterLoad r ch s
  | .adapterDrop r ch => Sys2Proof.Machine.execAdapterDrop r ch s
  | .sessionOpen r ch => Sys2Proof.Machine.execSessionOpen r ch s
  | .sessionPrefill r ch => Sys2Proof.Machine.execSessionPrefill r ch s
  | .sessionDecode r ch => Sys2Proof.Machine.execSessionDecode r ch s
  | .sessionAccept r ch => Sys2Proof.Machine.execSessionAccept r ch s
  | .sessionPark r ch => Sys2Proof.Machine.execSessionPark r ch s
  | .sessionResume r ch => Sys2Proof.Machine.execSessionResume r ch s
  | .sessionClose r ch => Sys2Proof.Machine.execSessionClose r ch s
  | .jobRun r ch => Sys2Proof.Machine.execJobRun r ch s
  | .jobAbort r ch => Sys2Proof.Machine.execJobAbort r ch s
  | .tierAlloc r ch => Sys2Proof.Machine.execTierAlloc r ch s
  | .tierFree r ch => Sys2Proof.Machine.execTierFree r ch s
  | .tierCopy r ch => Sys2Proof.Machine.execTierCopy r ch s
  | .quotaSet r ch => Sys2Proof.Machine.execQuotaSet r ch s
  | .syncForce r ch => Sys2Proof.Machine.execSyncForce r ch s
  | .fabCircuitBind r ch => Sys2Proof.Machine.execFabCircuitBind r ch s
  | .fabCircuitUnbind r ch => Sys2Proof.Machine.execFabCircuitUnbind r ch s
  | .lendOffer r ch => Sys2Proof.Machine.execLendOffer r ch s
  | .lendWithdraw r ch => Sys2Proof.Machine.execLendWithdraw r ch s
  | .lendBorrow r ch => Sys2Proof.Machine.execLendBorrow r ch s
  | .faultConfig r ch => Sys2Proof.Machine.execFaultConfig r ch s
  | .faultInject r ch => Sys2Proof.Machine.execFaultInject r ch s
  | .powerPolicy r ch => Sys2Proof.Machine.execPowerPolicy r ch s
  | .attest r ch => Sys2Proof.Machine.execAttest r ch s
  | .fwStage r ch => Sys2Proof.Machine.execFwStage r ch s
  | .fwCommit r ch => Sys2Proof.Machine.execFwCommit r ch s
  | .abortRequest id => Sys2Proof.Machine.execAbortRequest id s
  | .commit id => Sys2Proof.Machine.execCommit id s
  | .commandRetire id => Sys2Proof.Machine.execCommandRetire id s
  | .cqModExpiry o => Sys2Proof.Machine.execCqModExpiry o s
  | .planDispatch id ch => Sys2Proof.Machine.execPlanDispatch id ch s
  | .deadlinePass id => Sys2Proof.Machine.execDeadlinePass id s
  | .regRd tag addr cr => Sys2Proof.Machine.execRegRd tag addr cr s
  | .regWr addr v cr => Sys2Proof.Machine.execRegWr addr v cr s
  | .herdRd tag n off cr => Sys2Proof.Machine.execHerdRd tag n off cr s
  | .herdWr tag n off data cr => Sys2Proof.Machine.execHerdWr tag n off data cr s
  | .snpInv tag addr cr => Sys2Proof.Machine.execSnpInv tag addr cr s
  | .data tag err data cr => Sys2Proof.Machine.execData tag err data cr s
  | .taithAck tag err cr => Sys2Proof.Machine.execTaithAck tag err cr s
  | .reservedTaithMessage type tag cr => Sys2Proof.Machine.execReservedTaithMessage type tag cr s
  | .keepalive cr => Sys2Proof.Machine.execKeepalive cr s
  | .keepaliveTimer => Sys2Proof.Machine.execKeepaliveTimer s
  | .taithLinkLoss down => Sys2Proof.Machine.execTaithLinkLoss down s
  | .lossParkTimeout => Sys2Proof.Machine.execLossParkTimeout s
  | .taithLinkUp width fast => Sys2Proof.Machine.execTaithLinkUp width fast s
  | .taithResume who v => Sys2Proof.Machine.execTaithResume who v s
  | .axiumLinkTrained n ok => Sys2Proof.Machine.execAxiumLinkTrained n ok s
  | .helloSigned n => Sys2Proof.Machine.execHelloSigned n s
  | .hello n nonce short => Sys2Proof.Machine.execHello n nonce short s
  | .axiumAck n m => Sys2Proof.Machine.execAxiumAck n m s
  | .nak n m => Sys2Proof.Machine.execNak n m s
  | .tileGet n m => Sys2Proof.Machine.execTileGet n m s
  | .tilePut n m => Sys2Proof.Machine.execTilePut n m s
  | .tileData n m => Sys2Proof.Machine.execTileData n m s
  | .syncSignal n m => Sys2Proof.Machine.execSyncSignal n m s
  | .lendAsk n m => Sys2Proof.Machine.execLendAsk n m s
  | .lendGrant n m => Sys2Proof.Machine.execLendGrant n m s
  | .lendRecall n m => Sys2Proof.Machine.execLendRecall n m s
  | .lendReturn n m => Sys2Proof.Machine.execLendReturn n m s
  | .probe n m => Sys2Proof.Machine.execProbe n m s
  | .replayRequest n h => Sys2Proof.Machine.execReplayRequest n h s
  | .idleFlit n h => Sys2Proof.Machine.execIdleFlit n h s
  | .flitError n kind => Sys2Proof.Machine.execFlitError n kind s
  | .pathDown n h => Sys2Proof.Machine.execPathDown n h s
  | .axiumLinkDown n cause => Sys2Proof.Machine.execAxiumLinkDown n cause s
  | .probeTimer n c => Sys2Proof.Machine.execProbeTimer n c s
  | .circuitTimeout n c => Sys2Proof.Machine.execCircuitTimeout n c s
  | .bindReprobe n c => Sys2Proof.Machine.execBindReprobe n c s
  | .recallNoticeExpiry n offer => Sys2Proof.Machine.execRecallNoticeExpiry n offer s
  | .withdrawNoticeExpiry n offer => Sys2Proof.Machine.execWithdrawNoticeExpiry n offer s
  | .fabChipId who v => Sys2Proof.Machine.execFabChipId who v s
  | .porNFall => Sys2Proof.Machine.execPorNFall s
  | .porNRise strapBoot strapRecover testEn => Sys2Proof.Machine.execPorNRise strapBoot strapRecover testEn s
  | .warmRstN => Sys2Proof.Machine.execWarmRstN s
  | .warm who v => Sys2Proof.Machine.execWarm who v s
  | .clearAttempts who v => Sys2Proof.Machine.execClearAttempts who v s
  | .bootImgGo who v => Sys2Proof.Machine.execBootImgGo who v s
  | .bootImageReadDone err bundle => Sys2Proof.Machine.execBootImageReadDone err bundle s
  | .tahrVerified readErr => Sys2Proof.Machine.execTahrVerified readErr s
  | .companionUp => Sys2Proof.Machine.execCompanionUp s
  | .bootWdtExpiry => Sys2Proof.Machine.execBootWdtExpiry s
  | .herdTrainingDone n res => Sys2Proof.Machine.execHerdTrainingDone n res s
  | .foldStartDone n res => Sys2Proof.Machine.execFoldStartDone n res s
  | .nearTrainingDone n failed => Sys2Proof.Machine.execNearTrainingDone n failed s
  | .migrate who v => Sys2Proof.Machine.execMigrate who v s
  | .migrationDone n => Sys2Proof.Machine.execMigrationDone n s
  | .pwrfailNFall => Sys2Proof.Machine.execPwrfailNFall s
  | .pwrfailNRise => Sys2Proof.Machine.execPwrfailNRise s
  | .coolantOkFall => Sys2Proof.Machine.execCoolantOkFall s
  | .coolantRead res => Sys2Proof.Machine.execCoolantRead res s
  | .powerWindow m => Sys2Proof.Machine.execPowerWindow m s
  | .peakLimit => Sys2Proof.Machine.execPeakLimit s
  | .voltageStepDone n => Sys2Proof.Machine.execVoltageStepDone n s
  | .thermalTrip => Sys2Proof.Machine.execThermalTrip s
  | .tripShutdown => Sys2Proof.Machine.execTripShutdown s
  | .blockGating n => Sys2Proof.Machine.execBlockGating n s
  | .deepIdleEntry => Sys2Proof.Machine.execDeepIdleEntry s
  | .blockPowerOn n b => Sys2Proof.Machine.execBlockPowerOn n b s
  | .pwrRmKick who v => Sys2Proof.Machine.execPwrRmKick who v s
  | .rmWdtExpiry => Sys2Proof.Machine.execRmWdtExpiry s
  | .rmHoldExpiry => Sys2Proof.Machine.execRmHoldExpiry s
  | .refclkLoss => Sys2Proof.Machine.execRefclkLoss s
  | .faultReport src info => Sys2Proof.Machine.execFaultReport src info s
  | .graceExpiry src => Sys2Proof.Machine.execGraceExpiry src s
  | .fltAck who addr v => Sys2Proof.Machine.execFltAck who addr v s
  | .force who addr v => Sys2Proof.Machine.execForce who addr v s
  | .errPulseEnd => Sys2Proof.Machine.execErrPulseEnd s
  | .fltRingCfg who v => Sys2Proof.Machine.execFltRingCfg who v s
  | .keptDrain => Sys2Proof.Machine.execKeptDrain s
  | .eventDelivery p => Sys2Proof.Machine.execEventDelivery p s
  | .processorInterrupt p => Sys2Proof.Machine.execProcessorInterrupt p s
  | .irqModExpiry p => Sys2Proof.Machine.execIrqModExpiry p s
  | .irqEnSet who w v => Sys2Proof.Machine.execIrqEnSet who w v s
  | .irqEnClr who w v => Sys2Proof.Machine.execIrqEnClr who w v s
  | .irqPendSet who w v => Sys2Proof.Machine.execIrqPendSet who w v s
  | .irqPendClr who w v => Sys2Proof.Machine.execIrqPendClr who w v s
  | .irqQCfg who p v => Sys2Proof.Machine.execIrqQCfg who p v s
  | .getCert who v => Sys2Proof.Machine.execGetCert who v s
  | .mrExtend who v => Sys2Proof.Machine.execMrExtend who v s
  | .unlockChallenge who v => Sys2Proof.Machine.execUnlockChallenge who v s
  | .unlock who v => Sys2Proof.Machine.execUnlock who v s
  | .lock who v => Sys2Proof.Machine.execLock who v s
  | .setEndpointId bus eid => Sys2Proof.Machine.execSetEndpointId bus eid s
  | .pldmDiscovery bus cmd => Sys2Proof.Machine.execPldmDiscovery bus cmd s
  | .getSensorReading bus sensor => Sys2Proof.Machine.execGetSensorReading bus sensor s
  | .requestUpdate bus => Sys2Proof.Machine.execRequestUpdate bus s
  | .firmwareTransfer bus off data last => Sys2Proof.Machine.execFirmwareTransfer bus off data last s
  | .activateFirmware bus => Sys2Proof.Machine.execActivateFirmware bus s
  | .cancelUpdate bus => Sys2Proof.Machine.execCancelUpdate bus s
  | .pldmUpdateTimeout => Sys2Proof.Machine.execPldmUpdateTimeout s
  | .vendorKick bus arg => Sys2Proof.Machine.execVendorKick bus arg s
  | .coolantOkRise => Sys2Proof.Machine.execCoolantOkRise s
  | .foldFlushTimeout n => Sys2Proof.Machine.execFoldFlushTimeout n s
  | .regulatorReport mv => Sys2Proof.Machine.execRegulatorReport mv s
  | .pad cr => Sys2Proof.Machine.execPad cr s
  | .laneSignal n => Sys2Proof.Machine.execLaneSignal n s
  | .tahrMailboxDone rnd => Sys2Proof.Machine.execTahrMailboxDone rnd s
  | .supplyFall => Sys2Proof.Machine.execSupplyFall s
  | .badRead who addr width => Sys2Proof.Machine.execBadRead who addr width s

end Sys2Proof.Machine
end

