-- ==== Sys2Proof/Machine/Step.lean ====
section
/-!
DEFINITION. One step of the block: the command at the front of the queue, or, on an empty queue, one tick of local time
(R13; log entry 3).
-/

namespace Sys2Proof.Machine

/-- The queue is empty: one tick of local time, unless POR_N is low or REFCLK_100M is lost (R366, R464). -/
def idle (s : State) : State := if s.pins.porN && !s.pins.refclkLost then { s with now := s.now + 1 } else s

/-- Take the command at the front of the queue and run it with the queue's rest. -/
def step (s : State) : Host.Outcome State Fault Refusal :=
  match s.pending with
  | [] => .next (idle s)
  | c :: rest => exec c { s with pending := rest }

/-- The state with the command that a word spells at the front of its queue. -/
def State.withFetchWord (s : State) (nbits w : Nat) : State :=
  match Sys2Proof.decodeTableWord nbits w with
  | none => s
  | some c => { s with pending := c :: s.pending }

end Sys2Proof.Machine
end

