-- ==== Sys2Proof/Safety.lean ====
section
/-!
DEFINITION. What a safe run is, in the terms the claims use: a step that neither faults nor refuses, and the canonical
forms of the sparse parts of the state.
-/

namespace Sys2Proof

open Machine

/-- The device acts: POR_N is high, TEST_EN was low at its rise, and the reference clock runs (R366, R457, R464). -/
abbrev Awake (s : State) : Prop := s.pins.porN = true ∧ s.boot.testHold = false ∧ s.pins.refclkLost = false

/-- A requester's 64-bit write of `v` at `a` reaches an awake device and passes the access check (R445, R449 to R452). -/
abbrev Writes (who : Requester) (a : Nat) (v : Word) (s : State) : Prop := Awake s ∧ accessCheck who true a 8 v s = .ok

/-- Every register outside the list reads as before. -/
def SameRegsBut (l : List Nat) (s t : State) : Prop := ∀ a, a ∉ l → t.reg a = s.reg a

/-- The queue, local time, memory, cells, regions, partitions, commands, links, power, security and bring-up are as before:
only registers, the two fault and interrupt units, the level of ERR_N and the model's counter of free values may differ. -/
def SameMachine (s t : State) : Prop :=
  t = { s with regs := t.regs, flt := t.flt, pins := { s.pins with errN := t.pins.errN }, free := t.free }

/-- Every byte of memory outside the `k` bytes from `a` reads as before. -/
def SameBytesBut (a k : Nat) (s t : State) : Prop := ∀ b, b < a ∨ a + k ≤ b → t.byte b = s.byte b

/-- The bytes `l` stand in memory from `a` upward. -/
def Holds (t : State) (a : Nat) (l : List Byte) : Prop := ∀ k (h : k < l.length), t.byte (a + k) = l[k]

/-- Where the mapping table of a fold channel holds the entry of a unit (R199). -/
def entryAddr (n : Rgn) (u : Nat) : Nat := herdAddr n (4096 * tableTile + 4 * u)

/-- No byte outside the table entries of the units `l` differs. -/
def SameBytesButEntries (n : Rgn) (l : List FoldUnit) (s t : State) : Prop :=
  ∀ a, (∀ u ∈ l, a < entryAddr n u.unit ∨ entryAddr n u.unit + 4 ≤ a) → t.byte a = s.byte a

/-- `c` is the entry at the head of ring `r`, its turn has come (R305), the chip is not stopped, and it carries opcode `op`
and passes checks 1 and 2 of Table 11.3 (R292). -/
abbrev Ready (s : State) (r : Ring) (op : Nat) (c : Cmd) : Prop :=
  Awake s ∧ headEntry s r = some c ∧ s.cmd c.id = some c ∧ c.opcode = op ∧ myTurn s c = true ∧ s.fatal = false ∧ opcodeAllowed s c = true ∧
    badHeader s c = none

/-- The command stands in phase `ph`. -/
def Stands (c : Cmd) (ph : Phase) (t : State) : Prop := ∃ d, t.cmd c.id = some d ∧ d.phase = ph

/-- The command has committed with a status and DETAIL. -/
def Committed (c : Cmd) (status detail : Nat) (t : State) : Prop :=
  ∃ d, t.cmd c.id = some d ∧ d.phase = .committed ∧ d.status = status ∧ d.detail = detail

/-- Only the registers of the list may differ: every other register, and everything outside the register map, is the same. -/
def SameButRegs (l : List Nat) (s t : State) : Prop := t = { s with regs := t.regs } ∧ ∀ a, a ∉ l → t.reg a = s.reg a

/-- A register with no effect of its own: a write changes its fields and does nothing else. -/
def PlainReg (u : Nat) : Prop :=
  (∀ n, rgnOf u = some n → u ∉ [Reg.SEQ_CTRL n, Reg.CMD_CQ_MOD n, Reg.FOLD_MBX_CMD n, Reg.FAB_PORT_CFG n, Reg.SYNC_FORCE n, Reg.CTX_LOAD n,
      Reg.CTX_FLUSH n, Reg.SCAN_CTRL n, Reg.SCAN_DATA n] ∧ (u < rgnBase n + 0x20000 ∨ rgnBase n + 0x20060 ≤ u)) ∧
  (rgnOf u = none → u ∉ [Reg.FAB_CHIP_ID, Reg.PWR_RM_KICK, Reg.FLT_RING_CFG, Reg.FLT_RING_PTR, Reg.FLT_ACK, Reg.ERR_PIN_CTRL, Reg.TAHR_MBX_CMD,
      Reg.TAITH_WIN_BASE, Reg.TAITH_RESUME, Reg.BOOT_CTRL, Reg.BOOT_IMG_CTRL, Reg.BOOT_RGN_CFG, Reg.MGT_CQ_MOD] ∧
    (u < 0x20100 ∨ 0x20500 ≤ u) ∧ (u < 0x20800 ∨ 0x20C80 ≤ u) ∧ (u < 0x31000 ∨ 0x33000 ≤ u) ∧ (u < 0x60100 ∨ 0x60160 ≤ u) ∧
    (u < 0x70000 ∨ 0x70400 ≤ u))

/-- What one write of `v` leaves in a register's fields (R446): RW fields take the value, W1S and W1C fields act on their 1 bits. -/
def fieldsAfter (fs : List Fld) (old v : Word) : Word :=
  ((old &&& ~~~ accMask .rw fs) ||| (v &&& accMask .rw fs) ||| (v &&& accMask .w1s fs)) &&& ~~~ (v &&& accMask .w1c fs)

/-- Only the cells of region `n` whose index the predicate allows may differ in the array and in the register map. -/
def SameOutsideCells (n : Rgn) (p : Nat → Prop) (s t : State) : Prop :=
  ∀ m c, c < 576 → (m ≠ n ∨ ¬ p c) → t.cell m.val c = s.cell m.val c

/-- Every byte of memory reads as before. -/
def SameBytes (s t : State) : Prop := ∀ a, t.byte a = s.byte a

/-- No token waits at a cell's inputs, none of its micro-ops' outputs waits, no copy is half made, and no
word of it has bad check bits. -/
def QuietCell (c : Cell) : Prop :=
  (∀ q ∈ c.vin.toList, q = []) ∧ (∀ q ∈ c.sin.toList, q = []) ∧ (∀ q ∈ c.cin.toList, q = []) ∧ c.outPend = [] ∧ c.chk = [] ∧
    c.accepted = []

/-- Only cell `ix` of region `n` may differ in the array, only the slot states of the region among the registers, and no byte
of memory. -/
def SameOutsideCell (n : Rgn) (ix : Nat) (s t : State) : Prop :=
  SameOutsideCells n (fun c => c = ix) s t ∧ SameRegsBut [Reg.CTX_SLOT_STATE n] s t ∧ SameBytes s t

/-- The micro-op at the program counter of a slot is well formed, has operation `op`, and may issue in a quiet cell. -/
def MayIssue (s : State) (n : Rgn) (ix : CellIx) (sl : Slot) (op : Nat) : Prop :=
  let c := s.cell n.val ix.val
  let u := uopAt c sl.val
  Awake s ∧ QuietCell c ∧ uopBad c sl.val = false ∧ u.op = op ∧ mayIssue s n ix.val sl.val u = true

/-- It has taken every token that it names (R25). -/
def TokensTaken (x : SlotSt) (u : Uop) : Prop :=
  x.vtok.length = flitsA u + flitsB u ∧ (needsScalar u = true → x.stok.isSome = true)

/-- A micro-op that may issue and takes no token. -/
def MayFire (s : State) (n : Rgn) (ix : CellIx) (sl : Slot) (op : Nat) : Prop :=
  let c := s.cell n.val ix.val
  MayIssue s n ix sl op ∧ (c.slot sl.val).vtok = [] ∧ flitsA (uopAt c sl.val) + flitsB (uopAt c sl.val) = 0 ∧
    needsScalar (uopAt c sl.val) = false

/-- No operand or result of the micro-op is a stream of the cell store, or the cell has no retired granule (R58). -/
def NoRetired (s : State) (n : Rgn) (ix : CellIx) (u : Uop) : Prop :=
  retired s n.val ix.val = [] ∨ (u.ak ≠ 1 ∧ u.bk ≠ 1 ∧ u.dk ≠ 1)

/-- Does the micro-op send vector flits, or scalar tokens? -/
def sendsFlits (u : Uop) : Bool := writesD u.op && u.dk == 2
def sendsTokens (u : Uop) : Bool := u.op == opFlags || u.op == opSummary || (writesD u.op && u.dk == 3 && u.d == 2)

/-- The local input of the slot leads to outputs that are all open, or its tokens wait to be steered (R92, R118). -/
def LocalOpen (s : State) (n : Rgn) (ix : CellIx) (x : SlotSt) (pl : Plane) : Prop :=
  (pl = .vector ∧ x.steers = true ∧ (x.aIn = 8 ∨ x.bIn = 8)) ∨
  (routeSet (routeEntry x pl (localPort pl)) ≠ 0 ∧ ∀ o, (routeSet (routeEntry x pl (localPort pl))).testBit o = true →
    ∀ cause, outTo s n ix.val pl o ≠ .closed cause)

/-- The outputs of the micro-op have somewhere to go. -/
def OutputsOpen (s : State) (n : Rgn) (ix : CellIx) (sl : Slot) (u : Uop) : Prop :=
  let x := (s.cell n.val ix.val).slot sl.val
  (sendsFlits u = true → LocalOpen s n ix x .vector) ∧ (sendsTokens u = true → LocalOpen s n ix x .scalar)

/-- The low 32 bits of a register of a cell. -/
def lane0Of (c : Cell) (r : Nat) : BitVec 32 := (Assoc.get zeroWord c.regs r).truncate 32

/-- A message with these header fields and body has been given to port `n`'s link on the circuit of `m`, in answer to it: each
of its flits has gone out since `s`, or waits for a credit (R340 to R342, R350). -/
def Sends (n : Rgn) (m : AxMsg) (ty cause arg : Nat) (body : List Byte) (s t : State) : Prop :=
  let b := axBytes ty cause m.reqId.toNat m.tag.toNat arg 0 body
  ∀ g ∈ cutFlits (onResponse ty) m.circuit.val (flitsFor b.length) b,
    ∃ f, (f ∈ (t.rgn n).port.sent.drop (s.rgn n).port.sent.length ∨ f ∈ (t.rgn n).port.waiting) ∧
      f.payload = g.payload ∧ f.circuit = g.circuit ∧ f.response = g.response

/-- The tile request that a response on the circuit of `m` answers stands, on a bound circuit of the peer, under an open link. -/
abbrev Answered (n : Rgn) (m : AxMsg) (q : Req) (s : State) : Prop :=
  Awake s ∧ linkOpen s n = true ∧ onBound s n m = true ∧ helloAsk s n m = none ∧ q.killed = false ∧
    (s.rgn n).reqs.find? (fun x => x.remote == some (m.circuit.val, m.reqId.toNat)) = some q

/-- A message of the device with this type, tag, ARG and data has gone out on Taith since `s`, or waits for a credit (R329, R331). -/
def Tells (ty : BitVec 8) (tag : BitVec 16) (arg : Byte) (data : List Byte) (s t : State) : Prop :=
  ∃ m, (m ∈ t.taith.sent.drop s.taith.sent.length ∨ m ∈ t.taith.waiting) ∧ m.type = ty ∧ m.tag = tag ∧ m.arg = arg ∧ m.data = data

/-- The device is awake and its Taith link is up and not lost. -/
abbrev Linked (s : State) : Prop := Awake s ∧ linkPresent s = true ∧ linkLost s = false

/-- A warm reset has happened between `s` and `t`: only the fold tier, the fused values, local time, the sampled straps and the
counters that R368 lists are kept. -/
def WarmReset (s t : State) : Prop :=
  t.chipStage = 0 ∧ t.now = s.now ∧ t.boot.start = s.now ∧ t.cmds = [] ∧ t.pins.porN = true ∧
    t.fld Reg.BOOT_STATUS Reg.BOOT_STATUS_WARM_RESETS = min (s.fld Reg.BOOT_STATUS Reg.BOOT_STATUS_WARM_RESETS + 1) 65535 ∧
    t.fld Reg.BOOT_STATUS Reg.BOOT_STATUS_SRC = s.fld Reg.BOOT_STATUS Reg.BOOT_STATUS_SRC ∧
    t.fld Reg.BOOT_STATUS Reg.BOOT_STATUS_RECOVER = s.fld Reg.BOOT_STATUS Reg.BOOT_STATUS_RECOVER ∧
    t.sec.counter = s.sec.counter ∧ t.sec.revoke = s.sec.revoke ∧ t.sec.flash = s.sec.flash ∧ t.sec.current = s.sec.current ∧
    (∀ a, a / 2 ^ 60 ≠ 2 → t.byte a = 0) ∧ ∀ a, a / 2 ^ 60 = 2 → t.byte a = s.byte a

/-- A start has failed (R377): REASON, one more attempt, and a warm reset. -/
def StartFailed (reason : Nat) (s t : State) : Prop :=
  WarmReset s t ∧ t.fld Reg.BOOT_STATUS Reg.BOOT_STATUS_ATTEMPTS = min (s.fld Reg.BOOT_STATUS Reg.BOOT_STATUS_ATTEMPTS + 1) 3 ∧
    (s.flag Reg.BOOT_STATUS Reg.BOOT_STATUS_RECOVER = false → t.fld Reg.BOOT_STATUS Reg.BOOT_STATUS_REASON = reason % 256)

/-- Memory is in its canonical form: rising addresses, no listed zero. -/
def MemCanonical (s : State) : Prop := Memory.wf s.mem = true

/-- The register file is in its canonical form: rising addresses, no listed reset value. -/
def RegsCanonical (s : State) : Prop := Assoc.wf regReset s.regs = true

end Sys2Proof
end

