-- ==== Sys2Proof/Certificates/Slice0/Obligations.lean ====
section
/-!
DEFINITION. The statements for the provers.
-/

open Sys2Proof Sys2Proof.Machine

/-! ### The queue and the whole machine -/

/-- A step runs the command at the front of the queue. A step of a state with the command c at the front of its queue
is exec of c on the state with the queue's rest. (01_device.md) -/
def Obligations.FrontCommandRuns : Prop :=
  ∀ (c : Instr) (rest : List Instr) (s : State), s.pending = c :: rest → step s = exec c { s with pending := rest }

/-- A step on an empty queue lets one tick of local time pass. With no command waiting, a step adds one tick to local
time and changes nothing else, while POR_N is high and REFCLK_100M is there; otherwise it changes nothing. That an
idle step is one tick is the model's choice (log entry 3). (01_device.md) -/
def Obligations.EmptyQueueTicks : Prop :=
  ∀ s : State, s.pending = [] →
    (s.pins.porN = true → s.pins.refclkLost = false → step s = .next { s with now := s.now + 1 }) ∧
    (s.pins.porN = false ∨ s.pins.refclkLost = true → step s = .next s)

/-- Held in reset by POR_N, the block keeps everything and runs no command until POR_N rises. Invariant of every step:
a block whose POR_N is low stays so, whatever command is in front, unless that command is POR_N_RISE; and a command
other than POR_N_RISE, POR_N_FALL and SUPPLY_FALL leaves every field of the state but the queue as it was. That a
command in this time has no effect is the model's reading of the asynchronous reset (log entry 16). (15_bringup.md) -/
def Obligations.PorHoldsEverything : Prop :=
  ∀ (s t : State), s.pins.porN = false → step s = .next t →
    (∀ boot recover testEn rest, s.pending ≠ .porNRise boot recover testEn :: rest) →
    t.pins.porN = false ∧
    (∀ c rest, s.pending = c :: rest → c ≠ .porNFall → c ≠ .supplyFall → t = { s with pending := rest })

/-- With TEST_EN high at the rise of POR_N the device stays at stage 0, serves nothing and answers no message. A rise
of POR_N with TEST_EN high puts the test hold in force and leaves the chip at stage 0. While the hold is in force and
POR_N is high, every command but POR_N_FALL and SUPPLY_FALL, a message of the companion too, leaves the whole state as
it was: the chip stays at its stage, nothing is served, and nothing is sent on Taith. (R457) -/
def Obligations.TestHoldServesNothing : Prop :=
  (∀ (boot recover : Bool) (s : State), s.pins.porN = false → s.chipStage = 0 →
    ∃ t, exec (.porNRise boot recover true) s = .next t ∧ t.boot.testHold = true ∧ t.pins.porN = true ∧ t.chipStage = 0 ∧
      t.taith = s.taith ∧ t.mem = s.mem) ∧
  (∀ (c : Instr) (s : State), s.pins.porN = true → s.boot.testHold = true → c ≠ .porNFall → c ≠ .supplyFall → exec c s = .next s)

/-- After the loss of REFCLK_100M no command has a stated effect until POR_N. With POR_N high, the reference clock
lost and no test hold, every command but POR_N_FALL, POR_N_RISE and SUPPLY_FALL ends in the fault refclkLost: the spec
leaves the behaviour open. A command that stops for this reason stops for no other, and no command is ever refused:
every command of a block that is awake (POR_N high, the clock present, no test hold) answers a next state.
(20_pins.md) -/
def Obligations.ClockLossStopsEveryCommand : Prop :=
  (∀ (c : Instr) (s : State), s.pins.porN = true → s.boot.testHold = false → s.pins.refclkLost = true →
    c ≠ .porNFall → c ≠ .supplyFall → (∀ a b d, c ≠ .porNRise a b d) → exec c s = .fault .refclkLost) ∧
  (∀ (c : Instr) (s : State), (∃ f, exec c s = .fault f) → s.pins.porN = true ∧ s.pins.refclkLost = true) ∧
  (∀ (c : Instr) (s : State) (r : Refusal), exec c s ≠ .refused r) ∧
  (∀ (c : Instr) (s : State), Awake s → ∃ t, exec c s = .next t)

/-- Memory and the register file are canonical at reset. State.reset lists no byte and no register, which is the
canonical form, its queue is empty, and POR_N is high with the reference clock running. (19_registers.md) -/
def Obligations.ResetIsCanonical : Prop :=
  State.reset.mem = [] ∧ State.reset.regs = [] ∧ MemCanonical State.reset ∧ RegsCanonical State.reset ∧ State.reset.pending = [] ∧ Awake State.reset

/-- Every step keeps memory and the register file in their canonical form. For every state whose memory and register
file list their entries at rising addresses and none that equals what an unlisted entry reads as, the next state of a
step has the same form, so that equal contents are equal data. (19_registers.md) -/
def Obligations.EveryStepKeepsCanonicalForms : Prop :=
  ∀ s t : State, MemCanonical s → RegsCanonical s → step s = .next t → MemCanonical t ∧ RegsCanonical t

/-- Registers hold the reset values of their tables. Right after reset these registers read as the Reset columns of
their tables give: CHIP_PART, CHIP_VENDOR, PWR_COOL_CFG, FLT_GRACE_2 to 4, TAITH_KA, TAITH_LOSS_CFG, ERR_PIN_CTRL,
FLT_RING_CFG, IRQ_Q_CFG_p, RGN_STALL_LIMIT and FAB_PORT_CFG of every region. (19_registers.md, 17_faults.md,
13_taith.md, 16_power.md) -/
def Obligations.ResetRegisterValues : Prop :=
  let r := State.reset.reg
  r Reg.CHIP_PART = 0x0000018000A11016 ∧ r Reg.CHIP_VENDOR = 0x13634 ∧ r Reg.PWR_COOL_CFG = 0xAA ∧
  r (Reg.FLT_GRACE 0) = 0x1000F4240 ∧ r (Reg.FLT_GRACE 1) = 0x100989680 ∧ r (Reg.FLT_GRACE 2) = 0x5F5E100 ∧
  r Reg.TAITH_KA = 0x3E800002710 ∧ r Reg.TAITH_LOSS_CFG = 0x36EE800BEBC200 ∧ r Reg.ERR_PIN_CTRL = 0x14 ∧
  r Reg.FLT_RING_CFG = 0x80 ∧ (∀ p : Fin 36, r (Reg.IRQ_Q_CFG p.val) = 4) ∧
  (∀ n : Rgn, r (Reg.RGN_STALL_LIMIT n) = 0x989680 ∧ r (Reg.FAB_PORT_CFG n) = 0x271003E80001)

/-! ### Faults and interrupts (17_faults.md) -/

/-- FLT_ACK clears PENDING, EFF and ESCALATED of its source and stops its grace timer. A write of FLT_ACK with GO set
that passes the access check ends in a next state in which FLT_SRC_STAT of the source reads PENDING, EFF and ESCALATED
0 with its other fields as before, the source has no grace timer and every other timer runs on; only FLT_STATUS and
ERR_PIN_CTRL may differ beside it, and the rest of the machine is as before. At the address of FLT_ACK the source is
SOURCE, at the alias of region n it is 64 + 60n + SOURCE. Without GO nothing changes. (R408, R454) -/
def Obligations.FltAckClears : Prop :=
  ∀ (who : Requester) (addr src : Nat) (v : Word) (s : State), Writes who addr v s →
    (addr = Reg.FLT_ACK ∧ src = Reg.FLT_ACK_SOURCE.get v ∨
      ∃ n : Rgn, addr = rgnBase n + 0x80008 ∧ src = 64 + 60 * n.val + Reg.FLT_ACK_SOURCE.get v) →
    (Reg.FLT_ACK_GO.get v = 1 → ∃ t, exec (.fltAck who addr v) s = .next t ∧
      t.reg (Reg.FLT_SRC_STAT src) = Reg.FLT_SRC_STAT_ESCALATED.put (Reg.FLT_SRC_STAT_EFF.put
        (Reg.FLT_SRC_STAT_PENDING.put (s.reg (Reg.FLT_SRC_STAT src)) 0) 0) 0 ∧
      (∀ g, g ∈ t.flt.grace ↔ g ∈ s.flt.grace ∧ g.source ≠ src) ∧
      SameRegsBut [Reg.FLT_SRC_STAT src, Reg.FLT_STATUS, Reg.ERR_PIN_CTRL] s t ∧ SameMachine s t) ∧
    (Reg.FLT_ACK_GO.get v = 0 → exec (.fltAck who addr v) s = .next s)

/-- A report takes the next serial, is counted, and acts by its severity. FAULT_REPORT of a listed source whose domain
is on completes. At severity 0 the report takes NEXT_SERIAL, COUNT and LAST_SERIAL follow, and no record is written.
At severity 1 or 2, with room in the fault ring and no kept record of the source, its 64-byte record also stands at
the ring's TAIL and no other byte of memory differs. At severity 2 the source is pending too, in FLT_SRC_STAT and in
the interrupt controller. (17_faults.md) -/
def Obligations.ReportIsTaken : Prop :=
  ∀ (src : Fin 1024) (info : FaultInfo) (s : State), Awake s → srcListed src.val = true → srcOff s src.val = false →
    let st := Reg.FLT_SRC_STAT src.val
    let serial := s.fld Reg.FLT_STATUS Reg.FLT_STATUS_NEXT_SERIAL
    let counted := fun (t : State) => t.fld Reg.FLT_STATUS Reg.FLT_STATUS_NEXT_SERIAL = (serial + 1) % 2 ^ 32 ∧
      t.fld st Reg.FLT_SRC_STAT_COUNT = min (s.fld st Reg.FLT_SRC_STAT_COUNT + 1) 255 ∧
      t.fld st Reg.FLT_SRC_STAT_LAST_SERIAL = serial
    let at_ := herdAddr (ringRgn s) (4096 * s.fld Reg.FLT_RING_CFG Reg.FLT_RING_CFG_BASE +
      64 * s.fld Reg.FLT_RING_PTR Reg.FLT_RING_PTR_TAIL)
    (s.sev src.val = 0 → ∃ t, exec (.faultReport src info) s = .next t ∧ counted t ∧ SameMachine s t ∧
      SameRegsBut [Reg.FLT_STATUS, st, Reg.ERR_PIN_CTRL] s t) ∧
    (s.sev src.val = 1 ∨ s.sev src.val = 2 → ringRoom s = true → (∀ x ∈ s.flt.kept, x.source ≠ src.val) →
      ∃ t, exec (.faultReport src info) s = .next t ∧ counted t ∧ SameBytesBut at_ 64 s t ∧
        Holds t at_ ((mkReport src.val (s.sev src.val) false false false info s).bytes
          (s.flag Reg.FLT_RING_PTR Reg.FLT_RING_PTR_PHASE) false) ∧
        (s.sev src.val = 2 → t.flag st Reg.FLT_SRC_STAT_PENDING = true ∧ t.irqPending src.val = true ∧
          t.flag Reg.FLT_STATUS Reg.FLT_STATUS_ANY_PENDING = true ∧ t.flt.grace.any (fun g => g.source == src.val) = true))

/-- A source marked fixed keeps its severity, and its PIN bit stays writable. A write of FLT_SRC_SEV of a source with
FIXED = 1 leaves its SEV field as it was and sets PIN to the bit written; of a listed source with FIXED = 0 it sets
both. Without FORCE no other register but ERR_PIN_CTRL differs. (17_faults.md) -/
def Obligations.FixedSourceKeepsItsSeverity : Prop :=
  ∀ (who : Requester) (src : Fin 1024) (v : Word) (s : State), Writes who (Reg.FLT_SRC_SEV src.val) v s →
    srcListed src.val = true → Reg.FLT_SRC_SEV_FORCE.get v = 0 →
    let a := Reg.FLT_SRC_SEV src.val
    ∃ t, exec (.force who a v) s = .next t ∧
      t.fld a Reg.FLT_SRC_SEV_SEV =
        (if s.flag a Reg.FLT_SRC_SEV_FIXED then s.fld a Reg.FLT_SRC_SEV_SEV else Reg.FLT_SRC_SEV_SEV.get v) ∧
      t.fld a Reg.FLT_SRC_SEV_PIN = Reg.FLT_SRC_SEV_PIN.get v ∧
      t.fld a Reg.FLT_SRC_SEV_FIXED = s.fld a Reg.FLT_SRC_SEV_FIXED ∧
      SameRegsBut [a, Reg.ERR_PIN_CTRL] s t ∧ SameMachine s t

/-- FORCE makes one report whose record has FORCED set. A write of FORCE = 1 to FLT_SRC_SEV of a listed source that is
not fixed, whose domain is on, with SEV 1, PIN 0, room in the fault ring and no kept record of the source: COUNT rises
by one, the severity is the one written, and byte 6 of the record at TAIL has bit 7, FORCED, set. (R410) -/
def Obligations.ForcedReportIsMarked : Prop :=
  ∀ (who : Requester) (src : Fin 1024) (v : Word) (s : State), Writes who (Reg.FLT_SRC_SEV src.val) v s →
    srcListed src.val = true → srcOff s src.val = false → s.flag (Reg.FLT_SRC_SEV src.val) Reg.FLT_SRC_SEV_FIXED = false →
    Reg.FLT_SRC_SEV_FORCE.get v = 1 → Reg.FLT_SRC_SEV_SEV.get v = 1 → Reg.FLT_SRC_SEV_PIN.get v = 0 →
    ringRoom s = true → (∀ x ∈ s.flt.kept, x.source ≠ src.val) →
    ∃ t, exec (.force who (Reg.FLT_SRC_SEV src.val) v) s = .next t ∧ t.sev src.val = 1 ∧
      t.fld (Reg.FLT_SRC_STAT src.val) Reg.FLT_SRC_STAT_COUNT =
        min (s.fld (Reg.FLT_SRC_STAT src.val) Reg.FLT_SRC_STAT_COUNT + 1) 255 ∧
      (t.byte (herdAddr (ringRgn s) (4096 * s.fld Reg.FLT_RING_CFG Reg.FLT_RING_CFG_BASE +
        64 * s.fld Reg.FLT_RING_PTR Reg.FLT_RING_PTR_TAIL) + 6)).getLsbD 7 = true

/-- Grace timers, the ERR_N pulse, the fault ring and the kept store act as their rules say. GRACE_EXPIRY of a due
timer of a pending source stops the timer; without ESC nothing else changes, with ESC a chip source at EFF 2 or 3,
with room in the ring and nothing kept, escalates by one and is marked ESCALATED. ERR_PULSE_END after the pulse gives
ERR_N the level of MODE. FLT_RING_CFG's enable sets HEAD and TAIL to 0 and PHASE to 1; with SIZE outside 8 to 16 it
leaves ENABLE 0. KEPT_DRAIN with room writes the first kept record of the lowest source, KEPT set, at TAIL.
(17_faults.md) -/
def Obligations.FaultUnitCommandsComplete : Prop :=
  (∀ (src : Fin 1024) (g : Grace) (s : State), Awake s → s.flt.grace.find? (fun x => x.source == src.val) = some g →
    g.start + graceTicks s g.cls ≤ s.now → s.flag (Reg.FLT_SRC_STAT src.val) Reg.FLT_SRC_STAT_PENDING = true →
    (s.flag (Reg.FLT_GRACE (g.cls - 2)) Reg.FLT_GRACE_ESC = false → ∃ t, exec (.graceExpiry src) s = .next t ∧
      t = { s with flt := { s.flt with grace := t.flt.grace } } ∧
      ∀ x, x ∈ t.flt.grace ↔ x ∈ s.flt.grace ∧ x.source ≠ src.val) ∧
    (s.flag (Reg.FLT_GRACE (g.cls - 2)) Reg.FLT_GRACE_ESC = true → src.val < 64 → ringRoom s = true → s.flt.kept = [] →
      let e := s.fld (Reg.FLT_SRC_STAT src.val) Reg.FLT_SRC_STAT_EFF
      e = 2 ∨ e = 3 → ∃ t, exec (.graceExpiry src) s = .next t ∧
        t.fld (Reg.FLT_SRC_STAT src.val) Reg.FLT_SRC_STAT_EFF = e + 1 ∧
        t.flag (Reg.FLT_SRC_STAT src.val) Reg.FLT_SRC_STAT_ESCALATED = true)) ∧
  (∀ (s : State) (u : Nat), Awake s → s.flt.pulseEnd = some u → u ≤ s.now → s.fatal = false →
    ∃ t, exec .errPulseEnd s = .next t ∧ t.flt.pulseEnd = none ∧ t.pins.errN = errLevel s ∧
      t.flag Reg.ERR_PIN_CTRL Reg.ERR_PIN_CTRL_PULSE = false ∧ t.flag Reg.ERR_PIN_CTRL Reg.ERR_PIN_CTRL_PIN = errLevel s ∧
      SameRegsBut [Reg.ERR_PIN_CTRL] s t) ∧
  (∀ (who : Requester) (v : Word) (s : State), Writes who Reg.FLT_RING_CFG v s →
    s.flag Reg.FLT_RING_CFG Reg.FLT_RING_CFG_ENABLE = false → Reg.FLT_RING_CFG_ENABLE.get v = 1 →
    let size := Reg.FLT_RING_CFG_SIZE.get v
    let n : Rgn := Fin.ofNat 16 (Reg.FLT_RING_CFG_REGION.get v)
    (8 ≤ size → size ≤ 16 → 3 ≤ s.stage n → 4096 * Reg.FLT_RING_CFG_BASE.get v + 64 * 2 ^ size ≤ 0x400000 →
      ∃ t, exec (.fltRingCfg who v) s = .next t ∧ ringEnabled t = true ∧ ringSize t = 2 ^ size ∧ ringRgn t = n ∧
        ringUsed t = 0 ∧ t.fld Reg.FLT_RING_PTR Reg.FLT_RING_PTR_TAIL = 0 ∧
        t.flag Reg.FLT_RING_PTR Reg.FLT_RING_PTR_PHASE = true ∧ SameRegsBut [Reg.FLT_RING_CFG, Reg.FLT_RING_PTR] s t) ∧
    (size < 8 ∨ 16 < size → ∃ t, exec (.fltRingCfg who v) s = .next t ∧ ringEnabled t = false ∧
      SameButRegs [Reg.FLT_RING_CFG] s t)) ∧
  (∀ (s : State) (x : Kept), Awake s → lowestKept s.flt.kept = some x → ringRoom s = true →
    (∀ y ∈ s.flt.kept, x.source ≤ y.source) ∧
    ∃ t, exec .keptDrain s = .next t ∧
      Holds t (herdAddr (ringRgn s) (4096 * s.fld Reg.FLT_RING_CFG Reg.FLT_RING_CFG_BASE +
        64 * s.fld Reg.FLT_RING_PTR Reg.FLT_RING_PTR_TAIL))
        (x.first.bytes (s.flag Reg.FLT_RING_PTR Reg.FLT_RING_PTR_PHASE) true) ∧
      t.flt.kept.filter (fun y => y.source == x.source) = match x.last with | none => [] | some l => [⟨x.source, l, none⟩])

/-- Enable and pending bits change through separate set and clear addresses. IRQ_EN_SET sets exactly the bits written
and IRQ_EN_CLR clears exactly those; both addresses then read the same word and nothing else differs. IRQ_PEND_SET
makes each listed source whose bit is written pending and leaves other pending bits; a source that was not pending
before has ARRIVALS 0. IRQ_PEND_CLR clears exactly the bits written and drops their raises. (R422) -/
def Obligations.InterruptWordsSetAndClear : Prop :=
  ∀ (who : Requester) (w : Fin 20) (v : Word) (s : State),
    (Writes who (Reg.IRQ_EN_SET w.val) v s → ∃ t, exec (.irqEnSet who w v) s = .next t ∧
      t.reg (Reg.IRQ_EN_SET w.val) = s.reg (Reg.IRQ_EN_SET w.val) ||| v ∧
      t.reg (Reg.IRQ_EN_CLR w.val) = t.reg (Reg.IRQ_EN_SET w.val) ∧
      SameButRegs [Reg.IRQ_EN_SET w.val, Reg.IRQ_EN_CLR w.val] s t) ∧
    (Writes who (Reg.IRQ_EN_CLR w.val) v s → ∃ t, exec (.irqEnClr who w v) s = .next t ∧
      t.reg (Reg.IRQ_EN_SET w.val) = s.reg (Reg.IRQ_EN_SET w.val) &&& ~~~ v ∧
      t.reg (Reg.IRQ_EN_CLR w.val) = t.reg (Reg.IRQ_EN_SET w.val) ∧
      SameButRegs [Reg.IRQ_EN_SET w.val, Reg.IRQ_EN_CLR w.val] s t) ∧
    (Writes who (Reg.IRQ_PEND_SET w.val) v s → ∃ t, exec (.irqPendSet who w v) s = .next t ∧
      (∀ b : Fin 64, t.irqPending (64 * w.val + b.val) =
        (s.irqPending (64 * w.val + b.val) || (v.getLsbD b.val && irqListed (64 * w.val + b.val)))) ∧
      (∀ b : Fin 64, v.getLsbD b.val = true → irqListed (64 * w.val + b.val) = true →
        s.irqPending (64 * w.val + b.val) = false → (∀ r ∈ s.flt.raises, r.source ≠ 64 * w.val + b.val) →
        ∃ r ∈ t.flt.raises, r.source = 64 * w.val + b.val ∧ r.arrivals = 0) ∧
      SameRegsBut [Reg.IRQ_PEND_SET w.val, Reg.IRQ_PEND_CLR w.val] s t ∧ SameMachine s t) ∧
    (Writes who (Reg.IRQ_PEND_CLR w.val) v s → ∃ t, exec (.irqPendClr who w v) s = .next t ∧
      t.reg (Reg.IRQ_PEND_SET w.val) = s.reg (Reg.IRQ_PEND_SET w.val) &&& ~~~ v ∧
      (∀ r, r ∈ t.flt.raises ↔ r ∈ s.flt.raises ∧ ¬ (r.source / 64 = w.val ∧ v.getLsbD (r.source % 64) = true)) ∧
      SameRegsBut [Reg.IRQ_PEND_SET w.val, Reg.IRQ_PEND_CLR w.val] s t ∧ SameMachine s t)

/-- An event record is that of the eligible source of highest priority. EVENT_DELIVERY to a control core whose queue
is enabled and has room takes an eligible source of highest priority, ties going to the lower number: its 16-byte
record stands at the queue's TAIL, its pending bit is cleared, TAIL advances, and no other byte of memory differs.
With no eligible source, or no room, nothing changes. (17_faults.md) -/
def Obligations.HighestPrioritySourceIsDelivered : Prop :=
  ∀ (p : Fin 36) (s : State), Awake s → p.val ≠ 35 →
    (∀ r, qRoom s p.val = true → bestSource s p.val s.flt.raises = some r → r.source < 1280 →
      (r ∈ s.flt.raises ∧ eligible s p.val r.source = true ∧ ∀ q ∈ s.flt.raises, eligible s p.val q.source = true →
        srcPrio s q.source < srcPrio s r.source ∨ srcPrio s q.source = srcPrio s r.source ∧ r.source ≤ q.source) ∧
      ∃ t, exec (.eventDelivery p) s = .next t ∧
        Holds t (qAddr s p.val (s.fld (Reg.IRQ_Q_PTR p.val) Reg.IRQ_Q_PTR_TAIL))
          (eventBytes s r (s.flag (Reg.IRQ_Q_PTR p.val) Reg.IRQ_Q_PTR_PHASE)) ∧
        SameBytesBut (qAddr s p.val (s.fld (Reg.IRQ_Q_PTR p.val) Reg.IRQ_Q_PTR_TAIL)) 16 s t ∧
        t.irqPending r.source = false ∧
        t.fld (Reg.IRQ_Q_PTR p.val) Reg.IRQ_Q_PTR_TAIL =
          (s.fld (Reg.IRQ_Q_PTR p.val) Reg.IRQ_Q_PTR_TAIL + 1) % qSize s p.val % 4096) ∧
    (qRoom s p.val = false ∨ bestSource s p.val s.flt.raises = none → exec (.eventDelivery p) s = .next s)

/-- A processor is interrupted by count, idleness or time, and its queue is set up as R419 says. PROCESSOR_INTERRUPT
of a control core raises its interrupt when the records not yet covered have reached max(1, COUNT), or one waits and
the processor is idle; IRQ_MOD_EXPIRY when the oldest of them has waited TICKS: the records are then covered. For the
companion the same clears IDLE. IRQ_Q_CFG's ENABLE from 0 to 1 sets HEAD and TAIL to 0 and PHASE to 1 with SIZE 4 to
12 and is refused otherwise; a write of ENABLE = 1 to an enabled queue changes nothing. (17_faults.md) -/
def Obligations.ProcessorInterruptsAndQueues : Prop :=
  (∀ (p : Fin 36) (s : State), Awake s → uncovered s p.val ≠ [] → irqReachable s p.val = true →
    let done := fun (c : Instr) => ∃ t, exec c s = .next t ∧ t.flt.queues[p].uncovered = [] ∧
      t.flt.queues[p].raised = s.flt.queues[p].raised + 1 ∧ SameBytes s t ∧
      (if p.val = 35 then t.flag (Reg.IRQ_Q_CTRL 35) Reg.IRQ_Q_CTRL_IDLE = false else SameMachine s t ∧ SameRegsBut [] s t)
    (max 1 (s.fld (Reg.IRQ_Q_MOD p.val) Reg.IRQ_Q_MOD_COUNT) ≤ (uncovered s p.val).length → done (.processorInterrupt p)) ∧
    (s.flag (Reg.IRQ_Q_CTRL p.val) Reg.IRQ_Q_CTRL_IDLE = true → done (.processorInterrupt p)) ∧
    (∀ u us, uncovered s p.val = u :: us → u + s.fld (Reg.IRQ_Q_MOD p.val) Reg.IRQ_Q_MOD_TICKS ≤ s.now →
      done (.irqModExpiry p))) ∧
  (∀ (who : Requester) (p : Fin 36) (v : Word) (s : State), Writes who (Reg.IRQ_Q_CFG p.val) v s →
    Reg.IRQ_Q_CFG_ENABLE.get v = 1 →
    let size := Reg.IRQ_Q_CFG_SIZE.get v
    (s.flag (Reg.IRQ_Q_CFG p.val) Reg.IRQ_Q_CFG_ENABLE = true → exec (.irqQCfg who p v) s = .next s) ∧
    (s.flag (Reg.IRQ_Q_CFG p.val) Reg.IRQ_Q_CFG_ENABLE = false → 4 ≤ size → size ≤ 12 →
      ∃ t, exec (.irqQCfg who p v) s = .next t ∧ t.flag (Reg.IRQ_Q_CFG p.val) Reg.IRQ_Q_CFG_ENABLE = true ∧
        qSize t p.val = 2 ^ size ∧ qUsed t p.val = 0 ∧ t.fld (Reg.IRQ_Q_PTR p.val) Reg.IRQ_Q_PTR_TAIL = 0 ∧
        t.flag (Reg.IRQ_Q_PTR p.val) Reg.IRQ_Q_PTR_PHASE = true ∧
        SameRegsBut [Reg.IRQ_Q_CFG p.val, Reg.IRQ_Q_PTR p.val] s t ∧ SameMachine s t) ∧
    (s.flag (Reg.IRQ_Q_CFG p.val) Reg.IRQ_Q_CFG_ENABLE = false → size < 4 ∨ 12 < size →
      ∃ t, exec (.irqQCfg who p v) s = .next t ∧ t.flag (Reg.IRQ_Q_CFG p.val) Reg.IRQ_Q_CFG_ENABLE = false ∧
        SameButRegs [Reg.IRQ_Q_CFG p.val] s t))

/-! ### Rings and commands (11_commands.md) -/

/-- A write of TAIL below the ring size is the doorbell; any other sets DB_ERR only. A write of a submission ring's
TAIL whose INDEX is below the ring size sets TAIL, shows the entries pending, lets the ring fetch again after a failed
fetch, and in a partition's ring raises the doorbell event of the lead region; no command, no byte of memory and no
session differs. An INDEX at or above the size sets DB_ERR and changes nothing else. (R280) -/
def Obligations.DoorbellMovesTail : Prop :=
  ∀ (who : Requester) (r : Ring) (o : RingOwner) (k : Nat) (v : Word) (s : State), submission s r = some (o, k) →
    let g := ringRegs o k
    let i := Reg.CMD_RING_TAIL_INDEX.get v
    Writes who g.tail v s →
    (i < rSize s g → ∃ t, exec (.doorbell who r v) s = .next t ∧ t.fld g.tail Reg.CMD_RING_TAIL_INDEX = i ∧
      t.fld g.stat Reg.CMD_RING_STAT_PENDING = (i + rSize s g - rHead s g) % rSize s g % 2 ^ Reg.CMD_RING_STAT_PENDING.w ∧
      fetchStopped t r = false ∧ t.cmds = s.cmds ∧ t.mem = s.mem ∧
      (∀ n, o = .rgn n → t.irqPending (evRgn n.val 2) = true) ∧ (∀ p, (t.part p).sessions = (s.part p).sessions)) ∧
    (rSize s g ≤ i → ∃ t, exec (.doorbell who r v) s = .next t ∧ t.flag g.stat Reg.CMD_RING_STAT_DB_ERR = true ∧
      t.fld g.tail Reg.CMD_RING_TAIL_INDEX = s.fld g.tail Reg.CMD_RING_TAIL_INDEX ∧ SameButRegs [g.stat] s t)

/-- A fetch takes the entry at HEAD and advances HEAD. When the ring owner may fetch, the 64 bytes at HEAD become the
newest entry of the command table, waiting for its checks, and HEAD moves to the next entry: for a ring in the herd
tier whose line is not poisoned, and for a ring in the coherent window whose line the queue cache holds. A poisoned
line and a timeout fail the fetch instead (R281): HEAD stays, FETCH_ERR is set, and the ring fetches no more until its
next doorbell. HELD_ENTRY_RELEASE re-evaluates why the head entry is held and changes nothing beyond the two fields
that show it. (R280, R283, R286) -/
def Obligations.EntryFetchTakesTheHead : Prop :=
  (∀ (r : Ring) (o : RingOwner) (k : Nat) (pkt : List Byte) (s : State), Awake s → submission s r = some (o, k) →
    mayFetch s r o k = true →
    let g := ringRegs o k
    let off := rBase s g + 64 * rHead s g
    ((rLoc s g = 1 ∧ ∃ n, o = .rgn n ∧ s.poison.contains (herdAddr n.val off / 64) = false ∧
        pkt = readPart s (ringPart r) n.val 2 off 64) ∨
      (rLoc s g = 0 ∧ lineAt true none s.taith (winBase s + off) = some pkt)) →
    ∃ t, exec (.entryFetch ⟨r, .ok⟩) s = .next t ∧ t.cmds = s.cmds ++ [newCmd s.nextId r pkt s.now] ∧ t.nextId = s.nextId + 1 ∧
      t.fld g.head Reg.CMD_RING_HEAD_INDEX = (rHead s g + 1) % rSize s g % 2 ^ Reg.CMD_RING_HEAD_INDEX.w ∧ t.mem = s.mem) ∧
  (∀ (r : Ring) (k : Nat) (n : Rgn) (out : ReadOutcome) (s : State), Awake s → submission s r = some (.rgn n, k) →
    mayFetch s r (.rgn n) k = true →
    let g := ringRegs (.rgn n) k
    let off := rBase s g + 64 * rHead s g
    rLoc s g = 1 → s.poison.contains (herdAddr n.val off / 64) = false → out = .timeout → s.sev (rgnSrc n.val 41) = 0 →
    ∃ t, exec (.entryFetch ⟨r, out⟩) s = .next t ∧ t.cmds = s.cmds ∧ fetchStopped t r = true ∧
      t.flag g.stat Reg.CMD_RING_STAT_FETCH_ERR = true ∧ rHead t g = rHead s g) ∧
  (∀ (r : Ring) (o : RingOwner) (k : Nat) (c : Cmd) (s : State), Awake s → submission s r = some (o, k) →
    headEntry s r = some c → isHeld s r = true →
    ∃ t, exec (.heldEntryRelease r) s = .next t ∧ t.flag (ringRegs o k).stat Reg.CMD_RING_STAT_HELD = (holdReason s c != 0) ∧
      t.fld (ringRegs o k).stat Reg.CMD_RING_STAT_HOLD_REASON = holdReason s c ∧ SameButRegs [(ringRegs o k).stat] s t)

/-- Enabling a ring sets HEAD and TAIL to 0; an invalid place or size is refused. A write of CMD_RING_CFG or
MGT_RING_CFG with ENABLE = 1 to a ring that is not enabled: with a valid LOC, SIZE and BASE it enables the ring with
HEAD and TAIL 0, and PHASE 1 in a completion ring with no record waiting to be replayed; with an invalid one it leaves
ENABLE 0 and sets CFG_ERR, and a partition's ring reports its region's source 41. A write that would change LOC, SIZE
or BASE of an enabled ring is dropped. (R279, R285) -/
def Obligations.RingEnableResetsIndices : Prop :=
  ∀ (who : Requester) (o : RingOwner) (k : Fin 3) (v : Word) (s : State), Writes who (ringRegs o k.val).cfg v s →
    let g := ringRegs o k.val
    let run := exec (.cmdRingCfg who o k v) s
    (rEnabled s g = false → Reg.CMD_RING_CFG_ENABLE.get v = 1 → ringCfgOk o k.val v s = true → s.minimal = false ∨ o = .mgmt →
      (k.val = 2 → (cqOf (ownerPart s o) s).shadow = []) →
      ∃ t, run = .next t ∧ rEnabled t g = true ∧ rHead t g = 0 ∧ rTail t g = 0 ∧ rSize t g = 2 ^ Reg.CMD_RING_CFG_SIZE.get v ∧
        rBase t g = 4096 * Reg.CMD_RING_CFG_BASE.get v ∧ (k.val = 2 → t.flag g.tail Reg.CMD_RING_TAIL_PHASE = true) ∧
        (k.val < 2 → SameButRegs [g.cfg, g.head, g.tail, g.stat] s t)) ∧
    (rEnabled s g = false → Reg.CMD_RING_CFG_ENABLE.get v = 1 → ringCfgOk o k.val v s = false → s.chipStage = 2 →
      ∃ t, run = .next t ∧ rEnabled t g = false ∧ t.flag g.stat Reg.CMD_RING_STAT_CFG_ERR = true ∧
        (o = .mgmt → SameButRegs [g.cfg, g.stat] s t) ∧
        ∀ n, o = .rgn n → srcOff s (rgnSrc n.val 41) = false →
          t.fld (Reg.FLT_SRC_STAT (rgnSrc n.val 41)) Reg.FLT_SRC_STAT_COUNT =
            min (s.fld (Reg.FLT_SRC_STAT (rgnSrc n.val 41)) Reg.FLT_SRC_STAT_COUNT + 1) 255) ∧
    (rEnabled s g = true → (rLoc s g ≠ Reg.CMD_RING_CFG_LOC.get v ∨ rSize s g ≠ 2 ^ Reg.CMD_RING_CFG_SIZE.get v ∨
      rBase s g ≠ 4096 * Reg.CMD_RING_CFG_BASE.get v) → run = .next s)

/-- A visible record that has waited TICKS raises the completion interrupt. When the oldest visible record of a
completion ring has waited CMD_CQ_MOD.TICKS without an interrupt, CQ_MOD_EXPIRY makes the completion source pending
and no record waits any longer; before that time it changes nothing. (11_commands.md) -/
def Obligations.CompletionTimerRaisesTheInterrupt : Prop :=
  ∀ (o : RingOwner) (p : Option Part) (u : Nat) (us : List Nat) (s : State), Awake s →
    (o = .mgmt ∧ p = none ∨ ∃ n q, o = .rgn n ∧ s.partOf n = some q ∧ p = some q) → (cqOf p s).waiting = u :: us →
    (u + s.fld (cqMod o) Reg.CMD_CQ_MOD_TICKS ≤ s.now →
      ∃ t, exec (.cqModExpiry o) s = .next t ∧ t.irqPending (cqIrqSrc p) = true ∧ (cqOf p t).waiting = [] ∧
        t.mem = s.mem ∧ t.cmds = s.cmds) ∧
    (s.now < u + s.fld (cqMod o) Reg.CMD_CQ_MOD_TICKS → exec (.cqModExpiry o) s = .next s)

/-- An entry with a reserved opcode is rejected with ST_BAD_OPCODE, and its record says so. The head entry of a ring,
with an opcode that Table 11.4 does not list, leaves the command table. With the partition's completion ring in the
herd tier the 32-byte record at its TAIL carries the opcode, ST_BAD_OPCODE, TAG and CLIENT, and TAIL advances; no byte
outside its tile differs, and none outside the record where the tile is under the partition's key already. (R292,
R298) -/
def Obligations.ReservedOpcodeIsRejected : Prop :=
  ∀ (p : Part) (k : Fin 2) (n : Rgn) (c : Cmd) (s : State), Awake s → s.fatal = false →
    headEntry s (.part p k) = some c → s.cmd c.id = some c → opcodeKnown c.opcode = false → myTurn s c = true →
    ∃ t, exec (.reservedOpcode (.part p k)) s = .next t ∧ t.cmd c.id = none ∧
      ((s.part p).lead = some n → rEnabled s (ringRegs (.rgn n) 2) = true → rLoc s (ringRegs (.rgn n) 2) = 1 →
        let g := ringRegs (.rgn n) 2
        let off := rBase s g + 32 * rTail s g
        SameBytesBut (tileAddr n.val 2 (off / 4096)) 4096 s t ∧
        (keyOf s n.val 2 (off / 4096) = keyFor s (some p) 2 → SameBytesBut (herdAddr n.val off) 32 s t) ∧
        readPart t (some p) n.val 2 off 7 = leBytes 1 c.opcode ++ leBytes 1 0x10 ++ leBytes 2 c.tag ++ leBytes 2 c.client ++
          leBytes 1 k.val ∧ rTail t g = (rTail s g + 1) % rSize s g % 2 ^ Reg.CMD_RING_TAIL_INDEX.w)

/-- A QUOTA_SET whose header fails check 2 has no effect but its rejection. A QUOTA_SET at the head of the management
ring, allowed there, whose header fails check 2 leaves the command table, and memory, cells, sessions, allocations,
packages and the other commands are as before. (R292) -/
def Obligations.BadHeaderIsRejected : Prop :=
  ∀ (c : Cmd) (off : Nat) (s : State), Awake s → headEntry s .mgmt = some c → s.cmd c.id = some c → c.opcode = 0x43 → s.fatal = false →
    opcodeAllowed s c = true → badHeader s c = some off →
    ∃ t, exec (.quotaSet .mgmt noChoice) s = .next t ∧ t.cmd c.id = none ∧ t.mem = s.mem ∧ t.cells = s.cells ∧
      t.rgns = s.rgns ∧ t.cmds = s.cmds.filter (fun d => d.id != c.id) ∧
      (∀ p, (t.part p).sessions = (s.part p).sessions ∧ (t.part p).allocs = (s.part p).allocs ∧
        (t.part p).quota = (s.part p).quota ∧ (t.part p).versions = (s.part p).versions)

/-! ### Commands of the rings (11_commands.md, 12_serving.md) -/

/-- NOP and the session commands that commit at once do so with the record Table 11.4 gives. A ready head entry that
passes its opcode's checks commits in the step. NOP commits with ST_OK. SESSION_OPEN with a fresh handle, a page table
for each layer group of the package, quota and free tiles opens a session of length 0 and DETAIL gives the handle.
SESSION_ACCEPT sets the session's length L and written length W to the length named. SESSION_CLOSE ends the session.
(11_commands.md, 12_serving.md) -/
def Obligations.SessionOpcodesComplete : Prop :=
  ∀ (r : Ring) (ch : Choice) (c : Cmd) (s : State),
    let p := cmdPart c
    (Ready s r 0x00 c → reserved c [] = none → ∃ t, exec (.nop r ch) s = .next t ∧ Committed c 0 0 t ∧ t.mem = s.mem ∧
      t.rgns = s.rgns ∧ t.cells = s.cells) ∧
    (Ready s r 0x20 c → openCheck c s = none → handleFree s p ch.handle = true →
      let tabs := openTables ch.groups
      let exts := tabs.map fun t => (⟨t.rgn, 1, t.tableTile, 1⟩ : Extent)
      groupsFit (activeVer s p (c.p8 0x10)) tabs = true →
      quotaOk s p 1 exts.length = true → (s.part p).sessions.length < 262144 → exts.all (isFree s) = true → disjoint exts = true →
      ∃ t, exec (.sessionOpen r ch) s = .next t ∧ Committed c 0 ch.handle.toNat t ∧
        ∃ x ∈ (t.part p).sessions, x.handle = ch.handle ∧ x.client.toNat = c.client ∧ x.len = 0 ∧ x.wlen = 0 ∧ x.st = .opened) ∧
    (∀ x, Ready s r 0x23 c → acceptCheck c s = none → sessionOf s p (c.p4 0x10) = some x →
      let exts := editExtents (pagesOf (c.p4 0x14)) (tilesFor x ch)
      exts.all (isFree s) = true → disjoint exts = true →
      ∃ t, exec (.sessionAccept r ch) s = .next t ∧ Committed c 0 0 t ∧
        ∃ y, sessionOf t p (c.p4 0x10) = some y ∧ y.len = c.p4 0x14 ∧ y.wlen = c.p4 0x14 ∧ y.st = x.st) ∧
    (Ready s r 0x26 c → closeCheck c s = none →
      ∃ t, exec (.sessionClose r ch) s = .next t ∧ Committed c 0 0 t ∧ sessionOf t p (c.p4 0x10) = none)

/-- SESSION_PREFILL, SESSION_DECODE and JOB_RUN are accepted with their binding. A ready run command that passes its
checks, with page blocks chosen that fit, quota, free tiles and the time test, is accepted and bound to the version
active then, with its argument block, read once, its shapes and start row; a used shape register of 0 lets it end at
once instead, with no plan run. (11_commands.md, 12_serving.md) -/
def Obligations.RunOpcodesAreAccepted : Prop :=
  ∀ (r : Ring) (ch : Choice) (c d : Cmd) (s s1 : State) (b : List Byte) (v : Version),
    ∀ i ∈ [((0x21 : Nat), Instr.sessionPrefill), (0x22, Instr.sessionDecode), (0x30, Instr.jobRun)],
    Ready s r i.1 c → runCheck ch.herd c s = (s1, .accept) → s1.cmd c.id = some d → b = d.work → runVersion s1 c b = some v →
    (emptyShape s1 c b = false → ∀ gs, growAll s1 ch c b (argRows b) = some gs → listsFit s1 c ch.groups = true →
      quotaOk s1 (cmdPart c) 1 (tilesIn 1 (gs.flatMap growExtents)) = true → (gs.flatMap growExtents).all (isFree s1) = true →
      disjoint (gs.flatMap growExtents) = true → timeOk s1 (cmdPart c) (asAccepted s1 c v b) = true →
      ∃ t e, exec (i.2 r ch) s = .next t ∧ t.cmd c.id = some e ∧ e.phase = .accepted ∧ e.pkg = some (v.pkg, v.ver) ∧
        e.shapes = argShapes b ∧ e.argBlock = b ∧ e.startRow = c.p1 0x18 ∧ e.seq = s1.nextSeq ∧ e.tick = s1.now) ∧
    (emptyShape s1 c b = true → ∃ t, exec (i.2 r ch) s = .next t ∧ t.cmd c.id = none ∧ t.rgns = s1.rgns ∧
      ∀ q, (t.part q).sessions = (s1.part q).sessions ∧ (t.part q).allocs = (s1.part q).allocs)

/-- Tier commands allocate, free and set quotas at once, and copies and parks are accepted. TIER_ALLOC within the
quota and in free space commits, the extent is allocated and DETAIL gives its first tile. TIER_FREE of tiles that no
unretired I/O window holds commits. QUOTA_SET commits and the tier's quota is the value named. TIER_COPY, SESSION_PARK
and SESSION_RESUME with quota and free tiles are accepted, and a resume stops the session's clock. (12_serving.md,
06_tiers.md) -/
def Obligations.SpaceOpcodesComplete : Prop :=
  ∀ (r : Ring) (ch : Choice) (c : Cmd) (s : State),
    let p := cmdPart c
    (Ready s r 0x40 c → allocCheck c s = none → quotaOk s p (c.p1 0x10) (c.p4 0x14) = true →
      isFree s ⟨c.p1 0x11, c.p1 0x10, ch.first, c.p4 0x14⟩ = true →
      ∃ t, exec (.tierAlloc r ch) s = .next t ∧ Committed c 0 ch.first t ∧
        (t.part p).allocs = (s.part p).allocs ++ [⟨⟨c.p1 0x11, c.p1 0x10, ch.first, c.p4 0x14⟩, .alloc⟩] ∧
        t.mem = s.mem ∧ ∀ q, q ≠ p → (t.part q).allocs = (s.part q).allocs) ∧
    (Ready s r 0x41 c → freeCheck c s = none → inWindows s p (freeExtent c) = false →
      ∃ t, exec (.tierFree r ch) s = .next t ∧ Committed c 0 (c.p4 0x14) t ∧
        ∀ a ∈ (t.part p).allocs, a.owner = .alloc → overlap (freeExtent c) a.ext = false) ∧
    (Ready s r 0x43 c → quotaCheck c s = none →
      ∃ t d, exec (.quotaSet r ch) s = .next t ∧ t.cmd c.id = some d ∧ d.phase = .committed ∧ d.status = 0 ∧
        quotaOf t (Fin.ofNat 16 (c.p1 0x10)) (c.p1 0x11) = c.p8 0x18 ∧
        (c.p1 0x12 = 0 → ∀ q, (t.part q).sessions = (s.part q).sessions ∧ (t.part q).allocs = (s.part q).allocs)) ∧
    (Ready s r 0x42 c → copyCheck c s = none →
      (copyAllocs c = true → quotaOk s p (c.p1 0x12) (c.p4 0x28) = true ∧ isFree s (copyDst { c with ch := ch }) = true) →
      ∃ t, exec (.tierCopy r ch) s = .next t ∧ Stands c .accepted t ∧ t.mem = s.mem) ∧
    (∀ x, sessionOf s p (c.p4 0x10) = some x →
      (Ready s r 0x24 c → parkCheck c s = none →
        let exts := parkExtents ch (parkTier c) x
        quotaOk s p (parkTier c) (tilesIn (parkTier c) exts) = true → exts.all (isFree s) = true → disjoint exts = true →
        ∃ t, exec (.sessionPark r ch) s = .next t ∧ Stands c .accepted t ∧ sessionOf t p (c.p4 0x10) = some x) ∧
      (∀ l, Ready s r 0x25 c → resumeCheck c s = none → resumeExtents ch x = some l →
        quotaOk s p 1 (tilesIn 1 l.flatten) = true → l.flatten.all (isFree s) = true → disjoint l.flatten = true →
        ∃ t y, exec (.sessionResume r ch) s = .next t ∧ Stands c .accepted t ∧ sessionOf t p (c.p4 0x10) = some y ∧
          y.ttlFrom = none ∧ y.ttl = ttlLeft s x))

/-- Package and adapter commands are accepted, activate, retire and drop as their rules say. A ready PKG_STAGE or
ADAPTER_LOAD that passes its checks is accepted; a stage of a version already staged commits. PKG_ACTIVATE commits,
DETAIL gives the version, and that version is active. PKG_RETIRE of a staged version that is not being staged commits
and the version is no longer active. ADAPTER_DROP commits with the adapter's slot. (10_packages.md) -/
def Obligations.PackageOpcodesComplete : Prop :=
  ∀ (r : Ring) (ch : Choice) (c : Cmd) (s : State),
    let p := cmdPart c
    (Ready s r 0x10 c → stageCheck c s = none →
      ∃ t, exec (.pkgStage r ch) s = .next t ∧ t.mem = s.mem ∧ (t.part p).versions = (s.part p).versions ∧
        (versionOf s p (c.p8 0x10) (c.p4 0x18) = none → Stands c .accepted t) ∧
        (versionOf s p (c.p8 0x10) (c.p4 0x18) ≠ none → Committed c 0 0 t)) ∧
    (Ready s r 0x13 c → loadCheck c s = none → ∃ t, exec (.adapterLoad r ch) s = .next t ∧ Stands c .accepted t ∧ t.mem = s.mem) ∧
    (Ready s r 0x11 c → activateCheck c s = none →
      ∃ t, exec (.pkgActivate r ch) s = .next t ∧ Committed c 0 (c.p4 0x18) t ∧
        (BitVec.ofNat 64 (c.p8 0x10), BitVec.ofNat 32 (c.p4 0x18)) ∈ (t.part p).active) ∧
    (∀ v, Ready s r 0x12 c → retireCheck c s = none → beingStaged s c = false → versionOf s p (c.p8 0x10) (c.p4 0x18) = some v →
      ∃ t d, exec (.pkgRetire r ch) s = .next t ∧ t.cmd c.id = some d ∧ d.phase = .committed ∧ d.status = 0 ∧ d.detail ≤ 1 ∧
        (v.pkg, v.ver) ∉ (t.part p).active) ∧
    (∀ a, Ready s r 0x14 c → dropCheck c s = none → loadedAdapter s p (c.p8 0x10) (c.p8 0x18) = some a →
      ∃ t, exec (.adapterDrop r ch) s = .next t ∧ Committed c 0 a.slot t)

/-- QUERY, PARTITION_SET, FAULT_CONFIG, FAULT_INJECT, POWER_POLICY and SYNC_FORCE act as their rules say. A ready
QUERY whose buffer can be reached commits with DETAIL 4096. PARTITION_SET without regions and without a mask commits
with DETAIL 0xFF; where only the policy changes it commits and the policy is the block's; otherwise the partition's
reset starts. FAULT_CONFIG sets SEV and PIN. FAULT_INJECT of one report at severity 1, with room in the ring, counts
it. POWER_POLICY puts the block's first profile in force. SYNC_FORCE sets or adds to a semaphore or releases a
barrier. (11_commands.md, 16_power.md, 17_faults.md, 05_sequencer.md) -/
def Obligations.ChipOpcodesComplete : Prop :=
  ∀ (r : Ring) (ch : Choice) (c : Cmd) (s : State),
    (Ready s r 0x01 c → queryCheck c s = none → bufLoc (c.p8 0x18) ≠ 0 ∨ linkLost s = false →
      ∃ t, exec (.query r ch) s = .next t ∧ Committed c 0 4096 t) ∧
    (∀ s1 d, Ready s r 0x02 c → psCheck ch.herd c s = (s1, .accept) → s1.cmd c.id = some d → d.ring = c.ring →
      let b := d.work
      (psNothing s1 c = true → ∃ t, exec (.partitionSet r ch) s = .next t ∧ Committed c 0 0xFF t ∧ t.parts = s1.parts) ∧
      (psNothing s1 c = false → psPolicyOnly s1 c = true → ∃ t, exec (.partitionSet r ch) s = .next t ∧
        Committed c 0 (leadDetail s1 (psPart c)) t ∧ (t.part (psPart c)).requireSig = (leAt b 0 1).testBit 0 ∧
        (t.part (psPart c)).signers = (List.range (leAt b 1 1)).map (fun i => slice b (0x10 + 48 * i) 48) ∧
        (t.part (psPart c)).mask = (s1.part (psPart c)).mask ∧ (t.part (psPart c)).sessions = (s1.part (psPart c)).sessions) ∧
      (psNothing s1 c = false → psPolicyOnly s1 c = false →
        exec (.partitionSet r ch) s = .next (showHold r (startReset (psPart c) (startWork c.id id s1))))) ∧
    (Ready s r 0x70 c → faultConfigCheck c s = none →
      ∃ t, exec (.faultConfig r ch) s = .next t ∧ Committed c 0 (c.p2 0x10) t ∧
        t.fld (Reg.FLT_SRC_SEV (c.p2 0x10)) Reg.FLT_SRC_SEV_SEV = c.p1 0x12 ∧
        t.fld (Reg.FLT_SRC_SEV (c.p2 0x10)) Reg.FLT_SRC_SEV_PIN = c.p1 0x13) ∧
    (Ready s r 0x71 c → faultInjectCheck c s = none → c.p2 0x12 = 1 → s.sev (c.p2 0x10) = 1 → srcOff s (c.p2 0x10) = false →
      ringRoom s = true → (∀ x ∈ s.flt.kept, x.source ≠ c.p2 0x10) →
      ∃ t, exec (.faultInject r ch) s = .next t ∧ Committed c 0 (c.p2 0x10) t ∧
        t.fld (Reg.FLT_SRC_STAT (c.p2 0x10)) Reg.FLT_SRC_STAT_COUNT =
          min (s.fld (Reg.FLT_SRC_STAT (c.p2 0x10)) Reg.FLT_SRC_STAT_COUNT + 1) 255) ∧
    (∀ s1 d, Ready s r 0x80 c → powerPolicyCheck c s = (s1, .accept) → s1.cmd c.id = some d →
      (exec (.powerPolicy r ch) s = .next (showHold r (powerPolicyAct c s1))) ∧
      ((∀ n : Rgn, serviceOn s1 n = true) → (leAt d.work 1 1).testBit 5 = false →
        ∃ t, exec (.powerPolicy r ch) s = .next t ∧ Committed c 0 0 t ∧ t.pwr.policy = slice d.work 0 64 ∧
          t.pwr.unattended = slice d.work 0x40 64 ∧ t.flag Reg.PWR_STATUS Reg.PWR_STATUS_UNATTENDED = false)) ∧
    (Ready s r 0x50 c → syncCheck c s = none →
      let n : Rgn := Fin.ofNat 16 (c.p1 0x10)
      let b := c.p1 0x11
      (c.p1 0x12 = 0 → ∃ t, exec (.syncForce r ch) s = .next t ∧ Committed c 0 0 t ∧ semValue t n b = c.p4 0x14) ∧
      (c.p1 0x12 = 1 → semValue s n b + c.p4 0x14 < 2 ^ 32 →
        ∃ t, exec (.syncForce r ch) s = .next t ∧ Committed c 0 0 t ∧ semValue t n b = semValue s n b + c.p4 0x14) ∧
      (c.p1 0x12 = 2 → s.flag (Reg.BAR_STATE b) Reg.BAR_STATE_BROKEN = false →
        ∃ t, exec (.syncForce r ch) s = .next t ∧ Committed c 0 0 t ∧ t.fld (Reg.BAR_STATE b) Reg.BAR_STATE_ARRIVED = 0))

/-- ATTEST, the firmware commands and the fabric commands start their work or commit. A ready ATTEST joins Tahr's
queue and runs. FW_STAGE and FW_COMMIT, with no earlier firmware command unfinished and no PLDM update holding the
store, run. FAB_CIRCUIT_BIND leaves the entry BINDING; FAB_CIRCUIT_UNBIND of a BOUND entry leaves it UNBINDING or
FREE. LEND_OFFER with quota and free aligned lots commits with the offer ID; LEND_BORROW with a circuit, quota and
room in the lent tier runs; LEND_WITHDRAW withdraws the offer. (14_axium.md, 18_security.md) -/
def Obligations.SecureAndFabricOpcodesComplete : Prop :=
  ∀ (r : Ring) (ch : Choice) (c : Cmd) (s : State),
    let p := cmdPart c
    let n : Rgn := Fin.ofNat 16 (c.p1 0x10)
    let k := c.p2 0x12
    (Ready s r 0x90 c → attestCheck c s = none → s.sec.queue.length < 64 →
      ∃ t, exec (.attest r ch) s = .next t ∧ Stands c .running t ∧ tqAttest c.id ∈ t.sec.queue) ∧
    (Ready s r 0x91 c → fwStageCheck c s = none → (∀ d, (acceptAs c.id id s).cmd c.id = some d → fwTurn (acceptAs c.id id s) d = true) → pldmHeld s = false →
      ∃ t, exec (.fwStage r ch) s = .next t ∧ Stands c .running t ∧ t.sec.staging = none ∧ t.sec.flash = s.sec.flash) ∧
    (Ready s r 0x92 c → fwCommitCheck c s = none → (∀ d, (acceptAs c.id id s).cmd c.id = some d → fwTurn (acceptAs c.id id s) d = true) →
      ∃ t, exec (.fwCommit r ch) s = .next t ∧ Stands c .running t ∧ t.sec = s.sec) ∧
    (Ready s r 0x60 c → bindCheck c s = none →
      ∃ t, exec (.fabCircuitBind r ch) s = .next t ∧ Stands c .running t ∧ circState t n k = circBinding ∧
        circPeer t n k = c.p4 0x14 ∧ circPart t n k = c.p1 0x19) ∧
    (Ready s r 0x61 c → unbindCheck c s = none → circState s n k = circBound → (∀ x, circOf s n k = some x → x.cmd = none) →
      ∃ t, exec (.fabCircuitUnbind r ch) s = .next t ∧
        (0 < circUse s n k → circState t n k = circUnbinding ∧ Stands c .running t) ∧
        (circUse s n k = 0 → circState t n k = circFree ∧ Committed c 0 k t)) ∧
    (Ready s r 0x62 c → offerCheck c s = none →
      let e : Extent := ⟨n.val, 2, ch.first, lotTiles * c.p4 0x14⟩
      (∀ o ∈ s.offers, o.id = offerId s ch → o.withdrawn = true ∧ o.lent = []) → quotaOk s p 2 e.tiles = true →
      ch.first % lotTiles = 0 → isFree s e = true →
      ∃ t, exec (.lendOffer r ch) s = .next t ∧ Committed c 0 (offerId s ch).toNat t ∧
        ∃ o ∈ t.offers, o.id = offerId s ch ∧ o.rgn = n.val ∧ o.lots = c.p4 0x14 ∧ o.lent = [] ∧ o.withdrawn = false) ∧
    (∀ f circ, Ready s r 0x64 c → borrowCheck c s = none → circTo s n (c.p4 0x14) = some circ →
      quotaOk s p 4 (lotTiles * c.p4 0x1C) = true → lotRun s n.val (c.p4 0x1C) = some f →
      ∃ t, exec (.lendBorrow r ch) s = .next t ∧ Stands c .running t ∧
        (t.rgn n).port.asks.any (fun a => a.type == axAsk && a.circuit == circ && a.cmd == some c.id) = true) ∧
    (∀ o, Ready s r 0x63 c → withdrawCheck c s = none → lenderOffer s p (c.p4 0x10) = some o →
      ∃ t, exec (.lendWithdraw r ch) s = .next t ∧ ∀ x ∈ t.offers, x.id = o.id → x.withdrawn = true)

/-! ### The life of a command (10_packages.md, 11_commands.md, 12_serving.md) -/

/-- A dispatched command that holds free regions starts its plan in every region of its version. PLAN_DISPATCH of an
accepted run command that holds every region of its span, with no plan in them, no power hold, its regions free once
prepared, its version's variants fitting them, and power allowing the start: the command runs, and every region of its
version runs its plan for it, unless a walk list or route job that it takes cannot be read: then it ends. An accepted
SESSION_PARK or SESSION_RESUME that may start runs, and the tile mover begins its copies. (12_serving.md, 16_power.md)
-/
def Obligations.PlanDispatchStartsThePlans : Prop :=
  (∀ (id : Nat) (ch : Choice) (c : Cmd) (p : Part) (v : Version) (s : State), Awake s → s.cmd id = some c → c.id = id →
    s.fatal = false → s.pwr.hold = false → isRunOp c.opcode = true → c.phase = .accepted ∨ c.phase = .rerun →
    c.part = some p →
    (∀ n ∈ c.span, holds s p c n = true ∧ n < 16 ∧ (s.rgn (Fin.ofNat 16 n)).plan = none) →
    let s1 := prepareRgns c.span s
    (∀ n ∈ c.span, holds s1 p c n = true ∧ rgnFree s1 n = true) → startHeld s1 c = false → boundVersion s1 c = some v →
    versionFits s1 v = true →
    let bad := unreadable v (startPlans c v v.targets (markStarted c.id s1))
    (bad = [] → ∃ t, exec (.planDispatch id ch) s = .next t ∧ (∃ d, t.cmd id = some d ∧ d.phase = .running) ∧
      ∀ m ∈ v.targets, (t.rgn (Fin.ofNat 16 m)).plan = some id ∧
        t.flag (Reg.SEQ_STATUS (Fin.ofNat 16 m)) Reg.SEQ_STATUS_RUNNING = true) ∧
    (bad ≠ [] → ∃ t d, exec (.planDispatch id ch) s = .next t ∧ t.cmd id = some d ∧ d.phase = .ended)) ∧
  (∀ (id : Nat) (ch : Choice) (c : Cmd) (s : State), Awake s → s.cmd id = some c → c.id = id → s.fatal = false →
    s.pwr.hold = false → c.opcode = 0x24 ∨ c.opcode = 0x25 → c.phase = .accepted → freeMayStart s c = true →
    let s1 := startFree c ch s
    (∃ d, s1.cmd id = some d ∧ d.phase = .running ∧ d.planStart = max 1 s.now) ∧ s1.rgns = s.rgns ∧ s1.mem = s.mem ∧
      exec (.planDispatch id ch) s = .next (pump id s1))

/-- The commit of a finished run adds its new positions to the session, and a poisoned run never commits. COMMIT of a
running plan command whose plan has ended in every region of its version and that names one session. With no poison
flag set it commits with ST_OK, and the session's length L grows by the new positions, W with it; with SPEC set in a
decode only W moves, to L plus the new positions. With a poison flag set no session changes: the command is re-run the
first time, unless it uses a window to another chip, and otherwise ends with ST_INTERNAL. (11_commands.md,
12_serving.md, 02_array.md) -/
def Obligations.CommitOfARunAdvancesItsSession : Prop :=
  ∀ (id : Nat) (c : Cmd) (p : Part) (v : Version) (h : BitVec 32) (new e : Nat) (x : Session) (s : State), Awake s →
    s.cmd id = some c → c.id = id → s.fatal = false → c.phase = .running → isRunOp c.opcode = true → c.part = some p →
    boundVersion s c = some v → (∀ n ∈ v.targets, n ∈ c.done) → c.rows = [(h, new, e)] →
    (s.part p).sessions.find? (fun y => y.handle == h) = some x →
    let spec := (c.p1 0x19).testBit 0 && c.opcode == 0x22
    (c.poisoned = false → ∃ t y, exec (.commit id) s = .next t ∧ Committed c 0 (if c.opcode = 0x30 then 0 else argRows c.argBlock) t ∧
      (t.part p).sessions.find? (fun y => y.handle == h) = some y ∧ y.wlen = x.len + new ∧
      y.len = (if spec then x.len else x.len + new)) ∧
    (c.poisoned = true → ∃ t d, exec (.commit id) s = .next t ∧ t.cmd id = some d ∧
      (∀ q, (t.part q).sessions = (s.part q).sessions) ∧
      (c.poisonRerun = false → c.remote = false → d.phase = .rerun ∧ d.reruns = c.reruns + 1) ∧
      (c.poisonRerun = true ∨ c.remote = true → d.phase = .ended ∧ d.status = 0xFF))

/-- An abort request ends a live target, and comes late to one that has committed. ABORT_REQUEST for a target that
JOB_ABORTs name: a live target ends with ST_ABORTED and every such JOB_ABORT commits with ST_OK; a target that has
committed keeps its status, and they commit with ST_ABORT_LATE and DETAIL 1. (11_commands.md) -/
def Obligations.AbortMeetsCommit : Prop :=
  ∀ (id : Nat) (c : Cmd) (s : State), Awake s → s.cmd id = some c → c.id = id → abortsOf s id ≠ [] → id ∉ abortsOf s id →
    (c.live = true → ∃ t d, exec (.abortRequest id) s = .next t ∧ t.cmd id = some d ∧ d.phase = .ended ∧ d.status = 0x03 ∧
      ∀ a ∈ abortsOf s id, ∃ e, t.cmd a = some e ∧ e.phase = .committed ∧ e.status = 0) ∧
    (c.live = false → ∃ t, exec (.abortRequest id) s = .next t ∧ t.cmd id = some c ∧
      ∀ a ∈ abortsOf s id, ∃ e, t.cmd a = some e ∧ e.phase = .committed ∧ e.status = 0x02 ∧ e.detail = 1)

/-- A finished command retires: its record is written and it leaves the table. COMMAND_RETIRE of a committed command
with nothing outstanding takes it out of the command table. With the partition's completion ring in the herd tier, no
fold tile of the partition waiting to be given back and no table edit waiting for a tile, the record at TAIL carries
the opcode, the command's status, TAG, CLIENT and ring. (R298) -/
def Obligations.RetireWritesTheRecord : Prop :=
  ∀ (id : Nat) (c : Cmd) (p : Part) (k : Fin 2) (n : Rgn) (s : State), Awake s → s.fatal = false → s.cmd id = some c → c.id = id →
    c.phase = .committed → c.ring = .part p k → c.part = some p → mayRetire s c = true →
    (∀ a ∈ (s.part p).allocs, a.ext.tier = 3 → a.owner = .alloc ∨ ∃ h, a.owner = .park h) →
    (∀ x ∈ (s.part p).sessions, x.trim = false) →
    ∃ t, exec (.commandRetire id) s = .next t ∧ t.cmd id = none ∧
      ((s.part p).lead = some n → rEnabled s (ringRegs (.rgn n) 2) = true → rLoc s (ringRegs (.rgn n) 2) = 1 →
        readPart t (some p) n.val 2 (rBase s (ringRegs (.rgn n) 2) + 32 * rTail s (ringRegs (.rgn n) 2)) 7 =
          leBytes 1 c.opcode ++ leBytes 1 c.status ++ leBytes 2 c.tag ++ leBytes 2 c.client ++ leBytes 1 k.val)

/-- A passed deadline is counted once, and a parked session whose time has run out expires. DEADLINE_PASS of an
unretired command whose deadline has passed marks it and adds 1, saturating, to MISSED of its home region; a command
already marked is left alone. TTL_EXPIRY of a parked session with no time left and no resume under way removes it and
remembers its handle as expired. (12_serving.md, 08_attention.md) -/
def Obligations.DeadlinesAndTimesToLive : Prop :=
  (∀ (id : Nat) (c : Cmd) (s : State), Awake s → s.cmd id = some c → c.id = id → c.unretired = true → c.deadline ≠ 0 →
    dueAt c ≤ s.now → c.home < 16 →
    (c.missed = false → ∃ t d, exec (.deadlinePass id) s = .next t ∧ t.cmd id = some d ∧ d.missed = true ∧ d.phase = c.phase ∧
      (let a := Reg.SRV_STATUS (Fin.ofNat 16 c.home)
       t.fld a Reg.SRV_STATUS_MISSED = min (s.fld a Reg.SRV_STATUS_MISSED + 1) (2 ^ Reg.SRV_STATUS_MISSED.w - 1))) ∧
    (c.missed = true → exec (.deadlinePass id) s = .next s)) ∧
  (∀ (p : Part) (h : BitVec 32) (x : Session) (s : State), Awake s →
    (s.part p).sessions.find? (fun y => y.handle == h) = some x → x.st = .parked → x.ttlFrom.isSome = true →
    ttlLeft s x = 0 →
    ∃ t, exec (.ttlExpiry p h) s = .next t ∧ h ∈ (t.part p).expired ∧ (∀ y ∈ (t.part p).sessions, y.handle ≠ h) ∧
      t.cmds = s.cmds)

/-- Relocating a page block changes the session's table by one edit. PAGE_BLOCK_RELOCATION of an immutable page of an
open session, to free tiles, with a free table tile: the page's block is the new one, the table stands in the new tile
with its generation one higher, and every other page is as before. (08_attention.md) -/
def Obligations.RelocationMovesOneBlock : Prop :=
  ∀ (p : Part) (h : BitVec 32) (grp page dst table old : Nat) (x : Session) (u : PageTable) (s : State), Awake s →
    (s.part p).sessions.find? (fun y => y.handle == h) = some x → x.tables[grp]? = some u → u.pages[page]? = some old →
    16 * page + 16 ≤ x.len → x.st = .opened → isFree s ⟨u.rgn, 1, dst, u.pb⟩ = true →
    isFree s ⟨u.rgn, 1, table, tableTiles u.pages.length⟩ = true →
    overlap ⟨u.rgn, 1, dst, u.pb⟩ ⟨u.rgn, 1, table, tableTiles u.pages.length⟩ = false →
    ∃ t y, exec (.pageBlockRelocation p h grp page dst table) s = .next t ∧
      (t.part p).sessions.find? (fun y => y.handle == h) = some y ∧ y.len = x.len ∧ y.edits = x.edits + 1 ∧
      y.tables[grp]? = some { u with gen := u.gen + 1, edit := x.edits + 1, pages := u.pages.set page dst, tableTile := table } ∧ t.cmds = s.cmds

/-- Tahr's verification decides a signed image, and a command whose variant no longer fits is re-selected or ended.
SIGNATURE_VERIFY at its turn in Tahr's queue: the header digest joins the partition's verified digests if both
signatures verify; otherwise the command ends with ST_AUTH_FAIL and source 12 is raised; a command that stands then
takes the steps for which enough of its image has been read. VARIANT_RESELECT of a live command whose selected variant
does not fit its region: where no variant fits, the command ends with ST_NO_PACKAGE and the version is active no more;
where the lowest that fits is the one firmware names, a running command is stopped for a re-run, and with none running
and the flush complete that variant is selected, or the version retired where the context store has no room for it.
(10_packages.md) -/
def Obligations.SignaturesAndVariants : Prop :=
  (∀ (id : Nat) (c : Cmd) (img g : List Byte) (s : State), Awake s → s.cmd id = some c → c.id = id →
    c.opcode = 0x10 ∨ c.opcode = 0x13 → c.phase = .running → c.work = img → manifestRead c = true → readTypes c [7] = true →
    policy s (cmdPart c) img = .wait → sigBlock img = some g → (tahrQueue s (tqVerify id)).head? = some (tqVerify id) →
    let s1 := modSec (fun x => { x with queue := (tahrQueue s (tqVerify id)).drop 1 }) s
    exec (.signatureVerify id) s = .next (imageSteps id (if sigVerifies g (iHeaderDigest img) = true
      then s1.modPart (cmdPart c) fun q => { q with digests := addDigest (iHeaderDigest img) q.digests }
      else raiseWith 0x50 12 false ⟨some id, 0, 0⟩ (endCommand id 0x50 0 s1))) ∧
    (∀ l, iHeaderDigest img ∈ addDigest (iHeaderDigest img) l ∧ (l.length ≤ 256 → (addDigest (iHeaderDigest img) l).length ≤ 256))) ∧
  (∀ (n : Rgn) (id : Nat) (variant : Fin 16) (c : Cmd) (p : Part) (v : Version) (s : State), Awake s →
    s.cmd id = some c → c.id = id → c.part = some p → boundVersion s c = some v → c.live = true → misfit s v n = true →
    (selectVariant s v.records (posOf v n.val) n.val = none →
      ∃ t d, exec (.variantReselect n id variant) s = .next t ∧ t.cmd id = some d ∧ d.phase = .ended ∧ d.status = 0x13 ∧
        (v.pkg, v.ver) ∉ (t.part p).active) ∧
    (selectVariant s v.records (posOf v n.val) n.val = some variant.val →
      (c.phase = .running → ∃ t d, exec (.variantReselect n id variant) s = .next t ∧ t.cmd id = some d ∧ d.phase = .rerun ∧
        d.reruns = c.reruns + 1) ∧
      ((∀ d ∈ liveOf s p v, d.phase ≠ .running) → c.phase ≠ .running →
        s.fld (Reg.CTX_FLUSH n) Reg.CTX_FLUSH_FLUSHING = 0 →
        (∀ l, reselectPlace n v variant.val s = some l → ∃ t w, exec (.variantReselect n id variant) s = .next t ∧
          (t.part p).versions.find? (fun w => w.pkg.toNat == v.pkg.toNat && w.ver.toNat == v.ver.toNat) = some w ∧
          w.variants = v.variants.set (posOf v n.val) variant.val ∧ w.dirs = v.dirs.set (posOf v n.val) (l.map Prod.fst)) ∧
        (reselectPlace n v variant.val s = none → ∃ t, exec (.variantReselect n id variant) s = .next t ∧
          (v.pkg, v.ver) ∉ (t.part p).active))))

/-! ### Context slots and synchronization (04_contexts.md, 05_sequencer.md) -/

/-- A released switch order makes its slot the active one of every cell that is not frozen. SWITCH_ORDER of an order
whose slot is IDLE, ACTIVE or DRAINING: the slot is the region's ACTIVE slot and in state ACTIVE, the order is gone,
every cell of a block that is not frozen has it as its active slot, a frozen block keeps its cells, and a slot that
was ACTIVE before is IDLE or DRAINING; memory is as before. An order to a slot in any other state, or with a load of
the plan for it still to complete, is held: nothing changes. CHIP_SWITCH_ORDER does the same in every region of the
initiator's partition. (04_contexts.md) -/
def Obligations.SwitchOrdersAreApplied : Prop :=
  ∀ (n : Rgn) (sl : Nat) (s : State), Awake s → sl < 4 →
    ((s.rgn n).seq.order = some (sl, false) → mayRelease s n sl = true →
      ∃ t, exec (.switchOrder n) s = .next t ∧ t.activeSlot n = sl ∧ t.slotState n sl = slotActive ∧
        (t.rgn n).seq.order = none ∧ SameBytes s t ∧
        (∀ c, c < 576 → (s.rgn n).frozen.getLsbD (c / 64) = false → (t.cell n.val c).active.val = sl) ∧
        (∀ m c, c < 576 → m ≠ n ∨ (s.rgn n).frozen.getLsbD (c / 64) = true → t.cell m.val c = s.cell m.val c) ∧
        (s.activeSlot n ≠ sl → s.slotState n (s.activeSlot n) = slotActive →
          t.slotState n (s.activeSlot n) = slotIdle ∨ t.slotState n (s.activeSlot n) = slotDraining)) ∧
    ((s.rgn n).seq.order = some (sl, false) → mayRelease s n sl = false → exec (.switchOrder n) s = .next s) ∧
    ((s.rgn n).seq.order = some (sl, true) → (∀ m ∈ partRgns s n, mayRelease s m sl = true) →
      ∃ t, exec (.chipSwitchOrder n) s = .next t ∧ (t.rgn n).seq.order = none ∧ SameBytes s t ∧
        ∀ m ∈ partRgns s n, t.activeSlot m = sl ∧ t.slotState m sl = slotActive ∧
          ∀ c, c < 576 → (s.rgn m).frozen.getLsbD (c / 64) = false → (t.cell m.val c).active.val = sl)

/-- A load order waits for its slot, loads the image, and is cancelled when its bound runs out. A write of CTX_LOAD
with GO set and none pending queues an order and sets PENDING, or with bound 0 and a slot that is not free sets RESULT
2. LOAD_START of the first order of an EMPTY slot whose image passes the check makes the slot LOADING. LOAD_COMPLETE
with good data and no flush ordered leaves the slot IDLE with every cell of the region that has no record empty in it,
and PENDING 0 with RESULT 1; a CTX_LOAD whose read times out, the region's sequencer source being at severity 0,
leaves the slot EMPTY in the sequencer and in every cell, with RESULT 3. LOAD_WAIT_EXPIRY of a CTX_LOAD order that
still waits when its bound has run out drops it with RESULT 2. (04_contexts.md) -/
def Obligations.LoadsStartCompleteAndExpire : Prop :=
  ∀ (n : Rgn) (sl : Slot) (s : State), Awake s →
    let a := Reg.CTX_LOAD n
    (∀ (who : Requester) (v : Word), Writes who a v s → Reg.CTX_LOAD_GO.get v = 1 → s.flag a Reg.CTX_LOAD_PENDING = false →
      Reg.CTX_LOAD_SLOT.get v = sl.val →
      let bound := s.fld (Reg.CTX_LOAD_WAIT n) Reg.CTX_LOAD_WAIT_TICKS
      let st := (normSlots n s).slotState n sl.val
      let free := (st = slotEmpty ∨ st = slotIdle) ∧ firstLoad s n sl.val = none
      ((bound ≠ 0 ∨ free) → ∃ t, exec (.ctxLoad who n v) s = .next t ∧ t.flag a Reg.CTX_LOAD_PENDING = true ∧
        t.fld a Reg.CTX_LOAD_SLOT = sl.val ∧ t.fld a Reg.CTX_LOAD_ENTRY = Reg.CTX_LOAD_ENTRY.get v ∧ SameRegsBut [a] s t ∧
        (t.rgn n).seq.loads = (s.rgn n).seq.loads ++ [⟨Reg.CTX_LOAD_ENTRY.get v, sl.val, s.now, bound, none, false, true⟩]) ∧
      (bound = 0 → ¬ free → ∃ t, exec (.ctxLoad who n v) s = .next t ∧ t.fld a Reg.CTX_LOAD_RESULT = 2 ∧
        t.flag a Reg.CTX_LOAD_PENDING = false ∧ SameButRegs [a] s t)) ∧
    (∀ o, firstLoad (normSlots n s) n sl.val = some o → o.started = false → s.slotState n sl.val = slotEmpty →
      imageCheck (normSlots n s) n o.entry = true →
      ∃ t, exec (.loadStart n sl) s = .next t ∧ t.slotState n sl.val = slotLoading ∧ t.cells = s.cells ∧ t.mem = s.mem ∧
        ∃ x, firstLoad t n sl.val = some x ∧ x.started = true ∧ x.entry = o.entry) ∧
    (∀ o, firstLoad s n sl.val = some o → o.started = true → imagePoisoned s n o.entry = false →
      s.flag (Reg.CTX_FLUSH n) (flushingFld sl.val) = false → Assoc.wf cellDefault s.cells = true →
      ∃ t, exec (.loadComplete n sl .ok) s = .next t ∧ t.slotState n sl.val = slotIdle ∧ t.mem = s.mem ∧
        (t.rgn n).seq.loads = (s.rgn n).seq.loads.erase o ∧
        (o.ext = true → t.flag a Reg.CTX_LOAD_PENDING = false ∧ t.fld a Reg.CTX_LOAD_RESULT = 1) ∧
        (∀ c, c < 576 → (∀ k, k < leNat (s.load (nearAddr n.val (imageOff s n o.entry + 4)) 2) →
          recordCell (imageRecord s n o.entry k) ≠ c) → (t.cell n.val c).slots[sl] = SlotSt.empty) ∧
        SameOutsideCells n (fun _ => True) s t) ∧
    (∀ o, firstLoad s n sl.val = some o → o.started = true → o.ext = true → o.cmd = none → imagePoisoned s n o.entry = false →
      s.flag (Reg.CTX_FLUSH n) (flushingFld sl.val) = false → Assoc.wf cellDefault s.cells = true → s.sev (rgnSrc n.val 28) = 0 →
      ∃ t, exec (.loadComplete n sl .timeout) s = .next t ∧ t.slotState n sl.val = slotEmpty ∧ t.mem = s.mem ∧
        (t.rgn n).seq.loads = (s.rgn n).seq.loads.erase o ∧ t.flag a Reg.CTX_LOAD_PENDING = false ∧ t.fld a Reg.CTX_LOAD_RESULT = 3 ∧
        ∀ c, c < 576 → (t.cell n.val c).slots[sl] = SlotSt.empty) ∧
    (∀ o, ((s.rgn n).seq.loads.find? fun x => x.slot == sl.val && !x.started && decide (x.tick + x.bound ≤ s.now) && !loadFree s n x) = some o →
      o.ext = true → o.cmd = none →
      ∃ t, exec (.loadWaitExpiry n sl) s = .next t ∧ (t.rgn n).seq.loads = (s.rgn n).seq.loads.erase o ∧
        t.flag a Reg.CTX_LOAD_PENDING = false ∧ t.fld a Reg.CTX_LOAD_RESULT = 2 ∧ t.slotState n sl.val = s.slotState n sl.val ∧
        SameRegsBut [a] s t)

/-- Two clean sweeps end a flush or a drain, and a frozen block catches up with the active slot. SWEEP counts the
consecutive clean sweeps of each slot, a dirty one starting again at 0; with the second, a flush is done (FLUSHING
becomes IDLE, or ACTIVE for the active slot) and a draining slot that no running entry names and that crosses no
bridge is IDLE. CTX_FLUSH sets the FLUSHING bit, and an ACTIVE or DRAINING slot is FLUSHING. FREEZE marks its block,
FROZEN freezes it and shows in SCAN_STATUS, UNFREEZE lets it go and gives its cells the active slot if it missed an
order. (04_contexts.md) -/
def Obligations.SweepsFlushesAndFreezes : Prop :=
  ∀ (n : Rgn) (sl : Slot) (s : State), Awake s →
    (∃ t, exec (.sweep n) s = .next t ∧ SameBytes s t ∧
      cleanCount t n sl.val = (if notClean s n sl.val then 0 else cleanCount s n sl.val + 1) ∧
      (notClean s n sl.val = false → 1 ≤ cleanCount s n sl.val → s.flag (Reg.CTX_FLUSH n) (flushingFld sl.val) = true →
        s.slotState n sl.val = slotFlushing → t.flag (Reg.CTX_FLUSH n) (flushingFld sl.val) = false ∧
        t.slotState n sl.val = (if s.activeSlot n = sl.val then slotActive else slotIdle)) ∧
      (notClean s n sl.val = false → 1 ≤ cleanCount s n sl.val → s.flag (Reg.CTX_FLUSH n) (flushingFld sl.val) = false →
        s.slotState n sl.val = slotDraining → runningSlot s n ≠ some sl.val → slotBridges s n sl.val = 0 →
        t.slotState n sl.val = slotIdle) ∧
      (notClean s n sl.val = true → s.slotState n sl.val = slotFlushing ∨ s.slotState n sl.val = slotDraining →
        t.slotState n sl.val = s.slotState n sl.val)) ∧
    (∀ (who : Requester) (v : Word), Writes who (Reg.CTX_FLUSH n) v s → v = 1#64 <<< sl.val →
      ∃ t, exec (.ctxFlush who n v) s = .next t ∧ t.flag (Reg.CTX_FLUSH n) (flushingFld sl.val) = true ∧
        cleanCount t n sl.val = 0 ∧ SameRegsBut [Reg.CTX_FLUSH n, Reg.CTX_SLOT_STATE n] s t ∧ SameBytes s t ∧
        t.slotState n sl.val = (if s.slotState n sl.val = slotActive ∨ s.slotState n sl.val = slotDraining then slotFlushing
          else s.slotState n sl.val) ∧ (∀ k : Slot, k ≠ sl → t.slotState n k.val = s.slotState n k.val)) ∧
    (∀ (who : Requester) (v : Word) (b : Blk), Writes who (Reg.SCAN_CTRL n) v s → Reg.SCAN_CTRL_BLOCK.get v = b.val →
      (Reg.SCAN_CTRL_FREEZE.get v = 1 → ∃ t, exec (.freeze who n v) s = .next t ∧
        (t.rgn n).freezing = (s.rgn n).freezing ||| (1#9 <<< b.val) ∧ (t.rgn n).frozen = (s.rgn n).frozen ∧ t.cells = s.cells ∧
        SameRegsBut [Reg.SCAN_CTRL n, Reg.SCAN_STATUS n] s t) ∧
      (Reg.SCAN_CTRL_FREEZE.get v = 0 → Assoc.wf cellDefault s.cells = true → ∃ t, exec (.unfreeze who n v) s = .next t ∧
        (t.rgn n).frozen.getLsbD b.val = false ∧ t.flag (Reg.SCAN_STATUS n) Reg.SCAN_STATUS_FROZEN = false ∧
        ((s.rgn n).missed.getLsbD b.val = true → ∀ c, c < 576 → c / 64 = b.val →
          (t.cell n.val c).active.val = s.activeSlot n) ∧
        SameOutsideCells n (fun c => c / 64 = b.val) s t)) ∧
    (∀ b : Blk, (s.rgn n).freezing.getLsbD b.val = true → s.fld (Reg.SCAN_CTRL n) Reg.SCAN_CTRL_BLOCK = b.val →
      ∃ t, exec (.frozen n b) s = .next t ∧ (t.rgn n).frozen = (s.rgn n).frozen ||| (1#9 <<< b.val) ∧
        t.flag (Reg.SCAN_STATUS n) Reg.SCAN_STATUS_FROZEN = true ∧ t.cells = s.cells ∧ SameRegsBut [Reg.SCAN_STATUS n] s t)

/-- SYNC_FORCE sets or adds to a semaphore, and a chip barrier is released or cleared by hand. SYNC_FORCE.GO with MODE
0 sets the semaphore to VALUE; with MODE 1 and no overflow it adds VALUE; nothing but SYNC_FORCE and the semaphore
changes. FORCE_RELEASE of a barrier that is not broken clears ARRIVED, raises GEN by one and lets every waiting member
go on; a broken barrier that BROKEN is not written to stays as it is. Writing BROKEN of a broken barrier clears BROKEN
and ARRIVED, forgets what broke it, and changes nothing else. (05_sequencer.md) -/
def Obligations.SemaphoresAndBarriersByHand : Prop :=
  (∀ (who : Requester) (n : Rgn) (v : Word) (s : State), Writes who (Reg.SYNC_FORCE n) v s → Reg.SYNC_FORCE_GO.get v = 1 →
    let i := Reg.SYNC_FORCE_SEM.get v
    let x := Reg.SYNC_FORCE_VALUE.get v
    (Reg.SYNC_FORCE_MODE.get v = 0 → ∃ t, exec (.syncForceGo who n v) s = .next t ∧ semValue t n i = x ∧
      SameButRegs [Reg.SYNC_FORCE n, semAddr n i] s t) ∧
    (Reg.SYNC_FORCE_MODE.get v = 1 → semValue s n i + x < 2 ^ 32 → ∃ t, exec (.syncForceGo who n v) s = .next t ∧
      semValue t n i = semValue s n i + x ∧ SameButRegs [Reg.SYNC_FORCE n, semAddr n i] s t)) ∧
  (∀ (who : Requester) (b : Fin 64) (v : Word) (s : State), Writes who (Reg.BAR_STATE b.val) v s →
    let a := Reg.BAR_STATE b.val
    (Reg.BAR_STATE_BROKEN.get v = 1 → Reg.BAR_STATE_FORCE_RELEASE.get v = 0 → s.flag a Reg.BAR_STATE_BROKEN = true →
      ∃ t, exec (.brokenClear who b v) s = .next t ∧ t.flag a Reg.BAR_STATE_BROKEN = false ∧
        t.fld a Reg.BAR_STATE_ARRIVED = 0 ∧ t.fld a Reg.BAR_STATE_GEN = s.fld a Reg.BAR_STATE_GEN ∧
        SameRegsBut [a] s t ∧ t = { s with regs := t.regs, barCause := t.barCause }) ∧
    (Reg.BAR_STATE_FORCE_RELEASE.get v = 1 → s.flag a Reg.BAR_STATE_BROKEN = false →
      ∃ t, exec (.forceRelease who b v) s = .next t ∧ t.fld a Reg.BAR_STATE_ARRIVED = 0 ∧
        t.fld a Reg.BAR_STATE_GEN = (s.fld a Reg.BAR_STATE_GEN + 1) % 2 ^ 16 ∧
        SameRegsBut (a :: allRgns.map Reg.SEQ_STATUS) s t ∧
        ∀ n, waitsAt s n b.val = true → t.fld (Reg.SEQ_STATUS n) Reg.SEQ_STATUS_WAIT_KIND = 0 ∧
          (t.rgn n).seq.took = (s.rgn n).seq.took + 1) ∧
    (Reg.BAR_STATE_FORCE_RELEASE.get v = 1 → Reg.BAR_STATE_BROKEN.get v = 0 → s.flag a Reg.BAR_STATE_BROKEN = true →
      exec (.forceRelease who b v) s = .next s))

/-! ### The sequencer (05_sequencer.md) -/

/-- SEQ_CTRL starts and aborts a plan, a failed fetch ends its command, and a halted plan ends. GO starts the plan at
its start row's entry with the shapes as they stand and every semaphore that no row initialises at 0, unless a walk
list or a route job that the plan takes lies on a poisoned line: then nothing runs; while a plan runs GO changes
SEQ_CTRL only. ABORT ends the running command with ST_ABORTED and cancels its descriptors. A good GROUP_FETCH changes
nothing; one that times out ends the command with ST_TIER_TIMEOUT. PLAN_DONE at HALT with nothing outstanding sets
DONE, frees the region and counts it done. WAIT_LIMIT_EXPIRY lets a wait within its limit stand, and ends its grace
after; a wait for a semaphore or a barrier has been progress up to its limit, any other has not. JOB_ABORT commits
late without a target, and otherwise waits for its target. (05_sequencer.md, 11_commands.md) -/
def Obligations.PlansStartAndStop : Prop :=
  (∀ (who : Requester) (n : Rgn) (v : Word) (s : State), Writes who (Reg.SEQ_CTRL n) v s → Reg.SEQ_CTRL_GO.get v = 1 →
    Reg.SEQ_CTRL_ABORT.get v = 0 →
    let base := 4096 * s.fld (Reg.SEQ_TABLE_BASE n) Reg.SEQ_TABLE_BASE_BASE
    (seqRunning s n = true → ∃ t, exec (.seqGo who n v) s = .next t ∧ SameButRegs [Reg.SEQ_CTRL n] s t) ∧
    (seqRunning s n = false → (takenBad s n).isSome = true → (s.rgn n).plan = none → s.chipStage = 2 →
      ∃ t, exec (.seqGo who n v) s = .next t ∧ seqRunning t n = false) ∧
    (seqRunning s n = false → takenBad s n = none → ∃ t, exec (.seqGo who n v) s = .next t ∧ seqRunning t n = true ∧
      seqPc t n = startEntry s n base (Reg.SEQ_CTRL_START_ROW.get v) % 2 ^ 14 ∧ t.mem = s.mem ∧
      t.flag (Reg.SEQ_STATUS n) Reg.SEQ_STATUS_DONE = false ∧ (t.rgn n).seq.phase = .entry ∧
      (t.rgn n).seq.shapes = (List.range 8).map (fun i => BitVec.ofNat 32 (s.fld (Reg.SEQ_SHAPE n i) Reg.SEQ_SHAPE_VALUE)) ∧
      ∀ i, i < 256 → (∀ k, k < planSemRows s n base → planNat s n base (0x440 + 8 * k) 1 ≠ i) → semValue t n i = 0)) ∧
  (∀ (who : Requester) (n : Rgn) (v : Word) (id : Nat) (c : Cmd) (s : State), Writes who (Reg.SEQ_CTRL n) v s →
    Reg.SEQ_CTRL_GO.get v = 0 → Reg.SEQ_CTRL_ABORT.get v = 1 → seqRunning s n = true → (s.rgn n).seq.cmd = some id →
    (s.rgn n).plan = some id → s.cmd id = some c → c.id = id → c.live = true →
    ∃ t d, exec (.seqAbort who n v) s = .next t ∧ t.cmd id = some d ∧ d.phase = .ended ∧ d.status = 0x03 ∧
      seqRunning t n = false ∧ (t.rgn n).plan = none ∧ ∀ x ∈ (t.rgn n).descs, x.cmd ≠ some id) ∧
  (∀ (n : Rgn) (what : FetchKind) (id : Nat) (c : Cmd) (s : State), Awake s → seqRunning s n = true →
    (fetchBad s n what = false → exec (.groupFetch n what .ok) s = .next s) ∧
    ((s.rgn n).seq.cmd = some id → s.cmd id = some c → c.id = id → c.live = true → s.chipStage = 2 →
      ∃ t d, exec (.groupFetch n what .timeout) s = .next t ∧ t.cmd id = some d ∧ d.phase = .ended ∧ d.status = 0x31)) ∧
  (∀ (n : Rgn) (id : Nat) (c : Cmd) (s : State), Awake s → seqRunning s n = true → (s.rgn n).seq.phase = .halted →
    (s.rgn n).seq.cmd = some id → s.cmd id = some c → c.id = id → (∀ d ∈ (s.rgn n).descs, d.cmd ≠ some id) →
    (∀ a ∈ (s.rgn n).port.asks, a.cmd ≠ some id) → (s.rgn n).seq.signals = [] → (∀ l ∈ (s.rgn n).seq.loads, l.cmd ≠ some id) →
    ∃ t d, exec (.planDone n) s = .next t ∧ seqRunning t n = false ∧ t.flag (Reg.SEQ_STATUS n) Reg.SEQ_STATUS_DONE = true ∧
      (t.rgn n).plan = none ∧ t.fld (Reg.SEQ_SUMMARY n) Reg.SEQ_SUMMARY_QUEUED = 0 ∧ t.cmd id = some d ∧ n.val ∈ d.done ∧
      d.phase = c.phase ∧ t.irqPending (evRgn n.val 0) = true ∧ SameBytes s t) ∧
  (∀ (n : Rgn) (t0 : Nat) (s : State), Awake s → (s.rgn n).seq.waitFrom = some t0 →
    (s.now < t0 + (s.rgn n).seq.waitLimit → s.fld (Reg.SEQ_STATUS n) Reg.SEQ_STATUS_WAIT_KIND = 1 →
      exec (.waitLimitExpiry n) s = .next s) ∧
    (t0 + (s.rgn n).seq.waitLimit ≤ s.now → ∃ t, exec (.waitLimitExpiry n) s = .next t ∧ (t.rgn n).seq.waitFrom = none ∧
      (let k := s.fld (Reg.SEQ_STATUS n) Reg.SEQ_STATUS_WAIT_KIND
       (t.rgn n).stepAt = max (s.rgn n).stepAt (if k = 1 ∨ k = 2 then t0 + (s.rgn n).seq.waitLimit else 0)) ∧
      (t.rgn n).stalled = (s.rgn n).stalled ∧ t.regs = s.regs ∧ t.cmds = s.cmds ∧ t.mem = s.mem)) ∧
  (∀ (r : Ring) (ch : Choice) (c : Cmd) (s : State), Ready s r 0x31 c → abortCheck c s = none →
    (abortTarget s c = none → ∃ t, exec (.jobAbort r ch) s = .next t ∧ Committed c 0x02 2 t ∧ t.mem = s.mem) ∧
    (∀ d, abortTarget s c = some d → abortable d.opcode = true → ∃ t e, exec (.jobAbort r ch) s = .next t ∧
      t.cmd c.id = some e ∧ e.phase = .running ∧ e.waits = [d.id] ∧ t.mem = s.mem))

/-- A JUMP loads and decrements its counter and continues at TARGET until it reaches zero. JUMP of a plan whose
present entry is a JUMP without reserved values. With ALWAYS 0, a counter of 0 takes COUNT, the counter falls by one,
and the sequencer continues at TARGET if it is not zero, else at the next entry with the counter left at 0; with
ALWAYS 1 it continues at TARGET and SEQ_LOOP is as before. Nothing else changes, but that past entry 16,383, the
table's last, there is no next entry: the sequencer is marked as past it. GO of SEQ_CTRL with no plan running leaves
all four counters at 0. (R129) -/
def Obligations.JumpsCountTheirPasses : Prop :=
  (∀ (n : Rgn) (s : State), Awake s → atEntry s n = true → entryFault s n = none → eType (seqEntry s n) = 3 →
    let e := seqEntry s n
    let f := ctrFld (jCtr e)
    let old := s.fld (Reg.SEQ_LOOP n) f
    let left := (if old = 0 then jCount e else old) - 1
    ∃ t, exec (.jump n) s = .next t ∧ SameRegsBut [Reg.SEQ_STATUS n, Reg.SEQ_LOOP n] s t ∧ seqRunning t n = true ∧
      (jAlways e = true ∨ left ≠ 0 ∨ seqPc s n < 16383 → SameButRegs [Reg.SEQ_STATUS n, Reg.SEQ_LOOP n] s t) ∧
      (jAlways e = true → seqPc t n = jTarget e ∧ t.reg (Reg.SEQ_LOOP n) = s.reg (Reg.SEQ_LOOP n)) ∧
      (jAlways e = false → t.fld (Reg.SEQ_LOOP n) f = left ∧
        (∀ k, k < 4 → k ≠ jCtr e → t.fld (Reg.SEQ_LOOP n) (ctrFld k) = s.fld (Reg.SEQ_LOOP n) (ctrFld k)) ∧
        (left ≠ 0 → seqPc t n = jTarget e) ∧ (left = 0 → seqPc s n < 16383 → seqPc t n = seqPc s n + 1) ∧
        (left = 0 → seqPc s n = 16383 → (t.rgn n).seq.past = true))) ∧
  (∀ (who : Requester) (n : Rgn) (v : Word) (s : State), Writes who (Reg.SEQ_CTRL n) v s → Reg.SEQ_CTRL_GO.get v = 1 →
    Reg.SEQ_CTRL_ABORT.get v = 0 → seqRunning s n = false → takenBad s n = none →
    ∃ t, exec (.seqGo who n v) s = .next t ∧ ∀ k, k < 4 → t.fld (Reg.SEQ_LOOP n) (ctrFld k) = 0)

/-- LOAD issues its order, HALT issues nothing further, RUN switches first, and iterations run DIM2 innermost. At an
entry without reserved values: LOAD appends its order and goes to the next entry (past 16,383, the last, there is
none), waiting for it only with SYNC; HALT stops issuing. RUN of a slot that is not active issues the switch order and
waits (WAIT_KIND 3); with the slot active and nothing due at entry start it goes on to its iterations. ITERATION of an
entry that visits no tile ends the entry; when the actions of one iteration are done, the next index in order with
DIM2 innermost follows. A reserved entry ends the command with ST_INTERNAL. (05_sequencer.md) -/
def Obligations.EntriesRun : Prop :=
  (∀ (n : Rgn) (s : State), Awake s → atEntry s n = true →
    let e := seqEntry s n
    (entryFault s n = none → eType e = 2 → ∃ t, exec (.load n) s = .next t ∧ seqPc t n = min (seqPc s n + 1) 16383 ∧
      (t.rgn n).seq.past = decide (seqPc s n = 16383) ∧
      (t.rgn n).seq.loads = (s.rgn n).seq.loads ++ [⟨lEntry e, lSlot e, s.now, lBound e, (s.rgn n).seq.cmd, false, false⟩] ∧
      (t.rgn n).syncLoad = (if lSync e then some (lSlot e) else none) ∧ SameRegsBut [Reg.SEQ_STATUS n] s t ∧ t.mem = s.mem) ∧
    (entryFault s n = none → eType e = 4 → ∃ t, exec (.halt n) s = .next t ∧ (t.rgn n).seq.phase = .halted ∧
      seqRunning t n = true ∧ SameRegsBut [Reg.SEQ_STATUS n] s t ∧ t.mem = s.mem ∧ t.cmds = s.cmds) ∧
    (entryFault s n = none → eType e = 1 → (s.rgn n).seq.order = none →
      s.activeSlot n ≠ eSlot e ∨ isActive s n (eSlot e) = false →
      ∃ t, exec (.run n) s = .next t ∧ (t.rgn n).seq.order = some (eSlot e, eChipSw e) ∧ (t.rgn n).seq.phase = .start ∧
        t.fld (Reg.SEQ_STATUS n) Reg.SEQ_STATUS_WAIT_KIND = 3 ∧ t.fld (Reg.SEQ_STATUS n) Reg.SEQ_STATUS_WAIT_OBJ = eSlot e ∧
        SameRegsBut [Reg.SEQ_STATUS n] s t ∧ t.mem = s.mem) ∧
    (entryFault s n = none → eType e = 1 → (s.rgn n).seq.order = none → s.activeSlot n = eSlot e → isActive s n (eSlot e) = true →
      startActs e = [.issue 0 0] → ∃ t, exec (.run n) s = .next t ∧ (t.rgn n).seq.phase = .iterate ∧
        (t.rgn n).seq.idx = [0, 0, 0] ∧ (eSlot e, eSumEn e, eSumSem e) ∈ (t.rgn n).seq.running ∧
        SameRegsBut [Reg.SEQ_STATUS n] s t ∧ t.mem = s.mem) ∧
    (∀ (id : Nat) (c : Cmd), entryFault s n = some 0xFF → (s.rgn n).seq.cmd = some id → s.cmd id = some c → c.id = id →
      c.live = true → s.chipStage = 2 → ∀ i ∈ [Instr.load n, Instr.jump n, Instr.halt n, Instr.run n],
        ∃ t d, exec i s = .next t ∧ t.cmd id = some d ∧ d.phase = .ended ∧ d.status = 0xFF)) ∧
  (∀ (n : Rgn) (s s1 : State) (idx : List Nat), Awake s → s.pwr.hold = false → seqRunning s n = true →
    (s.rgn n).seq.phase = .iterate →
    let e := seqEntry s n
    let q := (s.rgn n).seq
    (entryIters e q.shapes = 0 → ((eS0 e).n = 0 ∨ (eS0 e).level ≠ 0) → ((eS1 e).n = 0 ∨ (eS1 e).level ≠ 0) → q.signals = [] →
      ∃ t, exec (.iteration n) s = .next t ∧ t.mem = s.mem ∧ SameRegsBut [Reg.SEQ_STATUS n] s t ∧
        (eBrEn e = false → (t.rgn n).seq.phase = .entry ∧ seqPc t n = min (seqPc s n + 1) 16383 ∧
          (seqPc s n = 16383 → (t.rgn n).seq.past = true)) ∧
        (eBrEn e = true → (t.rgn n).seq.phase = .branch ∧ seqPc t n = seqPc s n)) ∧
    (entryIters e q.shapes ≠ 0 → seqActs n e ((iterActs e q.shapes q.idx).drop q.took) s = (s1, true) →
      nextIdx e q.shapes q.idx = some idx → ∃ t, exec (.iteration n) s = .next t ∧ (t.rgn n).seq.idx = idx ∧
        (t.rgn n).seq.took = 0 ∧ t.regs = s1.regs ∧ t.mem = s1.mem ∧
        (idx.getD 2 0 = q.idx.getD 2 0 + 1 ∧ idx.getD 1 0 = q.idx.getD 1 0 ∧ idx.getD 0 0 = q.idx.getD 0 0 ∨
          idx.getD 2 0 = 0 ∧ dimTiles e q.shapes 2 ≤ q.idx.getD 2 0 + 1)))

/-- A summary token is queued and signals, a branch takes the oldest token of its slot and the row it chooses.
SUMMARY_TOKEN moves the token at the local scalar output of cell (0, 0) into the queue if it has room and the block is
on and not frozen; a token with SIG set adds 1 to SUM_SEM of its slot's running entry. BRANCH takes the oldest queued
token of the entry's slot, shows it in SEQ_SUMMARY and notifies the host; with none queued it waits (WAIT_KIND 4).
BRANCH_ANSWER continues at TARGET of the row that Table 5.8 chooses; with BR_MODE 0 that is the value clamped to the
rows. (05_sequencer.md) -/
def Obligations.SummariesAndBranches : Prop :=
  (∀ (n : Rgn) (b : Blk) (f : Flit) (s : State), Awake s → (s.cell n.val (64 * b.val)).sout[4] = some f →
    let q := (s.rgn n).seq
    (16 ≤ q.summary.length ∨ (s.rgn n).frozen.getLsbD b.val = true → exec (.summaryToken n b) s = .next s) ∧
    (q.summary.length < 16 → blockState s n b.val = 1 → (s.rgn n).frozen.getLsbD b.val = false → (f.sig = true → ∀ x, q.running.find? (fun y => y.1 == f.slot.val) = some x → x.2.1 = true →
        semValue s n x.2.2 < 2 ^ 32 - 1) → ∃ t, exec (.summaryToken n b) s = .next t ∧ SameOutsideCells n (fun c => c = 64 * b.val) s t ∧
      (t.cell n.val (64 * b.val)).sout[4] = none ∧
      (f.sig = false → (t.rgn n).seq.summary = q.summary ++ [f] ∧ SameRegsBut [Reg.SEQ_SUMMARY n] s t ∧ t.mem = s.mem ∧
        t.fld (Reg.SEQ_SUMMARY n) Reg.SEQ_SUMMARY_QUEUED = q.summary.length + 1) ∧
      (∀ x, f.sig = true → q.running.find? (fun y => y.1 == f.slot.val) = some x → x.2.1 = true → x.2.2 < 256 →
        (t.rgn n).seq.summary = q.summary ++ [f] ∧
          semValue t n x.2.2 = semValue s n x.2.2 + 1))) ∧
  (∀ (n : Rgn) (s : State), Awake s → seqRunning s n = true → (s.rgn n).seq.phase = .branch →
    stillOut s n (s.rgn n).seq.issued = [] →
    (takeSummary (eSlot (seqEntry s n)) (s.rgn n).seq.summary = none → ∃ t, exec (.branch n) s = .next t ∧
      (t.rgn n).seq.phase = .branch ∧ t.fld (Reg.SEQ_STATUS n) Reg.SEQ_STATUS_WAIT_KIND = 4 ∧
      SameRegsBut [Reg.SEQ_STATUS n] s t) ∧
    (∀ f rest, takeSummary (eSlot (seqEntry s n)) (s.rgn n).seq.summary = some (f, rest) →
      f ∈ (s.rgn n).seq.summary ∧ f.slot.val = eSlot (seqEntry s n) ∧
      ∃ t, exec (.branch n) s = .next t ∧ (t.rgn n).seq.phase = .answer ∧ (t.rgn n).seq.summary = rest ∧
        t.fld (Reg.SEQ_SUMMARY n) Reg.SEQ_SUMMARY_VALUE = f.data.toNat % 2 ^ 32 ∧
        t.fld (Reg.SEQ_SUMMARY n) Reg.SEQ_SUMMARY_SLOT = f.slot.val ∧ t.irqPending (evRgn n.val 1) = true ∧ t.mem = s.mem)) ∧
  (∀ (n : Rgn) (s : State), Awake s → seqRunning s n = true → (s.rgn n).seq.phase = .answer →
    fetchBad s n .branchRows = false →
    let e := seqEntry s n
    let row := fun i => planBranch s n (s.rgn n).seq.table (eBrPtr e + i)
    let v := BitVec.ofNat 32 (s.fld (Reg.SEQ_SUMMARY n) Reg.SEQ_SUMMARY_VALUE)
    (∀ i, i ≤ eBrN e → ebits (row i) 46 18 = 0) → eBrPtr e + eBrN e < 16384 →
    ∃ t, exec (.branchAnswer n) s = .next t ∧ (t.rgn n).seq.phase = .entry ∧ t.mem = s.mem ∧
      SameRegsBut [Reg.SEQ_STATUS n, Reg.SEQ_SUMMARY n] s t ∧ ∃ r, r ≤ eBrN e ∧
        t.fld (Reg.SEQ_SUMMARY n) Reg.SEQ_SUMMARY_ROW = r ∧ seqPc t n = ebits (row r) 32 14 ∧
        (eBrMode e = 0 → (v.toInt < 0 → r = 0) ∧ (0 ≤ v.toInt → r = min v.toInt.toNat (eBrN e))) ∧
        (eBrMode e = 2 → (∀ i, i < r → ¬ v.toInt < (BitVec.ofNat 32 (ebits (row i) 0 32)).toInt) ∧
          (r < eBrN e → v.toInt < (BitVec.ofNat 32 (ebits (row r) 0 32)).toInt)))

/-! ### Tile movement and the fold channel (06_tiers.md, 07_fold.md) -/

/-- READ, WRITE and COPY issue one request for the next tile of a descriptor in progress. A descriptor in progress
with tiles left, whose signal check passes and whose next tile lies in the region's own space with something in range
and fewer than 32 requests at the tile's controller: READ issues a read of that tile; WRITE issues a write of a tile
whose 256 flits have arrived; COPY writes the tile whose turn it is once it has been read, and reads the next one
until then. Registers and memory are as before. A tile that fails a check of R167 ends the command with the check's
status. (06_tiers.md) -/
def Obligations.TileMoverIssuesRequests : Prop :=
  ∀ (n : Rgn) (d : Nat) (x : Desc) (s : State), Awake s → inProgress s n d = some x → s.pwr.hold = false →
    signalBad s n x = false →
    let issued := fun (t : State) (tier tile k : Nat) (write : Bool) (data : List Byte) =>
      t.regs = s.regs ∧ t.mem = s.mem ∧ t.cmds = s.cmds ∧ ∃ q, (t.rgn n).reqs = (s.rgn n).reqs ++ [q] ∧ q.desc = some x.id ∧
        q.cmd = x.cmd ∧ q.tier = tier ∧ q.addr = 4096 * tile ∧ q.tile = k ∧ q.write = write ∧ q.data = data ∧ q.tick = s.now ∧
        q.killed = false
    (∀ tier tile, x.kind = 1 → x.next < x.count → placeOf s n x false x.next = .here tier tile →
      noneIn (tileMask x x.next) = false → atLimit s n (tileCtl tier tile) = false → (∀ b ∈ x.blockList, blockFenced s n b = false) →
      ∃ t, exec (.read n d) s = .next t ∧ issued t tier tile x.next false []) ∧
    (∀ tier tile b, x.kind = 2 → x.next < x.count → collected x x.next = some b → placeOf s n x false x.next = .here tier tile →
      noneIn (tileMask x x.next) = false → atLimit s n (tileCtl tier tile) = false →
      b.length = 4096 ∧ ∃ t, exec (.write n d) s = .next t ∧ issued t tier tile x.next true b) ∧
    (∀ tier tile y, x.kind = 3 → x.buf.find? (fun y => y.1 == x.wrote) = some y → placeOf s n x true x.wrote = .here tier tile →
      atLimit s n (tileCtl tier tile) = false → ∃ t, exec (.copy n d) s = .next t ∧ issued t tier tile x.wrote true y.2) ∧
    (∀ tier tile, x.kind = 3 → (∀ y ∈ x.buf, y.1 ≠ x.wrote) → x.next < x.count → placeOf s n x false x.next = .here tier tile →
      atLimit s n (tileCtl tier tile) = false → ∃ t, exec (.copy n d) s = .next t ∧ issued t tier tile x.next false []) ∧
    (∀ cause status off id c, x.kind = 1 → x.next < x.count → placeOf s n x false x.next = .bad cause status off →
      x.cmd = some id → s.cmd id = some c → c.id = id → c.live = true → s.chipStage = 2 →
      ∃ t e, exec (.read n d) s = .next t ∧ t.cmd id = some e ∧ e.phase = .ended ∧ e.status = status)

/-- A tier answer delivers or stores its tile, a late one is counted, and a timeout ends the command. TIER_RESPONSE of
the oldest request of a near or herd controller: of a read it gives its descriptor the tile's in-range bytes; of a
whole-tile write it stores exactly the tile's 4,096 bytes; of a cancelled request it only counts LATE. REQUEST_TIMEOUT
of an overdue request ends its command with ST_TIER_TIMEOUT and keeps the request as cancelled. DESCRIPTOR_COMPLETE
takes the descriptor away and applies its signal. PATROL_SCRUB of a line that is not poisoned counts a pass at the
last line, and a corrected line. (06_tiers.md) -/
def Obligations.TierAnswersAndTimeouts : Prop :=
  (∀ (n : Rgn) (r : Nat) (q : Req) (s : State), Awake s → (s.rgn n).reqs.find? (fun y => y.id == r) = some q → q.remote = none →
    q.tier = 1 ∨ q.tier = 2 → isOldest s n q = true →
    let a := tileAddr n.val q.tier (q.addr / 4096)
    let gone := fun (t : State) => (t.rgn n).reqs = (s.rgn n).reqs.filter fun y => y.id != r
    (q.killed = true → ∀ out, ∃ t, exec (.tierResponse n r out) s = .next t ∧ gone t ∧ SameRegsBut [Reg.TM_STATUS n] s t ∧
      t.mem = s.mem ∧ t.fld (Reg.TM_STATUS n) Reg.TM_STATUS_LATE = min (s.fld (Reg.TM_STATUS n) Reg.TM_STATUS_LATE + 1) 0xFFFF) ∧
    (∀ d, q.killed = false → q.write = false → q.desc = some d → (∀ i, i < 64 → a / 64 + i ∉ s.poison) →
      ∃ t, exec (.tierResponse n r .ok) s = .next t ∧ gone t ∧ t.mem = s.mem ∧ t.regs = s.regs ∧
        ∀ x ∈ (s.rgn n).descs, x.id = d → ∃ z ∈ (t.rgn n).descs, z.id = d ∧
          z.buf = x.buf ++ [(q.tile, maskBytes (reqMask s n q) (readTile s (s.partOf n) n.val q.tier (q.addr / 4096)))]) ∧
    (∀ d, q.killed = false → q.write = true → q.desc = some d → q.data.length = 4096 → allIn (reqMask s n q) = true →
      (reqMask s n q).length = 4096 →
      ∃ t, exec (.tierResponse n r .ok) s = .next t ∧ gone t ∧ Holds t a q.data ∧ SameBytesBut a 4096 s t ∧ t.regs = s.regs ∧
        ∀ l ∈ t.poison, l < a / 64 ∨ a / 64 + 64 ≤ l)) ∧
  (∀ (n : Rgn) (r id : Nat) (q : Req) (c : Cmd) (s : State), Awake s → (s.rgn n).reqs.find? (fun y => y.id == r) = some q →
    q.killed = false → q.remote = none → q.tick + tierTimeout s n q.tier ≤ s.now → q.cmd = some id → s.cmd id = some c → c.id = id →
    c.live = true → s.chipStage = 2 → q.desc ≠ none ∨ isImageOp c.opcode = false →
    ∃ t e, exec (.requestTimeout n r) s = .next t ∧ t.cmd id = some e ∧ e.phase = .ended ∧ e.status = 0x31 ∧
      ∃ y ∈ (t.rgn n).reqs, y.id = r ∧ y.killed = true) ∧
  (∀ (n : Rgn) (d : Nat) (x : Desc) (s : State), Awake s → inProgress s n d = some x → descDone s n x = true →
    remoteCircuit s n x = none → (s.rgn n).seq.signals = [] →
    (x.sigEn = false → ∃ t, exec (.descriptorComplete n d) s = .next t ∧ SameRegsBut [Reg.TM_STATUS n] s t ∧ t.mem = s.mem ∧
      (t.rgn n).descs = (s.rgn n).descs.filter (fun y => y.id != d)) ∧
    (x.sigEn = true → semValue s x.sigRgn x.sigSem + x.sigN < 2 ^ 32 → ∃ t, exec (.descriptorComplete n d) s = .next t ∧
      semValue t x.sigRgn x.sigSem = semValue s x.sigRgn x.sigSem + x.sigN ∧ t.mem = s.mem ∧
      SameRegsBut [Reg.TM_STATUS n, semAddr x.sigRgn x.sigSem] s t)) ∧
  (∀ (n : Rgn) (near : Bool) (line : Nat) (s : State), Awake s →
    let a := if near then Reg.NEAR_SCRUB n else Reg.HERD_SCRUB n
    s.flag a Reg.NEAR_SCRUB_ENABLE = true → line < 64 * tierCap s n (if near then 1 else 2) →
    tileAddr n.val (if near then 1 else 2) 0 / 64 + line ∉ s.poison →
    (∃ t, exec (.patrolScrub n near line .clean) s = .next t ∧ SameButRegs [a] s t ∧
      t.fld a Reg.NEAR_SCRUB_PASSES = min (s.fld a Reg.NEAR_SCRUB_PASSES +
        (if line + 1 = 64 * tierCap s n (if near then 1 else 2) then 1 else 0)) (2 ^ 32 - 1)) ∧
    (s.chipStage = 2 → ∃ t, exec (.patrolScrub n near line .corrected) s = .next t ∧
      t.fld (eccReg n near) Reg.NEAR_ECC_CE = min (s.fld (eccReg n near) Reg.NEAR_ECC_CE + 1) (2 ^ 32 - 1)))

/-- A unit write is acknowledged into the buffer, programmed, and read back; a failing codeword ends its command.
UNIT_WRITE_ACK of a descriptor's write on a channel with room stores the tile's 4,096 bytes and the unit's mapping
entry and no other byte, maps its unit at the page with the tile valid and not poisoned, raises ACKED by one and
buffers the write; under the power-fail hold the request is only held. PROGRAM_COMPLETE of the write whose program its
LUN performs marks it programmed, and it leaves the buffer with the last page of its wordline (a failed one goes to
the page named, and its block is retired); DURABLE is the number before the oldest write still buffered.
ERASE_COMPLETE of a block with no valid unit, no read and nothing in progress on its LUN raises its PE and clears its
read count. CODEWORD_READ of the read that its LUN performs delivers a mapped tile's bytes and counts the read;
unmapped tiles give zeros; a failure ends the command with ST_TIER_ERROR. RETENTION_SCRUB reads a block that holds
data once in each period. (07_fold.md) -/
def Obligations.FoldWritesProgramsAndReads : Prop :=
  (∀ (n : Rgn) (r phys : Nat) (lost : BitVec 4) (q : Req) (s : State), Awake s → (s.rgn n).reqs.find? (fun y => y.id == r) = some q → q.tier = 3 →
    q.write = true → q.remote = none → q.killed = false →
    let tile := q.addr / 4096
    let seq := s.fld (Reg.FOLD_SEQ n) Reg.FOLD_SEQ_ACKED
    ((s.rgn n).fold.hold = true → r ∉ (s.rgn n).fold.held → ∃ t, exec (.unitWriteAck n r phys lost) s = .next t ∧
      (t.rgn n).fold.held = (s.rgn n).fold.held ++ [r] ∧ t.regs = s.regs ∧ t.mem = s.mem ∧ (t.rgn n).reqs = (s.rgn n).reqs) ∧
    ((s.rgn n).fold.hold = false → s.flag (Reg.FOLD_STATUS n) Reg.FOLD_STATUS_READ_ONLY = false →
      (s.rgn n).fold.wbuf.length < wbufLimit s n → pageFree s n phys = true → q.data.length = 4096 → seq + 1 < 2 ^ 32 →
      q.desc ≠ none → tile < tierCap s n 3 →
      ∃ t u, exec (.unitWriteAck n r phys lost) s = .next t ∧ Holds t (tileAddr n.val 3 tile) q.data ∧
        Holds t (entryAddr n (tile / 4)) (leBytes 4 (tableEntry u)) ∧
        (∀ a, a < tileAddr n.val 3 tile ∨ tileAddr n.val 3 tile + 4096 ≤ a →
          a < entryAddr n (tile / 4) ∨ entryAddr n (tile / 4) + 4 ≤ a → t.byte a = s.byte a) ∧
        t.fld (Reg.FOLD_SEQ n) Reg.FOLD_SEQ_ACKED = seq + 1 ∧
        t.fld (Reg.FOLD_SEQ n) Reg.FOLD_SEQ_DURABLE = s.fld (Reg.FOLD_SEQ n) Reg.FOLD_SEQ_DURABLE ∧
        unitOf (t.rgn n).fold (tile / 4) = some u ∧ u.phys = phys ∧ u.seq = seq + 1 ∧ u.mask.getLsbD (tile % 4) = true ∧
        u.poison.getLsbD (tile % 4) = false ∧ (t.rgn n).reqs = (s.rgn n).reqs.filter (fun y => y.id != r) ∧
        (t.rgn n).fold.wbuf.map FoldWrite.seq = (s.rgn n).fold.wbuf.map FoldWrite.seq ++ [seq + 1])) ∧
  (∀ (n : Rgn) (u phys : Nat) (w : FoldWrite) (s : State), Awake s → programOf s n u = some w →
    let shown := fun (t : State) =>
      ((t.rgn n).fold.wbuf = [] → t.fld (Reg.FOLD_SEQ n) Reg.FOLD_SEQ_DURABLE = s.fld (Reg.FOLD_SEQ n) Reg.FOLD_SEQ_ACKED) ∧
      ∀ v l, (t.rgn n).fold.wbuf = v :: l → t.fld (Reg.FOLD_SEQ n) Reg.FOLD_SEQ_DURABLE = (v.seq + (2 ^ 32 - 1)) % 2 ^ 32
    let others := fun (t : State) => (∀ v ∈ (s.rgn n).fold.wbuf, v.prog = false → v ≠ w → v ∈ (t.rgn n).fold.wbuf) ∧
      ∀ v ∈ (t.rgn n).fold.wbuf, v.prog = false → v ∈ (s.rgn n).fold.wbuf ∧ v ≠ w
    (∃ t, exec (.programComplete n u true phys) s = .next t ∧ others t ∧ shown t ∧ (t.rgn n).fold.units = (s.rgn n).fold.units ∧
      t.mem = s.mem ∧
      ((∃ p ∈ wordline s n w.phys, p ≠ w.phys ∧ pageDone s n p = false) → { w with prog := true } ∈ (t.rgn n).fold.wbuf) ∧
      (w.phys ∈ (s.rgn n).fold.spent → (∀ y ∈ (s.rgn n).fold.wbuf, y ≠ w → y.phys ≠ w.phys) →
        (∀ p ∈ wordline s n w.phys, p ≠ w.phys → pageDone s n p = true) → { w with prog := true } ∉ (t.rgn n).fold.wbuf)) ∧
    (∀ x, pageFree s n phys = true → physBlock s n phys ≠ physBlock s n w.phys → unitOf (s.rgn n).fold u = some x → x.mask ≠ 0 →
      x.seq = w.seq →
      ∃ t, exec (.programComplete n u false phys) s = .next t ∧ others t ∧ shown t ∧ SameBytesButEntries n [x] s t ∧
        unitOf (t.rgn n).fold u = some { x with phys := phys } ∧ (blockOf t n (physBlock s n w.phys)).st = 5 ∧
        (physBlock s n w.phys, true) ∈ (t.rgn n).fold.badList)) ∧
  (∀ (n : Rgn) (blk : Nat) (s : State), Awake s → s.chipStage = 2 → blk < foldTotal s n → (blockOf s n blk).st < 4 →
    unitsIn s n blk = [] → readInFlight s n blk = false → oldPageIn s n blk = false → lunIdle s n blk = true →
    (∃ t, exec (.eraseComplete n blk true) s = .next t ∧ (blockOf t n blk).pe = (blockOf s n blk).pe + 1 ∧
      (blockOf t n blk).reads = 0 ∧ (blockOf t n blk).st = 0 ∧ blk ∉ (t.rgn n).fold.refresh) ∧
    (∃ t, exec (.eraseComplete n blk false) s = .next t ∧ (blockOf t n blk).st = 5 ∧ (blk, true) ∈ (t.rgn n).fold.badList ∧
      t.mem = s.mem)) ∧
  (∀ (n : Rgn) (r d : Nat) (q : Req) (s : State), Awake s → (s.rgn n).reqs.find? (fun y => y.id == r) = some q → q.tier = 3 →
    q.write = false → q.remote = none → q.killed = false →
    let tile := q.addr / 4096
    let performs := fun (u : FoldUnit) => lunOp s n (lunOf s n (q.blk.getD (physBlock s n u.phys))) = some (.read r)
    (∀ u x, unitOf (s.rgn n).fold (tile / 4) = some u → u.mask.getLsbD (tile % 4) = true → u.poison.getLsbD (tile % 4) = false →
      performs u → q.desc = some d → x ∈ (s.rgn n).descs → x.id = d →
      ∃ t, exec (.codewordRead n r .hard) s = .next t ∧ t.regs = s.regs ∧ t.mem = s.mem ∧
        let b := q.blk.getD (physBlock s n u.phys)
        (blockOf t n b).reads = (blockOf s n b).reads + 1 ∧
        ∃ z ∈ (t.rgn n).descs, z.id = d ∧ z.buf = x.buf ++ [(q.tile, readTile s (s.partOf n) n.val 3 tile)]) ∧
    (∀ x, unitOf (s.rgn n).fold (tile / 4) = none → q.desc = some d → x ∈ (s.rgn n).descs → x.id = d →
      ∃ t, exec (.codewordRead n r .hard) s = .next t ∧ t.regs = s.regs ∧ t.mem = s.mem ∧
        ∃ z ∈ (t.rgn n).descs, z.id = d ∧ z.buf = x.buf ++ [(q.tile, List.replicate 4096 0)]) ∧
    (∀ u id c, unitOf (s.rgn n).fold (tile / 4) = some u → u.mask.getLsbD (tile % 4) = true → performs u → q.cmd = some id →
      s.cmd id = some c → c.id = id → c.live = true → s.chipStage = 2 → q.desc ≠ none ∨ isImageOp c.opcode = false →
      ∃ t e, exec (.codewordRead n r .fail) s = .next t ∧ t.cmd id = some e ∧ e.phase = .ended ∧ e.status = 0x30)) ∧
  (∀ (n : Rgn) (blk : Nat) (s : State), Awake s → unitsIn s n blk ≠ [] → (blockOf s n blk).scrub ≠ scrubPeriod s n →
    lunIdle s n blk = true → refreshWaits s n blk = false →
    ∃ t, exec (.retentionScrub n blk .hard) s = .next t ∧ (blockOf t n blk).reads = (blockOf s n blk).reads + 1 ∧
      (blockOf t n blk).scrub = scrubPeriod s n ∧ t.regs = s.regs ∧ t.mem = s.mem)

/-- Relocation moves a block's units and changes no data but their table entries; checkpoints, flushes, recovery and
the mailbox act as stated. REFRESH_RELOCATION of a queued block, GARBAGE_COLLECTION of a full one and
STATIC_WEAR_LEVELLING beyond WL_DELTA give each valid unit of the block its page of those named, with the tiles that
could not be decoded poisoned, its new table entry, and no other byte of memory changed; the block waits for no
refresh, and one that has had an uncorrectable read is bad. A due PERIODIC_CHECKPOINT empties the journal.
FOLD_FLUSH_DONE makes DURABLE equal ACKED; FOLD_FLUSH_TIMEOUT reports. FOLD_READY sets READY, shows the newest
sequence number that was kept, and writes the table. A mailbox GO with BUSY clear starts the operation, and
FOLD_MAILBOX_DONE gives its RESULT. (07_fold.md) -/
def Obligations.FoldUpkeepKeepsData : Prop :=
  (∀ (n : Rgn) (blk dst : Nat) (phys : List Nat) (lost : List (BitVec 4)) (s : State), Awake s →
    ((s.rgn n).fold.units.map FoldUnit.unit).Nodup → (∀ u ∈ (s.rgn n).fold.units, u.mask ≠ 0) → lunIdle s n blk = true →
    let moved := fun (t : State) => SameBytesButEntries n (unitsIn s n blk) s t ∧ t.keys = s.keys ∧ t.cmds = s.cmds ∧
      (∀ (i : Nat) (u : FoldUnit) (p : Nat), (unitsIn s n blk)[i]? = some u → phys[i]? = some p →
        unitOf (t.rgn n).fold u.unit = some { u with phys := p, poison := u.poison ||| (lost.getD i 0 &&& u.mask) }) ∧
      (∀ u ∈ (s.rgn n).fold.units, u ∉ unitsIn s n blk → unitOf (t.rgn n).fold u.unit = some u) ∧
      blk ∉ (t.rgn n).fold.refresh ∧ ((blockOf s n blk).ue = true → (blk, true) ∈ (t.rgn n).fold.badList)
    (blk ∈ (s.rgn n).fold.refresh → pagesOk pageFree s n blk phys = true →
      ∃ t, exec (.refreshRelocation n blk ⟨phys, lost⟩) s = .next t ∧ moved t) ∧
    ((blockOf s n blk).st = 2 → collectsNext s n (lunOf s n blk) = true ∨ refreshWaits s n blk = false →
      pagesOk pageFree s n blk phys = true → ∃ t, exec (.garbageCollection n blk ⟨phys, lost⟩) s = .next t ∧ moved t) ∧
    (phys = (List.range (unitsIn s n blk).length).map (blockPage s n dst) → pagesOk pageEmpty s n blk phys = true →
      refreshWaits s n blk = false → unitsIn s n blk ≠ [] → (blockOf s n dst).st = 0 →
      (blockOf s n blk).pe + s.fld (Reg.FOLD_LIMITS n) Reg.FOLD_LIMITS_WL_DELTA < maxPe (s.rgn n).fold →
      (∀ b ∈ (s.rgn n).fold.blocks, (unitsIn s n b.blk ≠ [] → (blockOf s n blk).pe ≤ b.pe) ∧
        (b.st = 0 → b.pe ≤ (blockOf s n dst).pe)) →
      ∃ t, exec (.staticWearLevelling n blk ⟨dst, lost⟩) s = .next t ∧ moved t)) ∧
  (∀ (n : Rgn) (s : State), Awake s →
    (67108864 ≤ (s.rgn n).fold.journal ∨ (s.rgn n).fold.lastCkpt + 60000000000 ≤ s.now → ∃ t, exec (.periodicCheckpoint n) s = .next t ∧
      (t.rgn n).fold.journal = 0 ∧ (t.rgn n).fold.lastCkpt = s.now ∧ (∀ b ∈ (t.rgn n).fold.blocks, b.saved = b.reads) ∧
      t.regs = s.regs ∧ t.mem = s.mem) ∧
    (s.flag (Reg.FOLD_STATUS n) Reg.FOLD_STATUS_FLUSHING = true → s.boot.pendingWarm = false →
      (∃ t, exec (.foldFlushDone n) s = .next t ∧ (t.rgn n).fold.wbuf = [] ∧ (t.rgn n).fold.clean = true ∧
        t.flag (Reg.FOLD_STATUS n) Reg.FOLD_STATUS_FLUSHING = false ∧ t.mem = s.mem ∧
        t.fld (Reg.FOLD_SEQ n) Reg.FOLD_SEQ_DURABLE = s.fld (Reg.FOLD_SEQ n) Reg.FOLD_SEQ_ACKED ∧
        SameRegsBut [Reg.FOLD_STATUS n, Reg.FOLD_SEQ n, Reg.FOLD_WEAR n] s t) ∧
      (s.chipStage = 2 → srcOff s (rgnSrc n.val 36) = false →
        let st := Reg.FLT_SRC_STAT (rgnSrc n.val 36)
        ∃ t, exec (.foldFlushTimeout n) s = .next t ∧
          t.fld st Reg.FLT_SRC_STAT_COUNT = min (s.fld st Reg.FLT_SRC_STAT_COUNT + 1) 255)) ∧
    (3 ≤ s.stage n → s.flag (Reg.FOLD_STATUS n) Reg.FOLD_STATUS_UNFORMATTED = false → foldTargets s n ≠ 0 →
      s.flag (Reg.FOLD_STATUS n) Reg.FOLD_STATUS_READY = false → (s.rgn n).fold.lastSeq < 2 ^ 32 →
      ((s.rgn n).fold.units.map FoldUnit.unit).Nodup →
      ∃ t, exec (.foldReady n) s = .next t ∧ t.flag (Reg.FOLD_STATUS n) Reg.FOLD_STATUS_READY = true ∧
        t.flag (Reg.BOOT_RGN n) Reg.BOOT_RGN_FOLD_READY = true ∧ t.irqPending (evRgn n.val 4) = true ∧
        SameBytesButEntries n (s.rgn n).fold.units s t ∧
        (∀ u ∈ (s.rgn n).fold.units, Holds t (entryAddr n u.unit) (leBytes 4 (tableEntry u))) ∧
        t.fld (Reg.FOLD_SEQ n) Reg.FOLD_SEQ_ACKED = (s.rgn n).fold.lastSeq ∧
        t.fld (Reg.FOLD_SEQ n) Reg.FOLD_SEQ_DURABLE = (s.rgn n).fold.lastSeq)) ∧
  (∀ (who : Requester) (n : Rgn) (v : Word) (s : State), Writes who (Reg.FOLD_MBX_CMD n) v s → Reg.FOLD_MBX_CMD_GO.get v = 1 →
    ∀ i ∈ [((1 : Nat), Instr.blockInfo), (2, Instr.checkpoint), (3, Instr.format), (4, Instr.badList)],
      Reg.FOLD_MBX_CMD_OP.get v = i.1 →
      ∃ t, exec (i.2 who n v) s = .next t ∧ SameRegsBut [Reg.FOLD_MBX_CMD n] s t ∧ t.mem = s.mem ∧
        t.flag (Reg.FOLD_MBX_CMD n) Reg.FOLD_MBX_CMD_BUSY = true ∧
        (t.rgn n).fold.mbxOp = (if s.flag (Reg.FOLD_MBX_CMD n) Reg.FOLD_MBX_CMD_BUSY then (s.rgn n).fold.mbxOp else
          some (i.1, s.reg (Reg.FOLD_MBX_ARG n),
            (decide (who = .companion) && !s.scope 3 && (decide (i.1 = 2) || decide (i.1 = 3)))))) ∧
  (∀ (n : Rgn) (op : Nat) (arg : Word) (refused ok : Bool) (s : State), Awake s → s.chipStage = 2 →
    (s.rgn n).fold.mbxOp = some (op, arg, refused) → 1 ≤ op → op ≤ 4 →
    ∃ t, exec (.foldMailboxDone n ok) s = .next t ∧ t.flag (Reg.FOLD_MBX_CMD n) Reg.FOLD_MBX_CMD_BUSY = false ∧
      (t.rgn n).fold.mbxOp = none ∧
      (let result := t.fld (Reg.FOLD_MBX_CMD n) Reg.FOLD_MBX_CMD_RESULT
       (refused = true → result = 4 ∧ t.mem = s.mem) ∧
       (refused = false → op = 1 → argOk s n arg = true → result = 1 ∧ t.mem = s.mem ∧
         t.fld (Reg.FOLD_MBX_RESP n) Reg.FOLD_MBX_RESP_PE = min 65535 (blockOf s n (argBlockNo s n arg)).pe) ∧
       (refused = false → op = 2 → (ok = true → result = 1 ∧ (t.rgn n).fold.journal = 0) ∧
         (ok = false → result = 5 ∧ (t.rgn n).fold.journal = (s.rgn n).fold.journal)) ∧
       (refused = false → op = 3 → ok = true → foldUsage s n = 0 → foldTotal s n ≠ 0 → result = 1 ∧ (t.rgn n).fold.units = [] ∧
         t.flag (Reg.FOLD_STATUS n) Reg.FOLD_STATUS_UNFORMATTED = false) ∧
       (refused = false → op = 4 → result = 1 ∧
         ((s.rgn n).fold.badList.length ≤ Reg.FOLD_MBX_ARG_BLOCK.get arg → t.reg (Reg.FOLD_MBX_RESP n) = 0x1FFFFF))))

/-! ### The cells (02_array.md, 03_arithmetic.md, 04_contexts.md) -/

/-- A pair of control and data leaves by the outputs its operation names. A cell that holds one vector flit, with the
control token of its slot in the pairing register: PASS sends the flit to the outputs of its route entry, SELECT to
the alternate set, TAKE_A and TAKE_B to the merge output, DROP to none. Each named output, all open and free, holds
the flit, the other outputs are as before, the input is empty, and the pair is done unless its unit goes on.
SWITCH_CONTEXT gives this cell alone the slot of its token; SIGNAL adds 1 to the semaphore its token names.
(04_contexts.md) -/
def Obligations.SteeredFlitsLeaveByTheirSet : Prop :=
  (∀ (n : Rgn) (ix : CellIx) (w : BitVec 16) (f : Flit) (s : State), Awake s →
    let c := s.cell n.val ix.val
    let k := w.toNat
    let x := c.slot (k % 4)
    let on := ctlUnit k && !(f.eot || f.eos)
    c.pair = some w → blockRuns s n (cellBlk ix.val) = true → f.slot.val = k % 4 →
    ∀ i ∈ [((0 : Nat), Instr.pass, x.aIn, routeSet (routeEntry x .vector x.aIn)), (1, Instr.select, x.aIn, x.alt (ctlArg k % 8)),
        (2, Instr.drop, x.aIn, 0), (3, Instr.takeA, x.aIn, x.mergeOut), (4, Instr.takeB, x.bIn, x.mergeOut)],
      ctlOp k = i.1 → c.queue .vector i.2.2.1 = [f] → QuietCell (c.setQueue .vector i.2.2.1 []) → (i.1 ≠ 2 → i.2.2.2 ≠ 0) →
      (∀ o, o < 9 → i.2.2.2.testBit o = true → c.out .vector o = none ∧ heldBy c o = none ∧
        ∀ cause, outTo s n ix.val .vector o ≠ .closed cause) →
      ∃ t, exec (i.2.1 n ix) s = .next t ∧ SameOutsideCell n ix.val s t ∧ (t.cell n.val ix.val).queue .vector i.2.2.1 = [] ∧
        (t.cell n.val ix.val).pair = (if on then some w else none) ∧
        ∀ o, o < 9 → (t.cell n.val ix.val).out .vector o = if i.2.2.2.testBit o then some f else c.out .vector o) ∧
  (∀ (n : Rgn) (ix : CellIx) (k : Nat) (s : State), Awake s → QuietCell (s.cell n.val ix.val) →
    localControl s n ix.val 5 = some k → ∃ t, exec (.switchContext n ix) s = .next t ∧ SameOutsideCell n ix.val s t ∧
      (t.cell n.val ix.val).active.val = ctlArg k % 4 ∧ (t.cell n.val ix.val).out .control 4 = none) ∧
  (∀ (n : Rgn) (b : Blk) (k : Nat) (s : State), Awake s → QuietCell (s.cell n.val (64 * b.val)) →
    localControl s n (64 * b.val) 6 = some k → semValue s n (ctlArg k % 256) < 2 ^ 32 - 1 →
    ∃ t, exec (.signal n b) s = .next t ∧ semValue t n (ctlArg k % 256) = semValue s n (ctlArg k % 256) + 1 ∧
      (t.cell n.val (64 * b.val)).out .control 4 = none ∧ SameOutsideCells n (fun c => c = 64 * b.val) s t ∧
      SameRegsBut [Reg.CTX_SLOT_STATE n, semAddr n (ctlArg k % 256)] s t ∧ SameBytes s t)

/-- A link transfer moves the token at an output to the input it leads to. LINK_TRANSFER on a cell's output without a
parity error: the token leaves the output and stands alone at the input of the cell the link leads to, both cells
being quiet, the receiving slot not being flushed and the receiver unable to route it on at once; with a parity error
of a masked or recorded severity zero stands there in its place and the receiver is poisoned; of whatever receiver
with room, the output is free after it. A token at an output that leads nowhere open leaves it and the command that
issued it does not commit. An output without a token, and a block that does not run, change nothing. On an injection
link the flit of the oldest descriptor, or the oldest token that the switch holds, enters cell (0, y) or (0, 0); on an
ejection link whose turn it is the flit at cell (7, y) goes to its WRITE. (02_array.md) -/
def Obligations.AHopMovesOneToken : Prop :=
  ∀ (n : Rgn) (c : CellIx) (pl : Plane) (o : Fin 9) (s : State), Awake s →
    let x := s.cell n.val c.val
    (x.out pl o.val = none → blockRuns s n (c.val / 64) = true → QuietCell x →
        ∃ t, exec (.linkTransfer n (.cell c pl o) false) s = .next t ∧ SameOutsideCell n c.val s t) ∧
    (blockRuns s n (c.val / 64) = false → exec (.linkTransfer n (.cell c pl o) false) s = .next s) ∧
    (∀ (f : Flit) (m : Rgn) (d i : Nat), x.out pl o.val = some f → blockRuns s n (c.val / 64) = true →
      outTo s n c.val pl o.val = .cell m d i → blockRuns s m (d / 64) = true → (m ≠ n ∨ d ≠ c.val) → d < 576 → i < planePorts pl →
      QuietCell x → QuietCell (s.cell m.val d) → f.bad = false → f.vlc.toNat ≤ 32 →
      s.flag (Reg.CTX_FLUSH m) (flushingFld f.slot.val) = false →
      look (cellSlotState s m (s.cell m.val d)) d ((s.cell m.val d).setQueue pl i [f]) pl i = .wait →
      ∃ t, exec (.linkTransfer n (.cell c pl o) false) s = .next t ∧ (t.cell n.val c.val).out pl o.val = none ∧
        (t.cell m.val d).queue pl i = [f] ∧ SameRegsBut [Reg.CTX_SLOT_STATE n, Reg.CTX_SLOT_STATE m] s t ∧ SameBytes s t ∧
        ∀ q e, e < 576 → (q ≠ n ∨ e ≠ c.val) → (q ≠ m ∨ e ≠ d) → t.cell q.val e = s.cell q.val e) ∧
    (∀ (f : Flit) (m : Rgn) (d i : Nat), x.out pl o.val = some f → blockRuns s n (c.val / 64) = true →
      outTo s n c.val pl o.val = .cell m d i → blockRuns s m (d / 64) = true → (m ≠ n ∨ d ≠ c.val) → d < 576 → i < planePorts pl →
      QuietCell x → QuietCell (s.cell m.val d) → s.chipStage = 2 → s.sev (rgnSrc m.val (3 * (d / 64) + 1)) ≤ 2 →
      s.flag (Reg.CTX_FLUSH m) (flushingFld f.slot.val) = false →
      let g : Flit := { f with data := 0, vlc := 0, perr := 0, sub := true }
      look (cellSlotState s m (s.cell m.val d)) d ((s.cell m.val d).setQueue pl i [g]) pl i = .wait →
      ∃ t, exec (.linkTransfer n (.cell c pl o) true) s = .next t ∧ (t.cell n.val c.val).out pl o.val = none ∧
        (t.cell m.val d).queue pl i = [g] ∧ (t.cell m.val d).poison = true) ∧
    (∀ (f : Flit) (m : Rgn) (d i : Nat), x.out pl o.val = some f → blockRuns s n (c.val / 64) = true →
      outTo s n c.val pl o.val = .cell m d i → blockRuns s m (d / 64) = true → (m ≠ n ∨ d ≠ c.val) → d < 576 →
      (s.cell m.val d).room pl i = true → QuietCell x →
      ∃ t, exec (.linkTransfer n (.cell c pl o) false) s = .next t ∧ (t.cell n.val c.val).out pl o.val = none) ∧
    (∀ (f : Flit) (cause id : Nat) (e : Cmd), x.out pl o.val = some f → blockRuns s n (c.val / 64) = true →
      outTo s n c.val pl o.val = .closed cause → QuietCell x → (s.rgn n).plan = some id → s.cmd id = some e → e.id = id →
      e.phase = .running → s.chipStage = 2 →
      ∃ t d, exec (.linkTransfer n (.cell c pl o) false) s = .next t ∧ t.cmd id = some d ∧ d.phase = .ended) ∧
    (∀ (b : Blk) (y : Fin 8) (k : Nat) (f : Flit) (d : Desc) (l : List Desc), blockRuns s n b.val = true →
      let e := 64 * b.val + 8 * y.val
      QuietCell (s.cell n.val e) → controlWaits s n b.val = false ∨ aged s n b.val = true → (s.rgn n).descs = d :: l →
      nextFlit d b.val y.val = some (k, f) → s.flag (Reg.CTX_FLUSH n) (flushingFld f.slot.val) = false →
      look (cellSlotState s n (s.cell n.val e)) e ((s.cell n.val e).setQueue .vector 8 [f]) .vector 8 = .wait →
      ∃ t, exec (.linkTransfer n (.inject b y) false) s = .next t ∧ SameOutsideCell n e s t ∧
        (t.cell n.val e).queue .vector 8 = [f] ∧ tileAge t n b.val = 0 ∧
        ∃ z ∈ (t.rgn n).descs, z.id = d.id ∧ linkCount z b.val y.val = linkCount d b.val y.val + 1) ∧
    (∀ (b : Blk) (p : Nat × Flit), blockRuns s n b.val = true → QuietCell (s.cell n.val (64 * b.val)) →
      tileWaits s n b.val = false ∨ aged s n b.val = false → p.2.bad = false → p.2.vlc.toNat ≤ 32 →
      s.flag (Reg.CTX_FLUSH n) (flushingFld p.2.slot.val) = false →
      let e := 64 * b.val
      let waits := fun (pl : Plane) => look (cellSlotState s n (s.cell n.val e)) e ((s.cell n.val e).setQueue pl 4 [p.2]) pl 4 = .wait
      (waits .scalar → (s.rgn n).sclOut.find? (fun q => q.1 == b.val) = some p → ∃ t, exec (.linkTransfer n (.injectScalar b) false) s = .next t ∧
        SameOutsideCell n e s t ∧ (t.cell n.val e).queue .scalar 4 = [p.2] ∧ (t.rgn n).sclOut = (s.rgn n).sclOut.erase p) ∧
      (waits .control → (s.rgn n).ctlOut.find? (fun q => q.1 == b.val) = some p → ∃ t, exec (.linkTransfer n (.injectControl b) false) s = .next t ∧
        SameOutsideCell n e s t ∧ (t.cell n.val e).queue .control 4 = [p.2] ∧ (t.rgn n).ctlOut = (s.rgn n).ctlOut.erase p)) ∧
    (∀ (b : Blk) (y : Fin 8) (k : Nat) (f : Flit) (d : Desc), blockRuns s n b.val = true → ejectReady s n b.val y.val = some (f, d, k) →
      ejectTurn s n b.val y.val = true → QuietCell (s.cell n.val (ejectCell b.val y.val)) → f.bad = false → f.vlc.toNat ≤ 32 →
      ∃ t, exec (.linkTransfer n (.eject b y) false) s = .next t ∧ SameOutsideCell n (ejectCell b.val y.val) s t ∧
        (t.cell n.val (ejectCell b.val y.val)).out .vector 8 = none ∧
        ∃ z ∈ (t.rgn n).descs, z.id = d.id ∧ (k, f.data) ∈ z.got)

/-- Every micro-op that may issue runs whole and moves its slot's program counter. A well-formed micro-op of a quiet
cell that has taken the tokens it names, whatever its operands and its destination, runs in the step. Unless it uses
the store of a cell with retired granules, or sends tokens to closed outputs, the program counter goes to the next
micro-op, or to 0 at the end of the program, the program and the other slots are as before, and nothing outside the
cell changes but the slot states. The last vector flit that it names is taken from the local output in the same step;
with no token there it waits and nothing changes. MMA_COMPLETE frees the banks of its slot. A reserved micro-op does
nothing but set the poison flag and move on. (03_arithmetic.md) -/
def Obligations.MicroOpsIssueAndAdvance : Prop :=
  (∀ (n : Rgn) (ix : CellIx) (sl : Slot) (s : State),
    ∀ i ∈ [(opNop, Instr.nopMicroOp), (opMma, Instr.mma), (opMov, Instr.mov), (opCvt, Instr.cvt), (opMxscale, Instr.mxscale),
        (opSetp, Instr.setp), (opSeed, Instr.seed), (opAdd, Instr.add), (opSub, Instr.sub), (opMul, Instr.mul), (opFma, Instr.fma),
        (opMax, Instr.max), (opMin, Instr.min), (opNeg, Instr.neg), (opAbs, Instr.abs), (opCmp, Instr.cmp), (opSel, Instr.sel),
        (opExp2, Instr.exp2), (opLog2, Instr.log2), (opRcp, Instr.rcp), (opRsqrt, Instr.rsqrt), (opSilu, Instr.silu),
        (opGelu, Instr.gelu), (opSubexp, Instr.subexp), (opRedRow, Instr.redRow), (opRedCol, Instr.redCol), (opNstat, Instr.nstat),
        (opNfin, Instr.nfin), (opFlags, Instr.flags), (opSummary, Instr.summary)],
      let c := s.cell n.val ix.val
      let u := uopAt c sl.val
      let moved := fun (t : State) => SameOutsideCell n ix.val s t ∧
        ((t.cell n.val ix.val).slot sl.val).pc = nextPc (c.slot sl.val) u ∧
        ((t.cell n.val ix.val).slot sl.val).vtok = [] ∧ ((t.cell n.val ix.val).slot sl.val).stok = none ∧
        ((t.cell n.val ix.val).slot sl.val).prog = (c.slot sl.val).prog ∧ (t.cell n.val ix.val).active = c.active ∧
        (∀ k : Slot, k ≠ sl → (t.cell n.val ix.val).slot k.val = c.slot k.val) ∧
        (sendsFlits u = false → sendsTokens u = false → QuietCell (t.cell n.val ix.val)) ∧
        (i.1 = opMma → (u.acb, sl.val) ∈ (t.cell n.val ix.val).bank) ∧ (i.1 ≠ opMma → (t.cell n.val ix.val).bank = c.bank)
      MayIssue s n ix sl i.1 →
      (TokensTaken (c.slot sl.val) u →
        ∃ t, exec (i.2 n ix sl) s = .next t ∧ (NoRetired s n ix u → OutputsOpen s n ix sl u → moved t)) ∧
      (∀ f, (c.slot sl.val).vtok.length + 1 = flitsA u + flitsB u → needsScalar u = false → c.out .vector 8 = some f → f.slot = sl →
        f.bad = false → ∃ t, exec (i.2 n ix sl) s = .next t ∧ (NoRetired s n ix u → OutputsOpen s n ix sl u → moved t)) ∧
      ((c.slot sl.val).vtok.length < flitsA u + flitsB u → needsScalar u = false → c.out .vector 8 = none →
        exec (i.2 n ix sl) s = .next s)) ∧
  (∀ (n : Rgn) (ix : CellIx) (sl : Slot) (s : State), Awake s → blockRuns s n (cellBlk ix.val) = true →
    ((s.cell n.val ix.val).bank.any fun b => b.2 == sl.val) = true →
    ∃ t, exec (.mmaComplete n ix sl) s = .next t ∧ SameOutsideCells n (fun c => c = ix.val) s t ∧ t.regs = s.regs ∧ t.mem = s.mem ∧
      (t.cell n.val ix.val).bank = (s.cell n.val ix.val).bank.filter (fun b => b.2 != sl.val) ∧
      (t.cell n.val ix.val).acc = (s.cell n.val ix.val).acc) ∧
  (∀ (n : Rgn) (ix : CellIx) (sl : Slot) (s : State), Awake s → QuietCell (s.cell n.val ix.val) →
    let c := s.cell n.val ix.val
    uopBad c sl.val = true → mayIssue s n ix.val sl.val 0 = true → s.sev (rgnSrc n.val (3 * cellBlk ix.val)) ≤ 2 → s.chipStage = 2 →
    ∃ t, exec (.reservedMicroOp n ix sl) s = .next t ∧ (t.cell n.val ix.val).poison = true ∧
      ((t.cell n.val ix.val).slot sl.val).pc = (if (c.slot sl.val).pc = 63 then 0 else (c.slot sl.val).pc + 1) ∧
      (t.cell n.val ix.val).regs = c.regs ∧ (t.cell n.val ix.val).acc = c.acc)

/-- Integer operations saturate, NaN and the special arguments give their stated results, SETP and SEED set their
state, FLAGS and SUMMARY send a scalar token. With FMT INT32, one element, register operands, no mask and no
broadcast, ADD, SUB, MUL, FMA, MAX, MIN, NEG and ABS leave in lane 0 of D the exact result saturated to 32 bits; the
other lanes of D and every other register are as before; MOV and SEL leave the element they take, and CMP its bit of a
mask register. In FP32 a NaN in lane 0 of A leaves the canonical quiet NaN and sets NANIN, and the table functions
give the special values of their table. MMA of one k-value of INT8 adds 64 products. SETP sets the stream pointer from
lane 0 of A, SEED sets the LFSR, 0 giving 1. FLAGS sends the sticky flags as a scalar token to the outputs of its
slot's route entry, here the local output, and clears them if AUX says so; SUMMARY sends its token there too.
(03_arithmetic.md) -/
def Obligations.OperationsGiveTheirResults : Prop :=
  (∀ (n : Rgn) (ix : CellIx) (sl : Slot) (s : State),
    let c := s.cell n.val ix.val
    let u := uopAt c sl.val
    ∀ i ∈ [(opAdd, Instr.add, (fun a b _ => a + b : Int → Int → Int → Int)), (opSub, Instr.sub, fun a b _ => a - b),
        (opMul, Instr.mul, fun a b _ => a * b), (opFma, Instr.fma, fun a b d => a * b + d), (opMax, Instr.max, fun a b _ => max a b),
        (opMin, Instr.min, fun a b _ => min a b), (opNeg, Instr.neg, fun a _ _ => -a), (opAbs, Instr.abs, fun a _ _ => a.natAbs)],
      MayFire s n ix sl i.1 → u.fmt = 6 → u.cnt = 1 → u.ak = 0 → u.bk = 0 → u.dk = 0 → u.men = false → u.bcast = 0 →
      ∃ t, exec (i.2.1 n ix sl) s = .next t ∧
        lane0Of (t.cell n.val ix.val) u.d = BitVec.ofInt 32 (max (-2 ^ 31) (min (2 ^ 31 - 1)
          (i.2.2 (lane0Of c u.a).toInt (lane0Of c u.b).toInt (lane0Of c u.d).toInt))) ∧
        (Assoc.get zeroWord (t.cell n.val ix.val).regs u.d).toNat / 2 ^ 32 = (Assoc.get zeroWord c.regs u.d).toNat / 2 ^ 32 ∧
        ∀ r, r ≠ u.d → Assoc.get zeroWord (t.cell n.val ix.val).regs r = Assoc.get zeroWord c.regs r) ∧
  (∀ (n : Rgn) (ix : CellIx) (sl : Slot) (s : State),
    let c := s.cell n.val ix.val
    let u := uopAt c sl.val
    let cell := fun (t : State) => t.cell n.val ix.val
    u.cnt = 1 → u.ak = 0 → u.men = false →
    (u.fmt = 6 → u.dk = 0 →
      (MayFire s n ix sl opMov → ∃ t, exec (.mov n ix sl) s = .next t ∧ lane0Of (cell t) u.d = lane0Of c u.a) ∧
      (MayFire s n ix sl opSel → u.bk = 0 → u.bcast = 0 → ∃ t, exec (.sel n ix sl) s = .next t ∧
        lane0Of (cell t) u.d = if (Assoc.get zeroAcc c.masks u.msk).getLsbD 0 then lane0Of c u.a else lane0Of c u.b)) ∧
    (u.fmt = 6 → u.dk = 3 → 8 ≤ u.d → u.bk = 0 → u.bcast = 0 → MayFire s n ix sl opCmp →
      ∃ t, exec (.cmp n ix sl) s = .next t ∧
        (∀ x ∈ [((0 : Nat), decide (lane0Of c u.a = lane0Of c u.b)), (1, decide (lane0Of c u.a ≠ lane0Of c u.b)),
            (2, (lane0Of c u.a).slt (lane0Of c u.b)), (3, (lane0Of c u.a).sle (lane0Of c u.b)),
            (4, (lane0Of c u.b).slt (lane0Of c u.a)), (5, (lane0Of c u.b).sle (lane0Of c u.a))],
          u.mode = x.1 → (Assoc.get zeroAcc (cell t).masks (u.d - 8)).getLsbD 0 = x.2) ∧
        (∀ k, 0 < k → (Assoc.get zeroAcc (cell t).masks (u.d - 8)).getLsbD k = (Assoc.get zeroAcc c.masks (u.d - 8)).getLsbD k) ∧
        ∀ m, m ≠ u.d - 8 → Assoc.get zeroAcc (cell t).masks m = Assoc.get zeroAcc c.masks m) ∧
    (u.fmt = 0 → u.dk = 0 →
      (∀ i ∈ [(opMov, Instr.mov), (opNeg, Instr.neg), (opAbs, Instr.abs), (opExp2, Instr.exp2), (opLog2, Instr.log2), (opRcp, Instr.rcp),
          (opRsqrt, Instr.rsqrt), (opSilu, Instr.silu), (opGelu, Instr.gelu)],
        MayFire s n ix sl i.1 → (decodeElem 0 (lane0Of c u.a).toNat).isNan = true →
        ∃ t, exec (i.2 n ix sl) s = .next t ∧ lane0Of (cell t) u.d = 0x7FC00000 ∧
          (cell t).flags = c.flags ||| flagNan.word) ∧
      ∀ i ∈ [(opExp2, Instr.exp2, (0x7F800000 : BitVec 32), (0x7F800000 : BitVec 32)), (opExp2, Instr.exp2, 0xFF800000, 0),
          (opLog2, Instr.log2, 0, 0xFF800000), (opLog2, Instr.log2, 0x7F800000, 0x7F800000), (opRcp, Instr.rcp, 0, 0x7F800000),
          (opRcp, Instr.rcp, 0xFF800000, 0x80000000), (opRsqrt, Instr.rsqrt, 0x7F800000, 0), (opSilu, Instr.silu, 0x7F800000, 0x7F800000),
          (opGelu, Instr.gelu, 0x7F800000, 0x7F800000)],
        MayFire s n ix sl i.1 → u.sat = false → lane0Of c u.a = i.2.2.1 →
        ∃ t, exec (i.2.1 n ix sl) s = .next t ∧ lane0Of (cell t) u.d = i.2.2.2) ∧
    (u.fmt = 5 → u.bk = 0 → MayFire s n ix sl opMma → ∃ t, exec (.mma n ix sl) s = .next t ∧
      ∀ i j : Fin 8,
        let k := 64 * u.acb + 8 * i.val + j.val
        let old := if u.acz then 0 else Assoc.get zeroAcc c.acc k
        let row := BitVec.ofNat 8 ((Assoc.get zeroWord c.regs u.a).toNat / 2 ^ (16 * i.val))
        let col := BitVec.ofNat 8 ((Assoc.get zeroWord c.regs u.b).toNat / 2 ^ (16 * j.val))
        Assoc.get zeroAcc (cell t).acc k = BitVec.ofInt 32 (max (-2 ^ 31) (min (2 ^ 31 - 1) (old.toInt + row.toInt * col.toInt))))) ∧
  (∀ (n : Rgn) (ix : CellIx) (sl : Slot) (s : State),
    let c := s.cell n.val ix.val
    let u := uopAt c sl.val
    let a := (lane0Of c u.a).toNat
    (MayFire s n ix sl opSetp → u.ak = 0 → ∃ t, exec (.setp n ix sl) s = .next t ∧ (t.cell n.val ix.val).regs = c.regs ∧
      ∀ (h : u.d % 8 < 8), ((t.cell n.val ix.val).slot sl.val).ptrs[u.d % 8] =
        ⟨BitVec.ofNat 13 a, BitVec.ofNat 13 a, BitVec.ofNat 13 (a / 2 ^ 16)⟩) ∧
    (MayFire s n ix sl opSeed → u.ak = 0 → ∃ t, exec (.seed n ix sl) s = .next t ∧ (t.cell n.val ix.val).regs = c.regs ∧
      (t.cell n.val ix.val).lfsr = some (if lane0Of c u.a = 0 then 1 else lane0Of c u.a)) ∧
    (c.out .scalar 4 = none → routeSet (routeEntry (c.slot sl.val) .scalar 4) = 16 →
      (MayFire s n ix sl opFlags → ∃ t f, exec (.flags n ix sl) s = .next t ∧ SameOutsideCell n ix.val s t ∧
        (t.cell n.val ix.val).out .scalar 4 = some f ∧ f.slot = sl ∧ f.data.toNat = c.flags.toNat ∧
        (t.cell n.val ix.val).flags = (if u.aux.testBit 0 then 0 else c.flags)) ∧
      (MayFire s n ix sl opSummary → u.ak ≠ 1 → ∃ t f, exec (.summary n ix sl) s = .next t ∧ SameOutsideCell n ix.val s t ∧
        (t.cell n.val ix.val).out .scalar 4 = some f ∧ f.slot = sl ∧ f.bad = false)))

/-! ### The array's monitors and the experts (02_array.md, 04_contexts.md, 09_experts.md) -/

/-- Rate windows, stalls, retired granules, fenced blocks and scan accesses leave what their rules say. RATE_WINDOW
shows the count and one more window. STALL of a region that stalls is counted by its source once. GRANULE_RETIRE of a
worn granule adds it to the cell's list, unless it is retired already; of a sound one it does nothing. BLOCK_FENCE
with its cause makes the block failed, off and blank; of a failed block, or without its cause, it does nothing. A
SCAN_DATA write to a listed word of a frozen block changes that cell alone, and either half of a register reads back
as written; a word of a retired granule takes no data; an access anywhere else sets SCAN_STATUS.ERROR and changes no
cell. A read changes no cell; both move the address under AUTO_INC. (02_array.md, 04_contexts.md) -/
def Obligations.ArrayMonitorsAndScan : Prop :=
  (∀ (n : Rgn) (steps : BitVec 32) (s : State), Awake s → s.domOn (rgnDom n.val) = false → exec (.rateWindow n steps) s = .next s) ∧
  (∀ (n : Rgn) (steps : BitVec 32) (s : State), Awake s → s.domOn (rgnDom n.val) = true →
    ∃ t, exec (.rateWindow n steps) s = .next t ∧ SameButRegs [Reg.RGN_RATE n] s t ∧
      t.fld (Reg.RGN_RATE n) Reg.RGN_RATE_STEPS = steps.toNat % 2 ^ Reg.RGN_RATE_STEPS.w ∧
      t.fld (Reg.RGN_RATE n) Reg.RGN_RATE_WINDOWS = (s.fld (Reg.RGN_RATE n) Reg.RGN_RATE_WINDOWS + 1) % 2 ^ Reg.RGN_RATE_WINDOWS.w) ∧
  (∀ (n : Rgn) (s : State), Awake s → s.chipStage = 2 →
    (stalls s n = false → exec (.stall n) s = .next s) ∧
    (stalls s n = true → srcOff s (rgnSrc n.val 27) = false → ∃ t, exec (.stall n) s = .next t ∧ (t.rgn n).stalled = true ∧
      (let st := Reg.FLT_SRC_STAT (rgnSrc n.val 27)
       t.fld st Reg.FLT_SRC_STAT_COUNT = min (s.fld st Reg.FLT_SRC_STAT_COUNT + 1) 255))) ∧
  (∀ (n : Rgn) (c : CellIx) (g : Fin 96) (s : State), Awake s → s.chipStage = 2 →
    (wornGranule (s.cell n.val c.val) g.val = false → exec (.granuleRetire n c g) s = .next s) ∧
    (wornGranule (s.cell n.val c.val) g.val = true → ∃ t, exec (.granuleRetire n c g) s = .next t ∧ (t.cell n.val c.val).field =
      if g.val ∈ retired s n.val c.val then (s.cell n.val c.val).field else (s.cell n.val c.val).field ++ [g.val])) ∧
  (∀ (n : Rgn) (b : Blk) (cause : FenceCause) (s : State), Awake s → blockState s n b.val = 3 ∨ fenceDue s n b.val cause = false →
    exec (.blockFence n b cause) s = .next s) ∧
  (∀ (n : Rgn) (b : Blk) (cause : FenceCause) (s : State), Awake s → s.chipStage = 2 → blockState s n b.val ≠ 3 →
    fenceDue s n b.val cause = true → Assoc.wf cellDefault s.cells = true →
    ∃ t, exec (.blockFence n b cause) s = .next t ∧ blockState t n b.val = 3 ∧ t.domOn (blkDom n.val b.val) = false ∧
      (t.rgn n).fold.fences = (s.rgn n).fold.fences ++ [b.val] ∧
      ∀ c, c < 576 → c / 64 = b.val → (t.cell n.val c).regs = [] ∧ (t.cell n.val c).store = []) ∧
  (∀ (who : Requester) (n : Rgn) (v : Word) (s : State), Writes who (Reg.SCAN_DATA n) v s →
    (∀ ix w, scanTarget s n = some (ix, w) → ∃ t, exec (.scanDataWrite who n v) s = .next t ∧
      SameRegsBut [Reg.SCAN_ADDR n] s t ∧ t.mem = s.mem ∧ (∀ m c, c < 576 → m ≠ n ∨ c ≠ ix → t.cell m.val c = s.cell m.val c) ∧
      (0x100 ≤ w → w < 0x1C0 → (w - 0x100) % 3 ≠ 2 → scanWord t n ix w = some v.toNat) ∧
      (scanRetired s n ix w = true → t.cells = s.cells) ∧
      (s.flag (Reg.SCAN_CTRL n) Reg.SCAN_CTRL_AUTO_INC = true → t.fld (Reg.SCAN_ADDR n) Reg.SCAN_ADDR_WORD = (w + 1) % 2 ^ 15)) ∧
    (scanTarget s n = none → ∃ t, exec (.scanDataWrite who n v) s = .next t ∧ t.cells = s.cells ∧ t.mem = s.mem ∧
      SameRegsBut [Reg.SCAN_ADDR n, Reg.SCAN_STATUS n] s t ∧ t.flag (Reg.SCAN_STATUS n) Reg.SCAN_STATUS_ERROR = true)) ∧
  (∀ (who : Requester) (n : Rgn) (s : State), Awake s → accessCheck who false (Reg.SCAN_DATA n) 8 0 s = .ok →
    ∃ t, exec (.scanDataRead who n) s = .next t ∧ SameButRegs [Reg.SCAN_ADDR n, Reg.SCAN_STATUS n] s t ∧
      (scanTarget s n = none → t.flag (Reg.SCAN_STATUS n) Reg.SCAN_STATUS_ERROR = true) ∧
      (∀ x, scanTarget s n = some x → t.reg (Reg.SCAN_STATUS n) = s.reg (Reg.SCAN_STATUS n)))

/-- DISPATCH and COMBINE take their wait, do their round and signal; no expert gets more tokens than seats. A route
job of the running plan whose wait can be taken and whose tiles are in the tier and sound: the wait is subtracted, the
signal added, and JOB names the next job. DISPATCH also raises ROUND by one and shows in DROPPED how many rows got
fewer than TOPK seats; every other row has exactly TOPK placements, each at a seat below SEATS. COMBINE leaves ROUND
and DROPPED alone. A read of the job that times out ends the command with ST_TIER_TIMEOUT, and one that cannot be
corrected with ST_TIER_ERROR. (09_experts.md) -/
def Obligations.RouteJobsRun : Prop :=
  ∀ (n : Rgn) (j : List Byte) (s : State), Awake s → seqRunning s n = true →
    let q := (s.rgn n).seq
    q.jobs[q.jobIx]? = some j → jWaitN j ≤ semValue s n (jWaitSem j) → jWaitSem j ≠ jSigSem j →
    semValue s n (jSigSem j) + jSigN j < 2 ^ 32 → (∀ r ∈ jobRanges j, r.1 + r.2 ≤ tierCap s n 1) →
    (∀ l ∈ jobReads s n j, l ∉ s.poison) → (jKind j = 1 → jTokens j q.shapes ≤ jRows j) →
    let next := if q.jobs.length ≤ q.jobIx + 1 then 0 else q.jobIx + 1
    let a := Reg.MOE_STATUS n
    let after := fun (t : State) => semValue t n (jWaitSem j) = semValue s n (jWaitSem j) - jWaitN j ∧
      semValue t n (jSigSem j) = semValue s n (jSigSem j) + jSigN j ∧ (t.rgn n).seq.jobIx = next ∧
      t.fld a Reg.MOE_STATUS_JOB = next % 2 ^ Reg.MOE_STATUS_JOB.w ∧ t.cmds = s.cmds ∧ t.cells = s.cells ∧
      SameRegsBut [a, semAddr n (jWaitSem j), semAddr n (jSigSem j)] s t
    (jKind j = 1 →
      let r := placeRows (jSeats j) (jTopk j) ((List.range (jTokens j q.shapes)).map (candidates s n j))
        (List.replicate 256 ⟨0, 0, 0⟩)
      (∀ l pl, l ∈ r.1 → l = some pl → pl.length = jTopk j ∧ ∀ p ∈ pl, p.2 < jSeats j) ∧
      ∀ place, ∃ t, exec (.dispatch ⟨n, .ok, place⟩) s = .next t ∧ after t ∧
        t.fld a Reg.MOE_STATUS_ROUND = (s.fld a Reg.MOE_STATUS_ROUND + 1) % 2 ^ Reg.MOE_STATUS_ROUND.w ∧
        t.fld a Reg.MOE_STATUS_DROPPED = (r.1.filter Option.isNone).length % 2 ^ Reg.MOE_STATUS_DROPPED.w) ∧
    (jKind j = 2 → ∀ place, ∃ t, exec (.combine ⟨n, .ok, place⟩) s = .next t ∧ after t ∧ t.fld a Reg.MOE_STATUS_ROUND = s.fld a Reg.MOE_STATUS_ROUND ∧
      t.fld a Reg.MOE_STATUS_DROPPED = s.fld a Reg.MOE_STATUS_DROPPED) ∧
    (∀ place id c, place < (jobReads s n j).length → q.cmd = some id → s.cmd id = some c → c.id = id → c.live = true →
      s.chipStage = 2 →
      let ends := fun (i : Instr) (status : BitVec 8) => ∃ t e, exec i s = .next t ∧ t.cmd id = some e ∧ e.phase = .ended ∧
        e.status = status.toNat
      (jKind j = 1 → ends (.dispatch ⟨n, .timeout, place⟩) 0x31 ∧ ends (.dispatch ⟨n, .uncorrectable, place⟩) 0x30) ∧
      (jKind j = 2 → ends (.combine ⟨n, .timeout, place⟩) 0x31 ∧ ends (.combine ⟨n, .uncorrectable, place⟩) 0x30))

/-! ### The Axium port and lent memory (14_axium.md) -/

/-- A port trains, says HELLO, retries and loses its circuits as Table 14.3 and the retry and loss rules say.
LANE_SIGNAL takes an enabled DOWN port to TRAINING; AXIUM_LINK_TRAINED to LINKED with 128 credits a channel and SEQ 0,
or back to DOWN; AXIUM_LINK_DOWN to TRAINING with the bound circuits LOST. A flit's ACK frees the replay buffer up to
the flit it names; a replay request sends the rest again; a flit that cannot be taken is counted and one replay
request goes out. PATH_DOWN and a timeout lose the circuit and end its commands. Probes, HELLO and FAB_CHIP_ID act as
their rules say. (14_axium.md) -/
def Obligations.LinksComeUpAndRetry : Prop :=
  ∀ (n : Rgn) (s : State), Awake s →
    let ps := Reg.FAB_PORT_STATUS n
    let p := (s.rgn n).port
    (portEnabled s n = true → portState s n = portDown →
      ∃ t, exec (.laneSignal n) s = .next t ∧ portState t n = portTraining ∧ SameButRegs [ps] s t) ∧
    (portState s n = portTraining →
      (∃ t, exec (.axiumLinkTrained n true) s = .next t ∧ portState t n = portLinked ∧ SameRegsBut [ps] s t ∧ t.mem = s.mem ∧
        (let q := (t.rgn n).port
         q.nextSeq = 0 ∧ q.credits = Vector.replicate 2 128 ∧ q.signing = true ∧ q.nonce.length = 32 ∧ q.circuits = p.circuits) ∧
        (s.sec.queue.length < 64 → tqHello n.val ∈ t.sec.queue)) ∧
      ∃ t, exec (.axiumLinkTrained n false) s = .next t ∧ portState t n = portDown ∧ SameButRegs [ps] s t) ∧
    (∀ cause, portLinked ≤ portState s n → portState s n ≤ portFailed → s.chipStage = 2 →
      (downDue s n cause = true → ∃ t, exec (.axiumLinkDown n cause) s = .next t ∧ portState t n = portTraining ∧
        (t.rgn n).port.replay = [] ∧ (t.rgn n).port.waiting = [] ∧ (t.rgn n).port.signing = false ∧
        t.fld ps Reg.FAB_PORT_STATUS_DOWNS = min (s.fld ps Reg.FAB_PORT_STATUS_DOWNS + 1) 65535 ∧
        ∀ x ∈ p.circuits, x.index < 4096 → circState s n x.index = circBound → circState t n x.index = circLost) ∧
      (downDue s n cause = false → exec (.axiumLinkDown n cause) s = .next s)) ∧
    (∀ h : FlitHdr, linkOpen s n = true →
      (∃ t, exec (.idleFlit n h) s = .next t ∧ t.regs = s.regs ∧ t.mem = s.mem ∧ t.cmds = s.cmds ∧
        (p.waiting = [] → ∀ l f r, p.replay = l ++ f :: r → f.seq = h.ack → (∀ g ∈ l, g.seq ≠ h.ack) →
          (t.rgn n).port.replay = r ∧ (t.rgn n).port.sent = p.sent ∧
          (t.rgn n).port.credits = Vec.modify p.credits (if h.creditVc then 1 else 0) (· + h.credits.toNat))) ∧
      (∃ t l, exec (.replayRequest n h) s = .next t ∧ (t.rgn n).port.sent = l ++ (t.rgn n).port.replay ∧
        t.fld (Reg.FAB_LINK_ERR n) Reg.FAB_LINK_ERR_REPLAYS =
          min (s.fld (Reg.FAB_LINK_ERR n) Reg.FAB_LINK_ERR_REPLAYS + 1) 65535 ∧ SameRegsBut [Reg.FAB_LINK_ERR n] s t ∧ t.mem = s.mem) ∧
      (circState s n h.circuit.val = circBound → s.chipStage = 2 →
        ∃ t, exec (.pathDown n h) s = .next t ∧ circState t n h.circuit.val = circLost ∧
          t.fld ps Reg.FAB_PORT_STATUS_LOST = min (s.fld ps Reg.FAB_PORT_STATUS_LOST + 1) 65535 ∧ portState t n = portState s n ∧
          ∀ id ∈ circCmds s n h.circuit.val, ∃ d, t.cmd id = some d ∧ d.phase = .ended ∧ d.status = 0x32)) ∧
    (∀ kind : FlitError, linkOpen s n = true →
      let a := Reg.FAB_LINK_ERR n
      ∃ t, exec (.flitError n kind) s = .next t ∧ (t.rgn n).port.discarding = true ∧ SameRegsBut [a] s t ∧ t.mem = s.mem ∧
        (kind = .fec → t.fld a Reg.FAB_LINK_ERR_FEC_UNCORR = min (s.fld a Reg.FAB_LINK_ERR_FEC_UNCORR + 1) 65535) ∧
        (kind = .crc → t.fld a Reg.FAB_LINK_ERR_CRC = min (s.fld a Reg.FAB_LINK_ERR_CRC + 1) 65535) ∧
        (if kind = .sequence ∧ p.discarding = true then (t.rgn n).port.sent = p.sent
          else ∃ f, (t.rgn n).port.sent = p.sent ++ [f] ∧ f.kind = 2 ∧ f.ack = p.lastGood ∧ f.payload = [])) ∧
    (∀ (c : Fin 4096) (x : Circuit), circOf s n c.val = some x →
      let fc := Reg.FAB_CIRC n c.val
      let probed := fun (cmd : Option Nat) (t : State) => SameRegsBut [fc, ps] s t ∧ t.mem = s.mem ∧
        (∃ a ∈ (t.rgn n).port.asks, a.circuit = c.val ∧ a.type = 0x10 ∧ a.cmd = cmd ∧ a ∉ p.asks) ∧
        circOf t n c.val = some { x with probed := some s.now, retry := none }
      ((∀ a ∈ p.asks, a.tick < s.now) → (circState s n c.val = circBound → 0 < circUse s n c.val → x.probed = none →
        x.lastRx + probeTicks s n ≤ s.now → ∃ t, exec (.probeTimer n c) s = .next t ∧ probed none t) ∧
        (∀ u, circState s n c.val = circBinding → x.retry = some u → u ≤ s.now → ∃ t, exec (.bindReprobe n c) s = .next t ∧ probed x.cmd t)) ∧
      (circState s n c.val = circBinding → x.first + circTimeout s n ≤ s.now → ∃ t, exec (.circuitTimeout n c) s = .next t ∧
        circState t n c.val = circFree ∧ circOf t n c.val = none ∧
        ∀ id d, x.cmd = some id → s.cmd id = some d → d.live = true → ∃ e, t.cmd id = some e ∧ e.phase = .ended ∧ e.status = 0x33) ∧
      (∀ u, circState s n c.val = circBound → x.probed = some u → u + circTimeout s n ≤ s.now → s.chipStage = 2 →
        ∃ t, exec (.circuitTimeout n c) s = .next t ∧ circState t n c.val = circLost)) ∧
    (p.signing = true → portState s n = portLinked → (tahrQueue s (tqHello n.val)).head? = some (tqHello n.val) →
      let valid := s.flag Reg.FAB_CHIP_ID Reg.FAB_CHIP_ID_VALID
      ∃ t, exec (.helloSigned n) s = .next t ∧ portState t n = portHello ∧ SameRegsBut [ps] s t ∧ t.mem = s.mem ∧
        t.flag ps Reg.FAB_PORT_STATUS_ID_WAIT = !valid ∧ (t.rgn n).port.helloValid = valid ∧ (t.rgn n).port.signing = false ∧
        ∃ a ∈ (t.rgn n).port.asks, a.type = 0x20) ∧
    (∀ nonce : List Byte, portState s n = portHello →
      (∃ t, exec (.hello n nonce false) s = .next t ∧ (t.rgn n).port.peerNonce = nonce ∧ (t.rgn n).port.signing = true ∧
        t.regs = s.regs ∧ t.mem = s.mem) ∧
      (∃ t, exec (.hello n nonce true) s = .next t ∧ SameRegsBut [Reg.FAB_RX_DROP n] s t ∧ (t.rgn n).port.peerNonce = p.peerNonce ∧
        t.fld (Reg.FAB_RX_DROP n) Reg.FAB_RX_DROP_REFUSED = min (s.fld (Reg.FAB_RX_DROP n) Reg.FAB_RX_DROP_REFUSED + 1) 65535)) ∧
    (∀ (who : Requester) (v : Word), Writes who Reg.FAB_CHIP_ID v s →
      (s.flag Reg.FAB_CHIP_ID Reg.FAB_CHIP_ID_LOCKED = true → exec (.fabChipId who v) s = .next s) ∧
      (s.flag Reg.FAB_CHIP_ID Reg.FAB_CHIP_ID_LOCKED = false → ∃ t, exec (.fabChipId who v) s = .next t ∧
        t.fld Reg.FAB_CHIP_ID Reg.FAB_CHIP_ID_ID = Reg.FAB_CHIP_ID_ID.get v ∧ t.mem = s.mem ∧
        t.fld Reg.FAB_CHIP_ID Reg.FAB_CHIP_ID_VALID = Reg.FAB_CHIP_ID_VALID.get v ∧
        t.flag Reg.FAB_CHIP_ID Reg.FAB_CHIP_ID_LOCKED = false ∧
        SameRegsBut (Reg.FAB_CHIP_ID :: allRgns.map fun m => Reg.FAB_PORT_STATUS m) s t))

/-- Tile requests, signals and lending messages are served on a bound circuit, and answers reach their requests. PROBE
is answered ACK by an entry that names its sender, else NAK UNBOUND. A request on any other entry is counted in
UNBOUND and answered NAK UNBOUND. TILE_GET returns the tile, TILE_PUT stores its marked bytes and nothing else,
SYNC_SIGNAL adds to its semaphore or is STALE. TILE_DATA, ACK and NAK go to the request they name; an ACK to a HELLO
with VALID joins the port and locks the chip ID. LEND_ASK lends a free run, LEND_GRANT commits the borrow, LEND_RECALL
marks lots, returned lots are zeroed. (14_axium.md) -/
def Obligations.MessagesAreServed : Prop :=
  ∀ (n : Rgn) (m : AxMsg) (s : State), Awake s → linkOpen s n = true →
    let drop := Reg.FAB_RX_DROP n
    let c := m.circuit.val
    let unbound := fun (t : State) => Sends n m 0x12 1 0 [] s t ∧ SameRegsBut [drop] s t ∧ t.mem = s.mem ∧ t.offers = s.offers ∧
      t.borrows = s.borrows ∧ t.fld drop Reg.FAB_RX_DROP_UNBOUND = min (s.fld drop Reg.FAB_RX_DROP_UNBOUND + 1) 65535
    ((circState s n c = circBound ∨ circState s n c = circBinding) ∧ fromPeer s n m = true →
      ∃ t, exec (.probe n m) s = .next t ∧ Sends n m 0x11 0 0 [] s t ∧ t.regs = s.regs ∧ t.mem = s.mem) ∧
    (¬ ((circState s n c = circBound ∨ circState s n c = circBinding) ∧ fromPeer s n m = true) →
      ∃ t, exec (.probe n m) s = .next t ∧ unbound t) ∧
    (onBound s n m = false → ∀ i ∈ [Instr.tileGet n m, .tilePut n m, .syncSignal n m, .lendAsk n m, .lendRecall n m, .lendReturn n m],
      ∃ t, exec i s = .next t ∧ unbound t) ∧
    (onBound s n m = true →
      let tier := gtaTier m.gta
      let a := tileAddr n.val tier (reqTile m)
      let awakeRegs := [Reg.PWR_STATUS, Reg.TAITH_STATUS]
      let id := BitVec.ofNat 32 (m.arg.toNat % 2 ^ 32)
      (∀ p, serve s n m = .tile p →
        (tilePoisoned s n.val tier (reqTile m) = false → ∃ t, exec (.tileGet n m) s = .next t ∧
          Sends n m 0x03 0 0 (readTile s p n.val tier (reqTile m)) s t ∧ SameRegsBut awakeRegs s t ∧ t.mem = s.mem) ∧
        (tilePoisoned s n.val tier (reqTile m) = true → s.chipStage = 2 → ∃ t, exec (.tileGet n m) s = .next t ∧
          Sends n m 0x12 4 0 [] s t) ∧
        ((∀ l ∈ s.poison, l < a / 64 ∨ a / 64 + 64 ≤ l) → ∃ t, exec (.tilePut n m) s = .next t ∧ Sends n m 0x11 0 0 [] s t ∧
          Holds t a (mergeBytes (putBits m) (readTile s p n.val tier (reqTile m)) (Config.fit 4096 m.data)) ∧
          SameBytesBut a 4096 s t ∧ SameRegsBut awakeRegs s t)) ∧
      (∀ k, serve s n m = .nak k → ∀ i ∈ [Instr.tileGet n m, .tilePut n m], ∃ t, exec i s = .next t ∧ Sends n m 0x12 k 0 [] s t ∧
        t.mem = s.mem ∧ SameRegsBut (drop :: awakeRegs) s t) ∧
      (let sem := m.arg.toNat % 256
       let k := m.arg.toNat / 256 % 16
       (taggedCmd s n m ≠ none → semValue s n sem + k < 2 ^ 32 → ∃ t, exec (.syncSignal n m) s = .next t ∧
         semValue t n sem = semValue s n sem + k ∧ Sends n m 0x11 0 0 [] s t ∧ SameRegsBut [semAddr n sem] s t ∧ t.mem = s.mem) ∧
       (taggedCmd s n m = none → ∃ t, exec (.syncSignal n m) s = .next t ∧ Sends n m 0x12 2 0 [] s t ∧ t.mem = s.mem ∧
         SameRegsBut [Reg.SEQ_STATUS n, drop] s t)) ∧
      ((∀ o ∈ s.offers, o.id ≠ id) → ∃ t, exec (.lendAsk n m) s = .next t ∧ Sends n m 0x12 6 0 [] s t ∧ t.offers = s.offers) ∧
      (∀ o ∈ s.offers, o.id = id → (∀ y ∈ s.offers, y.id = id → y = o) → o.rgn = n.val → o.withdrawn = false →
        s.partOf n = some o.part → let k := m.arg.toNat / 2 ^ 32 % 512
        0 < k → (∃ l, ∀ i, i < k → l + i ∈ idleLots s o) → ∃ t l o', exec (.lendAsk n m) s = .next t ∧
          (∀ i, i < k → l + i ∈ idleLots s o) ∧ Sends n m 0x09 0 (id.toNat + 2 ^ 32 * l) [] s t ∧ t.mem = s.mem ∧
          o' ∈ t.offers ∧ o'.id = id ∧ o'.lent = o.lent ++ (List.range k).map (fun i => (l + i, m.fromChip.toNat, c))) ∧
      (s.chipStage = 2 → srcOff s (rgnSrc n.val 44) = false → ∃ t, exec (.lendRecall n m) s = .next t ∧ Sends n m 0x11 0 0 [] s t ∧
        t.borrows.length = s.borrows.length ∧ (∀ b ∈ t.borrows, b.rgn = n.val → b.offer = id → b.circuit = c →
          b.recalled = true ∧ b.notice = some (s.now + 100000 * (m.arg.toNat / 2 ^ 32))) ∧
        (let st := Reg.FLT_SRC_STAT (rgnSrc n.val 44)
         t.fld st Reg.FLT_SRC_STAT_COUNT = min (s.fld st Reg.FLT_SRC_STAT_COUNT + 1) 255)) ∧
      (∀ o, s.offers.find? (fun o => o.id == id && o.rgn == n.val) = some o →
        let first := m.arg.toNat / 2 ^ 32 % 256
        let k := m.arg.toNat / 2 ^ 40 % 512
        let back := fun (x : Nat × Nat × Nat) => decide (first ≤ x.1) && decide (x.1 < first + k) && x.2.2 == c
        let inLot := fun (b : Nat) (x : Nat × Nat × Nat) => tileAddr n.val 2 (lotTiles * x.1) ≤ b ∧
          b < tileAddr n.val 2 (lotTiles * x.1) + 4096 * lotTiles
        ∃ t o', exec (.lendReturn n m) s = .next t ∧ Sends n m 0x11 0 0 [] s t ∧ o' ∈ t.offers ∧ o'.id = id ∧
          o'.lent = o.lent.filter (fun x => !back x) ∧
          (∀ x ∈ o.lent, back x = true → ∀ b, inLot b x → t.byte b = 0) ∧
          ∀ b, (∀ x ∈ o.lent, back x = true → ¬ inLot b x) → t.byte b = s.byte b)) ∧
    (∀ q, Answered n m q s →
      (∀ d x, q.desc = some d → x ∈ (s.rgn n).descs → x.id = d →
        (q.write = false → ∃ t, exec (.tileData n m) s = .next t ∧ t.mem = s.mem ∧
          (t.rgn n).reqs = (s.rgn n).reqs.filter (fun y => y.id != q.id) ∧
          SameRegsBut [Reg.FAB_CIRC n c, Reg.FAB_PORT_STATUS n, Reg.TM_STATUS n] s t ∧
          ∃ z ∈ (t.rgn n).descs, z.id = d ∧ z.buf = x.buf ++ [(q.tile, maskBytes (reqMask s n q) (Config.fit 4096 m.data))]) ∧
        (q.write = true → ∃ t, exec (.axiumAck n m) s = .next t ∧ t.mem = s.mem ∧
          (t.rgn n).reqs = (s.rgn n).reqs.filter (fun y => y.id != q.id) ∧
          SameRegsBut [Reg.FAB_CIRC n c, Reg.FAB_PORT_STATUS n, Reg.TM_STATUS n] s t ∧
          ∃ z ∈ (t.rgn n).descs, z.id = d ∧ z.acked = x.acked + 1 ∧ z.buf = x.buf)) ∧
      (∀ id d, q.cmd = some id → s.cmd id = some d → d.live = true → s.chipStage = 2 → ∃ t e, exec (.nak n m) s = .next t ∧
        t.cmd id = some e ∧ e.phase = .ended ∧ (m.cause = 1 → e.status = 0x33) ∧ (m.cause = 4 → e.status = 0x30) ∧
        (m.cause = 3 → reqLent s n q = true → e.status = 0x32))) ∧
    (∀ x, helloAsk s n m = some x → portState s n = portHello →
      ((s.rgn n).port.helloValid = true → ∃ t, exec (.axiumAck n m) s = .next t ∧ portState t n = portJoined ∧
        t.flag Reg.FAB_CHIP_ID Reg.FAB_CHIP_ID_LOCKED = true ∧ t.flag (Reg.BOOT_RGN n.val) Reg.BOOT_RGN_JOINED = true ∧ t.mem = s.mem ∧
        SameRegsBut [Reg.FAB_PORT_STATUS n, Reg.FAB_CHIP_ID, Reg.BOOT_RGN n.val] s t) ∧
      (s.chipStage = 2 → ∃ t, exec (.nak n m) s = .next t ∧ portState t n = portFailed)) ∧
    (∀ x id d e es, onBound s n m = true → (s.rgn n).reqs.find? (fun q => q.remote == some (c, m.reqId.toNat)) = none →
      (s.rgn n).port.asks.find? (fun x => x.circuit == c && x.id == m.reqId && x.type != axHello) = some x → x.type = 0x08 →
      x.cmd = some id → s.cmd id = some d → d.extents = e :: es → ∃ t, exec (.lendGrant n m) s = .next t ∧
        Committed d 0 (e.first / lotTiles) t ∧ t.borrows.length = s.borrows.length + e.tiles / lotTiles ∧ t.mem = s.mem) ∧
    (∀ (id : BitVec 32) (o : Offer) (u : Nat), s.offers.find? (fun o => o.id == id && o.rgn == n.val) = some o → o.notice = some u →
      u ≤ s.now → ∃ t o', exec (.withdrawNoticeExpiry n id) s = .next t ∧ o' ∈ t.offers ∧ o'.id = id ∧ o'.lent = [] ∧ o'.notice = none ∧
        (∀ x ∈ o.lent, ∀ b, tileAddr n.val 2 (lotTiles * x.1) ≤ b → b < tileAddr n.val 2 (lotTiles * x.1) + 4096 * lotTiles →
          t.byte b = 0) ∧
        ∀ r, r ≠ Reg.FAB_LEND_STATUS n → (∀ k, r ≠ Reg.FAB_CIRC n k) → t.reg r = s.reg r) ∧
    (∀ (id : BitVec 32) (b : Borrow) (u : Nat), b ∈ s.borrows → b.rgn = n.val → b.offer = id → b.notice = some u → u ≤ s.now →
      ∃ t, exec (.recallNoticeExpiry n id) s = .next t ∧ SameBytes s t ∧ (∀ y ∈ t.borrows, y.rgn = n.val → y.lot ≠ b.lot) ∧
        ∃ a ∈ (t.rgn n).port.asks, a.type = 0x0B ∧ a.circuit = b.circuit ∧ a.offer = b.offer)

/-! ### Power, cooling and the rack (16_power.md) -/

/-- Windows, voltage steps, power failure, coolant, trips, gating and the rack watchdog act as their rules say.
POWER_WINDOW takes its measurements, sets and ends each region's throttle and lowers a throttled region by a step.
PEAK_LIMIT lowers every region by 5 steps, PWRFAIL_N_FALL by 35 with the hold and the flushes; its rise releases the
hold unless the chip has stopped. A raise waits for VDD_CORE. Flow loss, inlet derating, sensor faults, the trip and
its shutdown, gating, deep idle, waking a block and the rack manager's watchdog act as stated. The conditions that
fail leave the machine as it was. (16_power.md) -/
def Obligations.PowerKeepsItsLimits : Prop :=
  (∀ (m : PowerSample) (s : State), Awake s → s.pwr.shut = false → s.chipStage = 2 →
    ∃ t, exec (.powerWindow m) s = .next t ∧ t.pwr.history = (m.packageW :: s.pwr.history).take 100 ∧
      t.fld Reg.PWR_MEAS Reg.PWR_MEAS_WINDOW_W = min 65535 m.packageW ∧
      t.fld Reg.PWR_MEAS Reg.PWR_MEAS_MEAN10_W = min 65535 (meanOf ((m.packageW :: s.pwr.history).take 100)) ∧
      ∀ n : Rgn, let hot := m.rgnTemp.getD n.val 0
        let lim := 10 * polNat s 0x32 1
        t.fld (Reg.PWR_RGN n.val) Reg.PWR_RGN_POWER = min 4095 (m.rgnPower.getD n.val 0) ∧
        t.fld (Reg.PWR_RGN n.val) Reg.PWR_RGN_TEMP = min 4095 hot ∧ vAct t n.val = vAct s n.val ∧
        (throttled t n.val = true ↔ if throttled s n.val then ¬ (hot + 20 ≤ lim ∧ hotStack m n.val 930 = false)
          else lim < hot ∨ hotStack m n.val 950 = true) ∧
        (throttled t n.val = true → 0 < vAct s n.val → (n.val, vAct s n.val - 1) ∈ t.pwr.changes)) ∧
  (∀ s : State, Awake s → s.chipStage = 2 →
    (s.pwr.shut = false → ∃ t, exec .peakLimit s = .next t ∧ (∀ n : Rgn, vAct t n.val = vAct s n.val - 5) ∧ t.pwr.changes = [] ∧
      t.fld Reg.PWR_EVENTS Reg.PWR_EVENTS_PEAK = min (s.fld Reg.PWR_EVENTS Reg.PWR_EVENTS_PEAK + 1) 65535) ∧
    (s.pins.pwrfailN = true → ∃ t, exec .pwrfailNFall s = .next t ∧ t.pins.pwrfailN = false ∧ t.pwr.hold = true ∧
      t.flag Reg.PWR_STATUS Reg.PWR_STATUS_PWRFAIL = true ∧ (∀ n : Rgn, vAct t n.val = vAct s n.val - 35) ∧
      (∀ n : Rgn, (t.rgn n).fold.hold = true ∧ (s.domOn (rgnDom n.val) = true →
        t.flag (Reg.FOLD_STATUS n) Reg.FOLD_STATUS_FLUSHING = true))) ∧
    (s.pins.pwrfailN = false → s.fatal = true → ∃ t, exec .pwrfailNRise s = .next t ∧ t.pins.pwrfailN = true ∧ t.pwr.hold = s.pwr.hold ∧
      SameRegsBut [Reg.PWR_STATUS, Reg.PWR_MEAS] s t ∧ t.mem = s.mem) ∧
    (s.pins.pwrfailN = false → s.fatal = false → s.boot.pendingWarm = false → (∀ n : Rgn, (s.rgn n).fold.held = []) →
      (∀ c ∈ s.cmds, c.phase = .running → isCopyOp c.opcode = false ∧ isImageOp c.opcode = false) → ∃ t, exec .pwrfailNRise s = .next t ∧ t.pins.pwrfailN = true ∧ t.pwr.hold = false ∧
        t.flag Reg.PWR_STATUS Reg.PWR_STATUS_PWRFAIL = false ∧ t.mem = s.mem ∧
        ∀ n : Rgn, (t.rgn n).fold.hold = false ∧ t.flag (Reg.FOLD_STATUS n) Reg.FOLD_STATUS_FLUSHING = false) ∧
    (s.pins.coolantOk = true → flowLoss s = false → ∃ t, exec .coolantOkFall s = .next t ∧ t.pins.coolantOk = false ∧
      flowLoss t = true ∧ t.flag Reg.PWR_STATUS Reg.PWR_STATUS_COOLANT_OK = false ∧
      t.fld Reg.PWR_EVENTS Reg.PWR_EVENTS_FLOW_LOSS = min (s.fld Reg.PWR_EVENTS Reg.PWR_EVENTS_FLOW_LOSS + 1) 65535) ∧
    (s.pins.coolantOk = false → s.pwr.flowOk = none → coolUsed s = false ∨ flowReads s = true →
      ∃ t, exec .coolantOkRise s = .next t ∧ t.pins.coolantOk = true ∧ flowLoss t = flowLoss s ∧ t.pwr.flowOk = some s.now ∧
        t.flag Reg.PWR_STATUS Reg.PWR_STATUS_COOLANT_OK = true ∧ SameRegsBut [Reg.PWR_STATUS, Reg.PWR_MEAS] s t ∧ t.mem = s.mem) ∧
    (s.flag Reg.PWR_COOL_CFG Reg.PWR_COOL_CFG_ENABLE = true → s.pwr.shut = false →
      (∀ tf : BitVec 16 × BitVec 16, ∃ t, exec (.coolantRead (some tf)) s = .next t ∧
        t.fld Reg.PWR_COOLANT Reg.PWR_COOLANT_INLET = tf.1.toNat ∧ t.fld Reg.PWR_COOLANT Reg.PWR_COOLANT_FLOW = tf.2.toNat ∧
        t.flag Reg.PWR_COOLANT Reg.PWR_COOLANT_STALE = false ∧ t.pwr.badReads = 0 ∧
        t.pwr.derate = (if 400 < tf.1.toInt ∧ tf.1.toInt < 450 then 20 * (tf.1.toInt - 400).toNat else 0)) ∧
      (∃ t, exec (.coolantRead none) s = .next t ∧ t.flag Reg.PWR_COOLANT Reg.PWR_COOLANT_STALE = true ∧
        t.pwr.badReads = s.pwr.badReads + 1 ∧
        (s.pwr.badReads < 2 → SameRegsBut [Reg.PWR_COOLANT, Reg.PWR_STATUS, Reg.PWR_MEAS] s t ∧ t.mem = s.mem) ∧
        (s.pwr.badReads = 2 → t.flag Reg.PWR_STATUS Reg.PWR_STATUS_SENSOR_ERR = true ∧ t.pwr.derate = 0))) ∧
    (s.pwr.tripAt = none → ∃ t, exec .thermalTrip s = .next t ∧ t.pwr.tripAt = some s.now ∧ t.pwr.hold = true ∧
      t.fld (Reg.FLT_SRC_STAT 7) Reg.FLT_SRC_STAT_COUNT = min (s.fld (Reg.FLT_SRC_STAT 7) Reg.FLT_SRC_STAT_COUNT + 1) 255) ∧
    (∀ u, s.pwr.tripAt = some u → s.pwr.shut = false →
      (anyFlushing s = true → s.now < u + 2500000 → exec .tripShutdown s = .next s) ∧
      (anyFlushing s = false ∨ u + 2500000 ≤ s.now → ∃ t, exec .tripShutdown s = .next t ∧ t.pins.thermtripN = false ∧
        t.pwr.shut = true ∧ t.mem = s.mem ∧ ∀ d, d < 168 → t.domOn d = decide (d = 160 ∨ d = 162 ∨ d = 163))) ∧
    (wdtTicks s ≠ 0 → s.pwr.wdtExpired = none → s.pwr.wdtFrom + wdtTicks s ≤ s.now → ∃ t, exec .rmWdtExpiry s = .next t ∧
      t.flag Reg.PWR_STATUS Reg.PWR_STATUS_RM_LOST = true ∧ t.pwr.wdtExpired = some s.now ∧ t.pwr.policy = s.pwr.policy) ∧
    (∀ u, s.pwr.wdtExpired = some u → u + polNat s 0x1C 4 ≤ s.now → s.flag Reg.PWR_STATUS Reg.PWR_STATUS_UNATTENDED = false →
      ∃ t, exec .rmHoldExpiry s = .next t ∧ t.flag Reg.PWR_STATUS Reg.PWR_STATUS_UNATTENDED = true ∧
        t.pwr.policy = unattendedProfile s ∧
        ∀ n : Rgn, vSet t n.val = leAt (unattendedProfile s) (0x20 + n.val) 1 % 64)) ∧
  (∀ (n : Rgn) (k : Nat) (rest : List (Nat × Nat)) (s : State), Awake s → s.pwr.changes = (n.val, k) :: rest → k ≤ 35 →
    let moved := fun (v : Nat) (t : State) => vAct t n.val = v ∧ SameRegsBut [Reg.PWR_RGN n.val] s t ∧ t.mem = s.mem ∧ t.cells = s.cells
    (vAct s n.val < k → s.pwr.vddCore < coreFor (max (vAct s n.val + 1) (topCode s)) → exec (.voltageStepDone n) s = .next s) ∧
    (vAct s n.val < k → coreFor (max (vAct s n.val + 1) (topCode s)) ≤ s.pwr.vddCore →
      ∃ t, exec (.voltageStepDone n) s = .next t ∧ moved (vAct s n.val + 1) t) ∧
    (k < vAct s n.val → ∃ t, exec (.voltageStepDone n) s = .next t ∧ moved (vAct s n.val - 1) t)) ∧
  (∀ (mv : Nat) (s : State), Awake s →
    (s.pwr.vddAsked = some mv → ∃ t, exec (.regulatorReport mv) s = .next t ∧ t.pwr.vddCore = mv ∧ t.regs = s.regs ∧ t.mem = s.mem) ∧
    (s.pwr.vddAsked ≠ some mv → exec (.regulatorReport mv) s = .next s)) ∧
  (∀ (who : Requester) (v : Word) (s : State), Writes who Reg.PWR_RM_KICK v s →
    (Reg.PWR_RM_KICK_KEY.get v = 0x5A5A → ∃ t, exec (.pwrRmKick who v) s = .next t ∧
      t.flag Reg.PWR_STATUS Reg.PWR_STATUS_RM_LOST = false ∧ t.pwr.wdtFrom = s.now ∧ t.pwr.wdtExpired = none ∧
      SameRegsBut [Reg.PWR_STATUS] s t ∧ t.mem = s.mem) ∧
    (Reg.PWR_RM_KICK_KEY.get v ≠ 0x5A5A → exec (.pwrRmKick who v) s = .next s)) ∧
  (∀ (n : Rgn) (s : State), Awake s →
    (polGate s = true ∧ 3 ≤ s.stage n ∧ rgnIdle s n = true ∧ blocksReady s n = true ∧ (s.rgn n).idleFrom + polNat s 0x10 4 ≤ s.now →
      ∃ t, exec (.blockGating n) s = .next t ∧ t.mem = s.mem ∧ ∀ b : Blk,
        blockState t n b.val = (if blockState s n b.val = 3 then 3 else 2) ∧
        (blockState s n b.val ≠ 3 → t.domOn (blkDom n.val b.val) = false)) ∧
    (¬ (polGate s = true ∧ 3 ≤ s.stage n ∧ rgnIdle s n = true ∧ blocksReady s n = true ∧ (s.rgn n).idleFrom + polNat s 0x10 4 ≤ s.now) →
      exec (.blockGating n) s = .next s) ∧
    (∀ b : Blk, s.pwr.wake.getLsbD n.val = true → serviceOn s n = true → blockState s n b.val = 0 ∨ blockState s n b.val = 2 →
      ∃ t, exec (.blockPowerOn n b) s = .next t ∧ blockState t n b.val = 1 ∧ t.domOn (blkDom n.val b.val) = true ∧
        (s.flt.latched = [] → Assoc.wf cellDefault s.cells = true → t.mem = s.mem ∧ ∀ c, c < 576 → (c / 64 = b.val →
          t.cell n.val c = { Cell.empty with field := (s.cell n.val c).field, ce := (s.cell n.val c).ce, errs := (s.cell n.val c).errs }) ∧
          (c / 64 ≠ b.val → t.cell n.val c = s.cell n.val c)))) ∧
  (∀ s : State, Awake s → polDeepIdle s = true → polBallast s = false → s.chipStage = 2 → s.minimal = false → s.pwr.shut = false →
    s.flag Reg.PWR_STATUS Reg.PWR_STATUS_DEEP_IDLE = false → s.pwr.lastActive + polNat s 0x14 4 ≤ s.now →
    (∀ n : Rgn, rgnIdle s n = true) →
    (noCommand s = true → ∃ t, exec .deepIdleEntry s = .next t ∧ t.flag Reg.PWR_STATUS Reg.PWR_STATUS_DEEP_IDLE = true ∧ t.mem = s.mem ∧
      (∀ (n : Rgn) (b : Blk), blockState t n b.val = (if blockState s n b.val = 3 then 3 else 0)) ∧
      (polL0p s = true → linkUp s = true → t.fld Reg.TAITH_STATUS Reg.TAITH_STATUS_WIDTH = 1)) ∧
    (noCommand s = false → exec .deepIdleEntry s = .next s))

/-! ### Root of trust and management (18_security.md) -/

/-- Mailbox operations start and end as Tables 18.8 to 18.11 say, and the management endpoint answers and updates. A
mailbox GO with BUSY clear sets BUSY and RESULT 0 and starts its operation; LOCK clears the debug scope at once and
extends MR7. TAHR_MAILBOX_DONE in its turn clears BUSY and sets RESULT: MR_EXTEND extends registers 10 to 15 only,
UNLOCK_CHALLENGE keeps the challenge, UNLOCK applies a token's scope or refuses it. The MCTP endpoint answers while it
is up: endpoint ID, sensors, the firmware update with its check, activation into the other flash slot, cancel and
time-out, and the kick. (18_security.md) -/
def Obligations.MailboxAndManagementAct : Prop :=
  (∀ (who : Requester) (v : Word) (s : State), Writes who Reg.TAHR_MBX_CMD v s → Reg.TAHR_MBX_CMD_GO.get v = 1 →
    s.flag Reg.TAHR_MBX_CMD Reg.TAHR_MBX_CMD_BUSY = false → s.chipStage = 2 →
    ∀ i ∈ [((1 : Nat), Instr.getCert who v), (2, .mrExtend who v), (3, .unlockChallenge who v), (4, .unlock who v), (5, .lock who v)],
      Reg.TAHR_MBX_CMD_OP.get v = i.1 →
      ∃ t, exec i.2 s = .next t ∧ t.flag Reg.TAHR_MBX_CMD Reg.TAHR_MBX_CMD_BUSY = true ∧
        t.fld Reg.TAHR_MBX_CMD Reg.TAHR_MBX_CMD_RESULT = 0 ∧
        t.sec.mbxOp = some ⟨i.1, Reg.TAHR_MBX_CMD_INDEX.get v, (s.reg Reg.TAHR_MBX_ARG).toNat, false⟩ ∧
        (i.1 ≤ 3 → SameRegsBut [Reg.TAHR_MBX_CMD] s t ∧ t.mem = s.mem ∧ t.sec.mrs = s.sec.mrs) ∧
        (i.1 = 4 → t.sec.mrs = s.sec.mrs ∧ t.fld Reg.TAHR_STATUS Reg.TAHR_STATUS_SCOPE = s.fld Reg.TAHR_STATUS Reg.TAHR_STATUS_SCOPE) ∧
        (i.1 = 5 → t.fld Reg.TAHR_STATUS Reg.TAHR_STATUS_SCOPE = 0 ∧ t.flag Reg.TAHR_STATUS Reg.TAHR_STATUS_UNLOCKED = false ∧
          t.domOn (chipDom 6) = false ∧
          mrOf t 7 = Config.sha384 (Config.fit 48 (mrOf s 7) ++ List.replicate 48 0xFF))) ∧
  (∀ (rnd : List Byte) (x : MbxOp) (s : State), Awake s → s.sec.mbxOp = some x → s.sec.queue.head? = some tqMailbox →
    let done := fun (r : Nat) (t : State) => t.flag Reg.TAHR_MBX_CMD Reg.TAHR_MBX_CMD_BUSY = false ∧
      t.fld Reg.TAHR_MBX_CMD Reg.TAHR_MBX_CMD_RESULT = r ∧ t.sec.mbxOp = none ∧ t.mem = s.mem
    let base := winBase s + bufOff x.buf
    ((x.op = 1 ∧ 4 ≤ x.index) ∨ (x.op = 2 ∧ x.index < 10) → ∃ t, exec (.tahrMailboxDone rnd) s = .next t ∧ done 3 t ∧ t.sec.mrs = s.sec.mrs) ∧
    (x.op = 2 → 10 ≤ x.index → x.index < 16 → x.failed = false → mbxBufOk x.buf 1 s = true →
      ∀ b, (readCompanion true none base 1 s).2 = some b → ∃ t, exec (.tahrMailboxDone rnd) s = .next t ∧ done 1 t ∧
        mrOf t x.index = Config.sha384 (Config.fit 48 (mrOf s x.index) ++ Config.fit 48 (b.take 48)) ∧
        ∀ k, k ≠ x.index → mrOf t k = mrOf s k) ∧
    (x.op = 2 → 10 ≤ x.index → x.failed = true ∨ mbxBufOk x.buf 1 s = false → ∃ t, exec (.tahrMailboxDone rnd) s = .next t ∧ done 7 t ∧
      t.sec.mrs = s.sec.mrs) ∧
    (x.op = 3 → mbxBufOk x.buf 1 s = true → ∃ t, exec (.tahrMailboxDone rnd) s = .next t ∧ done 1 t ∧
      t.sec.challenge = some (Config.fit 32 rnd) ∧ t.fld Reg.TAHR_MBX_RESP Reg.TAHR_MBX_RESP_LENGTH = 128) ∧
    (x.op = 4 → x.failed = false → mbxBufOk x.buf 5 s = true → ∀ b, (readCompanion true none base 320 s).2 = some b →
      ∃ t, exec (.tahrMailboxDone rnd) s = .next t ∧
        (∀ k, tokenRefused s b = some k → done k t ∧ t.sec.mrs = s.sec.mrs ∧ t.sec.challenge = s.sec.challenge ∧
          t.fld Reg.TAHR_STATUS Reg.TAHR_STATUS_SCOPE = s.fld Reg.TAHR_STATUS Reg.TAHR_STATUS_SCOPE) ∧
        (tokenRefused s b = none → done 1 t ∧ t.sec.challenge = none ∧ t.fld Reg.TAHR_STATUS Reg.TAHR_STATUS_SCOPE = leAt b 5 1 ∧
          t.domOn (chipDom 6) = (leAt b 5 1).testBit 0)) ∧
    (x.op = 5 → ∃ t, exec (.tahrMailboxDone rnd) s = .next t ∧ done 1 t ∧ SameRegsBut [Reg.TAHR_MBX_CMD, Reg.TAHR_MBX_RESP] s t) ∧
    (5 < x.op ∨ x.op = 0 → ∃ t, exec (.tahrMailboxDone rnd) s = .next t ∧ done 2 t)) ∧
  (∀ (bus : MctpBus) (s : State), Awake s →
    (mctpUp s = false → ∀ (eid cmd : Byte) (k : Nat) (arg : BitVec 16),
      ∀ i ∈ [Instr.setEndpointId bus eid, .pldmDiscovery bus cmd, .getSensorReading bus k, .requestUpdate bus, .cancelUpdate bus,
        .vendorKick bus arg], exec i s = .next s) ∧
    (mctpUp s = true →
      let said := fun (ok : Bool) (x : Option Int) (t : State) => t.sec.mctpOut = s.sec.mctpOut ++ [⟨bus, ok, x⟩] ∧ t.mem = s.mem
      let calm := fun (t : State) => t.regs = s.regs
      (∀ eid : Byte, ∃ t, exec (.setEndpointId bus eid) s = .next t ∧ said true none t ∧ calm t ∧ t.sec.eid = eid) ∧
      (∀ cmd : Byte, ∃ t x, exec (.pldmDiscovery bus cmd) s = .next t ∧ said true (some x) t ∧ calm t) ∧
      (∀ k : Nat, ∃ t, exec (.getSensorReading bus k) s = .next t ∧ calm t ∧
        said (decide (k < 21)) (if k < 16 then some (s.fld (Reg.PWR_RGN k) Reg.PWR_RGN_TEMP : Int)
          else if k = 16 then some (s.fld Reg.PWR_CHIP_TEMP Reg.PWR_CHIP_TEMP_CHIP : Int)
          else if k = 17 then some (s.fld Reg.PWR_CHIP_TEMP Reg.PWR_CHIP_TEMP_HBM : Int)
          else if k = 18 then some (s.fld Reg.PWR_MEAS Reg.PWR_MEAS_WINDOW_W : Int)
          else if k = 19 then some (BitVec.ofNat 16 (s.fld Reg.PWR_COOLANT Reg.PWR_COOLANT_INLET)).toInt
          else if k = 20 then some (s.fld Reg.PWR_COOLANT Reg.PWR_COOLANT_FLOW : Int) else none) t) ∧
      (∀ arg : BitVec 16, ∃ t, exec (.vendorKick bus arg) s = .next t ∧ said true none t ∧ SameRegsBut [Reg.PWR_STATUS] s t ∧
        (arg = 0x5A5A → t.pwr.wdtFrom = s.now ∧ t.pwr.wdtExpired = none ∧ t.flag Reg.PWR_STATUS Reg.PWR_STATUS_RM_LOST = false) ∧
        (arg ≠ 0x5A5A → t.pwr = s.pwr ∧ calm t)) ∧
      (pldmHeld s = false → fwBusy s = false → ∃ t, exec (.requestUpdate bus) s = .next t ∧ said true none t ∧
        t.sec.staging = some ⟨[], false, true, s.now⟩ ∧ t.flag Reg.TAHR_STATUS Reg.TAHR_STATUS_PLDM_OWNED = true ∧
        t.flag Reg.TAHR_STATUS Reg.TAHR_STATUS_STAGED = false ∧ SameRegsBut [Reg.TAHR_STATUS] s t) ∧
      (pldmHeld s = true ∨ fwBusy s = true → ∃ t, exec (.requestUpdate bus) s = .next t ∧ said false none t ∧ calm t ∧
        t.sec.staging = s.sec.staging) ∧
      (pldmHeld s = false → ∃ t, exec (.cancelUpdate bus) s = .next t ∧ said false none t ∧ calm t ∧ t.sec.staging = s.sec.staging) ∧
      (∀ y, s.sec.staging = some y → y.pldm = true →
        let empty := fun (t : State) => t.sec.staging = none ∧ t.flag Reg.TAHR_STATUS Reg.TAHR_STATUS_PLDM_OWNED = false ∧
          t.flag Reg.TAHR_STATUS Reg.TAHR_STATUS_STAGED = false ∧ SameRegsBut [Reg.TAHR_STATUS] s t
        (∃ t, exec (.cancelUpdate bus) s = .next t ∧ said true none t ∧ empty t) ∧
        (y.last + 6000000000 ≤ s.now → ∃ t, exec .pldmUpdateTimeout s = .next t ∧ empty t ∧ t.sec.mctpOut = s.sec.mctpOut) ∧
        (s.now < y.last + 6000000000 → exec .pldmUpdateTimeout s = .next s) ∧
        (y.checked = true → companionBoot s = false → s.sec.current ≤ 1 → ∃ t ok, exec (.activateFirmware bus) s = .next t ∧
          said ok none t ∧ empty t ∧ t.sec.flash.toList.getD s.sec.current [] = s.sec.flash.toList.getD s.sec.current [] ∧
          t.sec.counter = s.sec.counter ∧
          (ok = true → t.sec.current = 1 - s.sec.current ∧ t.sec.flash.toList.getD t.sec.current [] = y.bytes) ∧
          (ok = false → t.sec.current = s.sec.current)) ∧
        (∀ (off : Nat) (data : List Byte) (last : Bool), off + data.length ≤ 4194304 → off ≤ y.bytes.length → s.chipStage = 2 →
          ∃ t z, exec (.firmwareTransfer bus off data last) s = .next t ∧ t.sec.staging = some z ∧ z.pldm = true ∧ z.last = s.now ∧
            t.flag Reg.TAHR_STATUS Reg.TAHR_STATUS_STAGED = z.checked ∧
            (last = false → z.checked = false ∧ (z.bytes.drop off).take data.length = data ∧ z.bytes.take off = y.bytes.take off ∧
              said true none t) ∧
            (last = true → (z.checked = true →
                bundleCheck s z.bytes = none ∧ (z.bytes.drop off).take data.length = data ∧ said true none t) ∧
              (z.checked = false → z.bytes = [] ∧ t.sec.mctpOut = s.sec.mctpOut ++ [⟨bus, false, none⟩])))) ∧
      (∀ (off : Nat) (data : List Byte) (last : Bool), pldmHeld s = false →
        ∃ t, exec (.firmwareTransfer bus off data last) s = .next t ∧ said false none t ∧ calm t ∧ t.sec.staging = s.sec.staging)))

/-! ### Bring-up and resets (15_bringup.md) -/

/-- Resets keep what R366 to R368 list, and bring-up takes the chip and its regions from stage to stage. POR_N_FALL
and SUPPLY_FALL put every register at reset; the fuses, flash and fold tier stay. POR_N_RISE samples the straps;
STRAP_RECOVER forces minimal mode. A warm reset waits for fold flushes; a failed start records its reason and resets.
TAHR_VERIFIED brings stage 1, COMPANION_UP stage 2; herd training, the fold start, near training and migration bring
each region to stages 3 and 4, or fail it. REFCLK_LOSS takes the links down. Writes of BOOT_CTRL, BOOT_IMG_CTRL and
BOOT_RGN_CFG act. (15_bringup.md) -/
def Obligations.ResetsAndBringUpAct : Prop :=
  (∀ s : State,
    let gone := fun (t : State) => t.pins.porN = false ∧ (∀ a, t.reg a = regReset a) ∧ t.cmds = [] ∧ t.now = 0 ∧
      t.sec.counter = s.sec.counter ∧ t.sec.revoke = s.sec.revoke ∧ t.sec.flash = s.sec.flash ∧ t.sec.current = s.sec.current ∧
      (∀ a, a / 2 ^ 60 ≠ 2 → t.byte a = 0) ∧
      ((∀ n : Rgn, (s.rgn n).fold.wbuf = []) → ∀ a, a / 2 ^ 60 = 2 → t.byte a = s.byte a)
    (∃ t, exec .supplyFall s = .next t ∧ gone t) ∧ (s.pins.porN = true → ∃ t, exec .porNFall s = .next t ∧ gone t) ∧
    (s.pins.porN = false → exec .porNFall s = .next s) ∧
    (∀ boot recover testEn : Bool, (s.pins.porN = true → exec (.porNRise boot recover testEn) s = .next s) ∧
      (s.pins.porN = false → ∃ t, exec (.porNRise boot recover testEn) s = .next t ∧ t.pins.porN = true ∧ t.boot.testHold = testEn ∧
        t.boot.start = s.now ∧ t.flag Reg.BOOT_STATUS Reg.BOOT_STATUS_SRC = boot ∧
        t.flag Reg.BOOT_STATUS Reg.BOOT_STATUS_RECOVER = recover ∧ t.chipStage = s.chipStage ∧ t.mem = s.mem ∧
        (recover = true → t.minimal = true) ∧
        (recover = false → s.fld Reg.BOOT_STATUS Reg.BOOT_STATUS_ATTEMPTS ≠ 3 → t.minimal = s.minimal)))) ∧
  (∀ s : State, Awake s →
    (s.chipStage = 2 → ∃ t, exec .refclkLoss s = .next t ∧ t.pins.refclkLost = true ∧ linkUp t = false ∧
      ∀ n : Rgn, portState t n = portDown) ∧
    (s.pwr.tripAt.isSome = true → exec .warmRstN s = .next s) ∧
    (s.pwr.tripAt = none → anyFlushing s = true → ∃ t, exec .warmRstN s = .next t ∧ t.boot.pendingWarm = true ∧
      t.regs = s.regs ∧ t.mem = s.mem ∧ t.cmds = s.cmds) ∧
    (s.pwr.tripAt = none → anyFlushing s = false → ∃ t, exec .warmRstN s = .next t ∧ WarmReset s t ∧
      t.fld Reg.BOOT_STATUS Reg.BOOT_STATUS_ATTEMPTS = s.fld Reg.BOOT_STATUS Reg.BOOT_STATUS_ATTEMPTS) ∧
    (∀ (who : Requester) (v : Word), Writes who Reg.BOOT_CTRL v s →
      (Reg.BOOT_CTRL_WARM.get v = 1 → Reg.BOOT_CTRL_CLEAR_ATTEMPTS.get v = 0 → exec (.warm who v) s =
        if Reg.BOOT_CTRL_KEY.get v = 0xA5 then exec .warmRstN s else .next s) ∧
      (Reg.BOOT_CTRL_WARM.get v = 0 → Reg.BOOT_CTRL_CLEAR_ATTEMPTS.get v = 1 →
        (Reg.BOOT_CTRL_KEY.get v = 0xA5 → ∃ t, exec (.clearAttempts who v) s = .next t ∧
          t.fld Reg.BOOT_STATUS Reg.BOOT_STATUS_ATTEMPTS = 0 ∧ SameButRegs [Reg.BOOT_STATUS] s t) ∧
        (Reg.BOOT_CTRL_KEY.get v ≠ 0xA5 → exec (.clearAttempts who v) s = .next s))) ∧
    (∀ (who : Requester) (v : Word), Writes who Reg.BOOT_IMG_CTRL v s → Reg.BOOT_IMG_CTRL_GO.get v = 1 →
      ∃ t, exec (.bootImgGo who v) s = .next t ∧ SameButRegs [Reg.BOOT_IMG_CTRL] s t ∧
        t.fld Reg.BOOT_IMG_CTRL Reg.BOOT_IMG_CTRL_TILES = Reg.BOOT_IMG_CTRL_TILES.get v ∧
        imgState t = (if companionBoot s = true ∧ s.chipStage = 0 ∧ s.minimal = false ∧ (imgState s = 0 ∨ imgState s = 3) then 1
          else imgState s)) ∧
    (∀ (err : Bool) (bundle : List Byte), imgState s = 1 → s.chipStage = 0 →
      ∃ t, exec (.bootImageReadDone err bundle) s = .next t ∧ SameRegsBut [Reg.BOOT_IMG_CTRL] s t ∧ t.mem = s.mem ∧
        (err = true → imgState t = 3) ∧
        (err = false → (bundleCheck s (imageRead s bundle) = none → imgState t = 2 ∧ t.boot.image = imageRead s bundle) ∧
          (∀ k, bundleCheck s (imageRead s bundle) = some k → imgState t = 3 ∧ t.boot.imageReason = k))) ∧
    (s.chipStage = 0 → s.minimal = false → s.boot.pendingWarm = false →
      let runs := fun (b : List Byte) (t : State) => t.chipStage = 1 ∧ (∀ n : Rgn, t.stage n = 1) ∧ t.sec.running = b ∧ t.mem = s.mem ∧
        t.irqPending evBoot = true ∧ mrOf t 0 = Config.sha384 (Config.fit 48 (mrOf s 0) ++ Config.fit 48 Config.romHash)
      let k := s.sec.current % 2
      (companionBoot s = true → imgState s = 2 → ∃ t, exec (.tahrVerified false) s = .next t ∧ runs s.boot.image t) ∧
      (companionBoot s = true → imgState s ≠ 2 → exec (.tahrVerified false) s = .next s) ∧
      (companionBoot s = false → s.pwr.tripAt = none → anyFlushing s = false →
        (∃ t, exec (.tahrVerified true) s = .next t ∧ StartFailed 0x04 s t) ∧
        ∃ t, exec (.tahrVerified false) s = .next t ∧
          (bundleCheck s (flashBundle s k) = none → runs (flashBundle s k) t ∧ t.fld Reg.BOOT_STATUS Reg.BOOT_STATUS_SLOT = k) ∧
          (∀ why, bundleCheck s (flashBundle s k) = some why →
            (bundleCheck s (flashBundle s (1 - k)) = none → runs (flashBundle s (1 - k)) t ∧
              t.fld Reg.BOOT_STATUS Reg.BOOT_STATUS_SLOT = 1 - k) ∧
            (bundleCheck s (flashBundle s (1 - k)) ≠ none → StartFailed why s t)))) ∧
    (linkUp s = true → s.boot.upAt = none → s.boot.pendingWarm = false → s.minimal = false → s.chipStage = 1 →
      ∃ t, exec .companionUp s = .next t ∧ t.chipStage = 2 ∧ (∀ n : Rgn, t.stage n = 2 ∧ t.pwr.wake.getLsbD n.val = true) ∧
        t.fld Reg.BOOT_STATUS Reg.BOOT_STATUS_ATTEMPTS = 0 ∧ t.boot.upAt = some s.now ∧ t.irqPending evBoot = true ∧ t.mem = s.mem) ∧
    (s.chipStage < 2 → s.minimal = false → s.boot.pendingWarm = false → s.pwr.tripAt = none → anyFlushing s = false →
      s.boot.start + s.fld Reg.BOOT_WDT Reg.BOOT_WDT_TICKS ≤ s.now →
      ∃ t, exec .bootWdtExpiry s = .next t ∧ StartFailed (wdtReason s) s t) ∧
    (2 ≤ s.chipStage ∨ s.now < s.boot.start + s.fld Reg.BOOT_WDT Reg.BOOT_WDT_TICKS → exec .bootWdtExpiry s = .next s)) ∧
  (∀ (n : Rgn) (s : State), Awake s → inBringUp s n = true →
    let a := Reg.BOOT_RGN n.val
    let failed := fun (why : Nat) (t : State) => t.flag a Reg.BOOT_RGN_FAILED = true ∧ t.fld a Reg.BOOT_RGN_REASON = why ∧
      t.quarantined n = true
    (s.stage n = 2 → s.flag a Reg.BOOT_RGN_HERD_OK = false → blocksReady s n = true →
      (∃ t, exec (.herdTrainingDone n .outside) s = .next t ∧ failed 0x11 t) ∧
      (∃ t, exec (.herdTrainingDone n .failed) s = .next t ∧ failed 0x12 t) ∧
      (∀ speed ranks2 stack size, 32 ≤ size.val → failedBlocks s n < 2 →
        ∃ t, exec (.herdTrainingDone n (.trained speed ranks2 stack size 0)) s = .next t ∧ t.flag a Reg.BOOT_RGN_HERD_OK = true ∧
          t.flag a Reg.BOOT_RGN_FAILED = false ∧ t.fld (Reg.HERD_CFG n) Reg.HERD_CFG_SPEED = speed.val ∧
          t.flag (Reg.HERD_CFG n) Reg.HERD_CFG_RANKS = ranks2 ∧ t.fld (Reg.HERD_CFG n) Reg.HERD_CFG_STACK = stack.val ∧
          t.fld (Reg.HERD_CFG n) Reg.HERD_CFG_SIZE_GIB = size.val ∧ (failedBlocks s n = 0 → t.mem = s.mem))) ∧
    (s.stage n = 2 → s.flag a Reg.BOOT_RGN_HERD_OK = true →
      (∃ t, exec (.foldStartDone n .unreadable) s = .next t ∧ failed 0x13 t) ∧
      (∀ i, ((∃ g, i = FoldResult.unformatted g) ∨ ∃ geom raw rated clean, i = .started geom raw rated clean ∧ geomOk geom = false) →
        ∃ t, exec (.foldStartDone n i) s = .next t ∧ t.stage n = 3 ∧ t.flag a Reg.BOOT_RGN_STANDIN = true ∧
        t.fld a Reg.BOOT_RGN_REASON = 0x14 ∧ t.flag (Reg.FOLD_STATUS n) Reg.FOLD_STATUS_UNFORMATTED = true ∧ t.mem = s.mem) ∧
      (∀ geom raw rated clean, geomOk geom = true → (s.rgn n).fold.fences = [] → failedBlocks s n < 2 →
        ∃ t, exec (.foldStartDone n (.started geom raw rated clean)) s = .next t ∧ t.stage n = 3 ∧
          t.flag a Reg.BOOT_RGN_STANDIN = true ∧ t.fld (Reg.FOLD_CAP n) Reg.FOLD_CAP_RAW_GIB = raw.val ∧
          t.fld (Reg.FOLD_CAP n) Reg.FOLD_CAP_UNITS = raw.val * 57 / 64 * 65536 ∧
          t.fld (Reg.FOLD_WEAR n) Reg.FOLD_WEAR_RATED_PE = rated.toNat ∧
          t.flag (Reg.FOLD_STATUS n) Reg.FOLD_STATUS_UNFORMATTED = false)) ∧
    (∀ bad : BitVec 12, s.stage n = 3 → s.flag a Reg.BOOT_RGN_NEAR_OK = false → s.fld a Reg.BOOT_RGN_NEAR_FAIL = 0 →
      ∃ t, exec (.nearTrainingDone n bad) s = .next t ∧ SameButRegs [Reg.NEAR_STATUS n, a] s t ∧
        t.fld (Reg.NEAR_STATUS n) Reg.NEAR_STATUS_TRAINED = (~~~ bad).toNat ∧
        (bad = 0 → t.flag a Reg.BOOT_RGN_NEAR_OK = true ∧
          t.flag a Reg.BOOT_RGN_MIGRATING = (s.flag a Reg.BOOT_RGN_MIGRATING || s.flag Reg.BOOT_RGN_CFG Reg.BOOT_RGN_CFG_AUTO_MIGRATE)) ∧
        (bad ≠ 0 → t.fld a Reg.BOOT_RGN_NEAR_FAIL = bad.toNat ∧ t.fld a Reg.BOOT_RGN_REASON = 0x15 ∧
          t.flag a Reg.BOOT_RGN_NEAR_OK = false))) ∧
  (∀ (n : Rgn) (s : State), Awake s →
    (s.stage n = 3 → migrating s n.val = true → rgnRetired s n.val = true → ∃ t, exec (.migrationDone n) s = .next t ∧
      t.stage n = (if portState s n = portJoined then 5 else 4) ∧ migrating t n.val = false ∧
      t.flag (Reg.BOOT_RGN n.val) Reg.BOOT_RGN_STANDIN = false ∧ t.irqPending (evRgn n.val 5) = true ∧ t.mem = s.mem) ∧
    (∀ (who : Requester) (v : Word), Writes who Reg.BOOT_RGN_CFG v s → Reg.BOOT_RGN_CFG_MIGRATE.get v ≠ 0 →
      ∃ t, exec (.migrate who v) s = .next t ∧ SameButRegs (Reg.BOOT_RGN_CFG :: allRgns.map fun m => Reg.BOOT_RGN m.val) s t ∧
        migrating t n.val = (migrating s n.val || ((Reg.BOOT_RGN_CFG_MIGRATE.get v).testBit n.val && s.stage n == 3 &&
          s.flag (Reg.BOOT_RGN n.val) Reg.BOOT_RGN_NEAR_OK && Reg.BOOT_RGN_CFG_AUTO_MIGRATE.get v == 0))))

/-! ### Register access (01_device.md, 19_registers.md) -/

/-- An access that is not a full 64-bit aligned one reads zero or is dropped, and is logged; good ones act on their
fields. An access whose width is not 8 bytes or whose address is not a multiple of 8 reads zero or writes nothing, and
one report of source 0 is taken, counted and, at severity 1 with room in the ring, recorded with requester, width and
address; with the severities of sources 0 and 18 at most 2 no register outside the fault and interrupt controllers
differs. A good read returns zero in WO fields and clears the RC fields only; a good write of a register without an
effect of its own sets its RW fields, and its W1S and W1C fields where the value is 1; a write of a register that has
a row of its own acts as that row. A read of a domain that is off returns zero and nothing differs. (R7) -/
def Obligations.BadAccessesReadZeroAndAreLogged : Prop :=
  (∀ (who : Requester) (a width : Nat) (v : Word) (s : State), Awake s → s.chipStage = 2 → width ≠ 8 ∨ a % 8 ≠ 0 →
    let st := Reg.FLT_SRC_STAT 0
    (readReg who a width s).1 = 0 ∧
    ∀ i ∈ [((1 : Nat), Instr.registerWrite who a width v), (0, .rcRead who a width), (0, .badRead who a width)],
      let info : FaultInfo := ⟨none, 0, BitVec.ofNat 128 (requesterNum who + 64 * i.1 + 128 * width.log2 + 2 ^ 64 * a)⟩
      let at_ := herdAddr (ringRgn s) (4096 * s.fld Reg.FLT_RING_CFG Reg.FLT_RING_CFG_BASE +
        64 * s.fld Reg.FLT_RING_PTR Reg.FLT_RING_PTR_TAIL)
      ∃ t, exec i.2 s = .next t ∧ t.fld st Reg.FLT_SRC_STAT_COUNT = min (s.fld st Reg.FLT_SRC_STAT_COUNT + 1) 255 ∧
        t.fld st Reg.FLT_SRC_STAT_LAST_SERIAL = s.fld Reg.FLT_STATUS Reg.FLT_STATUS_NEXT_SERIAL ∧
        (s.sev 0 ≤ 2 → s.sev 18 ≤ 2 → (∀ b, b < 0x20000 ∨ 0x40000 ≤ b → t.reg b = s.reg b) ∧ SameMachine s { t with mem := s.mem }) ∧
        (s.sev 0 = 1 → ringRoom s = true → (∀ x ∈ s.flt.kept, x.source ≠ 0) → SameBytesBut at_ 64 s t ∧
          Holds t at_ ((mkReport 0 1 false false false info s).bytes (s.flag Reg.FLT_RING_PTR Reg.FLT_RING_PTR_PHASE) false))) ∧
  (∀ (who : Requester) (a : Nat) (v : Word) (s : State), Awake s →
    (accessCheck who false a 8 0 s = .silent → (readReg who a 8 s).1 = 0 ∧ exec (.rcRead who a 8) s = .next s) ∧
    (accessCheck who true a 8 v s = .silent → exec (.registerWrite who a 8 v) s = .next s) ∧
    (accessCheck who false a 8 0 s = .ok → (∀ n, unalias a ≠ Reg.SCAN_DATA n) →
      (∀ f ∈ fieldsAt (unalias a), f.acc = .wo → f.get (readReg who a 8 s).1 = 0) ∧
      exec (.badRead who a 8) s = .next s ∧
      ∃ t, exec (.rcRead who a 8) s = .next t ∧ SameButRegs [unalias a] s t ∧
        t.reg (unalias a) = s.reg (unalias a) &&& ~~~ accMask .rc (fieldsAt (unalias a))) ∧
    (accessCheck who true a 8 v s = .ok → PlainReg (unalias a) →
      ∃ t, exec (.registerWrite who a 8 v) s = .next t ∧ SameButRegs [unalias a] s t ∧
        t.reg (unalias a) = fieldsAfter (fieldsAt (unalias a)) (s.reg (unalias a)) v) ∧
    (∀ i ∈ [(Reg.FAB_CHIP_ID, Instr.fabChipId who v), (Reg.PWR_RM_KICK, .pwrRmKick who v), (Reg.TAITH_RESUME, .taithResume who v)],
      exec (.registerWrite who i.1 8 v) s = exec i.2 s) ∧
    ∀ n : Rgn, exec (.registerWrite who (Reg.SCAN_DATA n) 8 v) s = exec (.scanDataWrite who n v) s ∧
      exec (.rcRead who (Reg.SCAN_DATA n) 8) s = exec (.scanDataRead who n) s)

/-! ### The Taith link (13_taith.md) -/

/-- The companion's messages are answered, and the link's keepalive, loss, return and resume act as their rules say.
REG_RD is answered REG_RSP with the value or zero; REG_WR writes. HERD_RD and HERD_WR serve lines of tiles that a
partition holds and answer ARG 1 otherwise. SNP_INV drops its line and answers ACK; DATA fills the queue cache; ACK
ends a write. A reserved request is answered ARG 1. Each message returns credits and restarts the silence timer. A
KEEPALIVE goes out when due. The loss of the link clears LINK_UP, counts and empties the queue cache, and its parks
are tried; the link comes back; TAITH_RESUME starts replays. (13_taith.md) -/
def Obligations.TaithMessagesAndLossAct : Prop :=
  (∀ (tag : BitVec 16) (cr : Credit) (s : State), Linked s →
    (∀ a, accessCheck .companion false a 8 0 s = .ok → rgnOf (unalias a) = none → ∃ t, exec (.regRd tag a cr) s = .next t ∧
      Tells 0x03 tag 0 (leBytes 8 (regValue s (unalias a)).toNat) s t ∧ SameRegsBut [unalias a] s t ∧ t.mem = s.mem ∧
      t.reg (unalias a) = s.reg (unalias a) &&& ~~~ accMask .rc (fieldsAt (unalias a))) ∧
    (∀ a, accessCheck .companion false a 8 0 s = .silent → ∃ t, exec (.regRd tag a cr) s = .next t ∧
      Tells 0x03 tag 0 (List.replicate 8 0) s t ∧ t.regs = s.regs ∧ t.mem = s.mem) ∧
    (∀ a, accessCheck .companion false a 8 0 s = .bad → s.chipStage = 2 → ∃ t, exec (.regRd tag a cr) s = .next t ∧
      Tells 0x03 tag 0 (List.replicate 8 0) s t ∧
      t.fld (Reg.FLT_SRC_STAT 0) Reg.FLT_SRC_STAT_COUNT = min (s.fld (Reg.FLT_SRC_STAT 0) Reg.FLT_SRC_STAT_COUNT + 1) 255) ∧
    (∀ (a : Nat) (v : Word), accessCheck .companion true a 8 v s = .ok → PlainReg (unalias a) →
      ∃ t, exec (.regWr a v cr) s = .next t ∧ SameRegsBut [unalias a] s t ∧ t.mem = s.mem ∧
        t.reg (unalias a) = fieldsAfter (fieldsAt (unalias a)) (s.reg (unalias a)) v) ∧
    (∀ a v, accessCheck .companion true a 8 v s = .silent → ∃ t, exec (.regWr a v cr) s = .next t ∧ t.regs = s.regs ∧ t.mem = s.mem) ∧
    (∀ (n : Rgn) (off : Nat) (data : List Byte),
      let tile := off / 4096
      (herdHolder s n tile = none ∨ off % 64 ≠ 0 →
        (∃ t, exec (.herdRd tag n off cr) s = .next t ∧ Tells 0x0B tag 1 (List.replicate 64 0) s t ∧ t.regs = s.regs ∧ t.mem = s.mem) ∧
        ∃ t, exec (.herdWr tag n off data cr) s = .next t ∧ Tells 0x0C tag 1 [] s t ∧ t.regs = s.regs ∧ t.mem = s.mem) ∧
      (∀ p, herdHolder s n tile = some p → off % 64 = 0 →
        (herdAddr n.val off / 64 ∉ s.poison → ∃ t, exec (.herdRd tag n off cr) s = .next t ∧ t.regs = s.regs ∧ t.mem = s.mem ∧
          Tells 0x0B tag 0 (slice (readTile s (some p) n.val 2 tile) (off % 4096) 64) s t) ∧
        (herdAddr n.val off / 64 ∈ s.poison → s.chipStage = 2 → ∃ t, exec (.herdRd tag n off cr) s = .next t ∧
          Tells 0x0B tag 1 (List.replicate 64 0) s t) ∧
        ∃ t, exec (.herdWr tag n off data cr) s = .next t ∧ Tells 0x0C tag 0 [] s t ∧ t.regs = s.regs ∧
          Holds t (herdAddr n.val off) (Config.fit 64 data) ∧ SameBytesBut (tileAddr n.val 2 tile) 4096 s t ∧
          herdAddr n.val off / 64 ∉ t.poison)) ∧
    (∀ a, (∀ r ∈ s.taith.reads, r.window = true → r.addr ≠ a / 64 * 64) → ∃ t, exec (.snpInv tag a cr) s = .next t ∧
      Tells 0x0C tag 0 [] s t ∧ cacheGet t.taith (a / 64 * 64) = none ∧ t.regs = s.regs ∧ t.mem = s.mem) ∧
    (∀ (r : RdReq) (data : List Byte), s.taith.reads.find? (fun r => r.tag == tag) = some r → r.cmd = none → r.snoops = [] →
      ∃ t, exec (.data tag false data cr) s = .next t ∧ t.regs = s.regs ∧ t.mem = s.mem ∧
        t.taith.reads = s.taith.reads.filter (fun q => q.tag != tag) ∧
        (r.window = true → cacheGet t.taith r.addr = some (Config.fit 64 data)) ∧
        (r.window = false → t.taith.membuf = s.taith.membuf ++ [(r.addr, Config.fit 64 data)] ∧ t.taith.cache = s.taith.cache)) ∧
    (∀ err : Bool, (∀ u ∈ s.mgmtCq.unacked, u.1 ≠ tag) → (∀ p, ∀ u ∈ (s.part p).cq.unacked, u.1 ≠ tag) →
      ∃ t, exec (.taithAck tag err cr) s = .next t ∧ t.regs = s.regs ∧ t.mem = s.mem ∧
        t.taith.writes = s.taith.writes.filter (fun w => w != tag)) ∧
    (∀ ty : BitVec 8, ∃ t, exec (.reservedTaithMessage ty tag cr) s = .next t ∧ t.regs = s.regs ∧ t.mem = s.mem ∧ t.cmds = s.cmds ∧
      (ty = 0x01 → Tells 0x03 tag 1 (List.replicate 8 0) s t) ∧ (ty = 0x0A → Tells 0x0C tag 1 [] s t) ∧
      (ty = 0x04 ∨ ty = 0x06 ∨ ty = 0x08 → Tells 0x0B tag 1 (List.replicate 64 0) s t) ∧
      (msgClass ty ≠ 1 → s.taith.waiting = [] → t.taith.sent = s.taith.sent)) ∧
    (∀ i ∈ [Instr.pad cr, .keepalive cr], ∃ t, exec i s = .next t ∧ t.regs = s.regs ∧ t.mem = s.mem ∧ t.taith.lastRx = s.now ∧
      (s.taith.waiting = [] → t.taith.sent = s.taith.sent ∧
        t.taith.credits = Vec.modify s.taith.credits cr.cls.val (· + cr.count.toNat)))) ∧
  (∀ s : State, Linked s →
    (s.taith.lastTx + kaPeriod s ≤ s.now → ∃ t, exec .keepaliveTimer s = .next t ∧ Tells 0x0E 0 0 [] s t ∧ t.regs = s.regs ∧ t.mem = s.mem) ∧
    (s.now < s.taith.lastTx + kaPeriod s → exec .keepaliveTimer s = .next s) ∧
    (∀ down : Bool, (down = true ∨ s.taith.lastRx + kaTimeout s ≤ s.now) → s.chipStage = 2 →
      ∃ t, exec (.taithLinkLoss down) s = .next t ∧ linkUp t = false ∧ linkLost t = true ∧ t.taith.lossAt = some s.now ∧
        t.taith.cache = [] ∧ t.flag Reg.TAITH_STATUS Reg.TAITH_STATUS_LOST = true ∧ t.reg Reg.TAITH_LOSS_STATUS = 0 ∧
        t.fld Reg.TAITH_STATUS Reg.TAITH_STATUS_LOSSES = min (s.fld Reg.TAITH_STATUS Reg.TAITH_STATUS_LOSSES + 1) 65535) ∧
    (s.now < s.taith.lastRx + kaTimeout s → exec (.taithLinkLoss false) s = .next s)) ∧
  (∀ (u : Nat) (s : State), Awake s → s.taith.lossAt = some u →
    let k := s.fld Reg.TAITH_LOSS_CFG Reg.TAITH_LOSS_CFG_PARK_TICKS
    (k = 0 ∨ s.now < u + k → exec .lossParkTimeout s = .next s) ∧
    (k ≠ 0 → u + k ≤ s.now → s.chipStage = 2 → ∃ t, exec .lossParkTimeout s = .next t ∧ ∀ (p : Part), ∀ x ∈ (s.part p).sessions, x.st = .opened →
      busy s p x.handle = false → (p.val, x.handle) ∈ t.taith.parkTried)) ∧
  (∀ (width : Fin 4) (fast : Bool) (s : State), Awake s → linkUp s = false → s.domOn (chipDom 3) = true → 2 ≤ width.val →
    (width.val = 3 ∧ fast = true) ∨ s.chipStage = 2 →
    ∃ t, exec (.taithLinkUp width fast) s = .next t ∧ linkUp t = true ∧ t.taith.lossAt = none ∧
      t.fld Reg.TAITH_STATUS Reg.TAITH_STATUS_WIDTH = width.val ∧ t.flag Reg.TAITH_STATUS Reg.TAITH_STATUS_RATE = fast) ∧
  (∀ (who : Requester) (v : Word) (s : State), Writes who Reg.TAITH_RESUME v s →
    (linkUp s = false → exec (.taithResume who v) s = .next s) ∧
    (linkUp s = true → ∃ t, exec (.taithResume who v) s = .next t ∧ ∀ p : Part,
      (v.getLsbD p.val = true → (s.part p).stopped = true → (t.part p).stopped = false ∨ (t.part p).replay = true) ∧
      (v.getLsbD p.val = true → shadowed (s.part p).cq = 0 → (t.part p).stopped = false) ∧
      (v.getLsbD p.val = false → t.part p = s.part p)))
end

