-- ==== Sys2Proof/Laws/Assoc.lean ====
section
/-!
SUPPORT. The laws of the sparse maps: reading after a write, and that every operation keeps the canonical form.
-/

namespace Sys2Proof.Machine.Assoc

variable {α : Type} (d : Nat → α)

theorem get_insert_same (k : Nat) (v : α) (m : List (Nat × α)) : get d (insert k v m) k = v := by
  induction m with
  | nil => simp [insert, get]
  | cons p m ih =>
    obtain ⟨k', v'⟩ := p
    unfold insert
    split
    · simp [get]
    · split
      · simp [get]
      · simp [get, ih, *]

theorem get_insert_other {k j : Nat} (h : j ≠ k) (v : α) (m : List (Nat × α)) :
    get d (insert k v m) j = get d m j := by
  induction m with
  | nil => simp [insert, get, h]
  | cons p m ih =>
    obtain ⟨k', v'⟩ := p
    unfold insert
    split
    · subst_vars; simp [get, h]
    · split
      · simp [get, h]
      · simp [get, ih]

theorem get_remove_same (k : Nat) (m : List (Nat × α)) : get d (remove k m) k = d k := by
  induction m with
  | nil => rfl
  | cons p m ih =>
    obtain ⟨k', v'⟩ := p
    unfold remove
    split
    · exact ih
    · simp [get, ih, *]

theorem get_remove_other {k j : Nat} (h : j ≠ k) (m : List (Nat × α)) :
    get d (remove k m) j = get d m j := by
  induction m with
  | nil => rfl
  | cons p m ih =>
    obtain ⟨k', v'⟩ := p
    unfold remove
    split
    · subst_vars; simp [get, h, ih]
    · simp [get, ih]

variable [DecidableEq α]

/-- A read after a write to the same key gives the value written. -/
@[simp] theorem get_put_same (k : Nat) (v : α) (m : List (Nat × α)) : get d (put d k v m) k = v := by
  unfold put
  split
  · rw [get_remove_same]; exact Eq.symm ‹_›
  · exact get_insert_same d k v m

/-- A write leaves every other key as it was. -/
theorem get_put_other {k j : Nat} (h : j ≠ k) (v : α) (m : List (Nat × α)) :
    get d (put d k v m) j = get d m j := by
  unfold put
  split
  · exact get_remove_other d h m
  · exact get_insert_other d h v m

theorem above_insert {lo k : Nat} (v : α) {m : List (Nat × α)} (hk : lo < k) (hm : above lo m = true) :
    above lo (insert k v m) = true := by
  cases m with
  | nil => simp [insert, above, hk]
  | cons p m =>
    obtain ⟨k', v'⟩ := p
    simp only [above, decide_eq_true_eq] at hm
    unfold insert
    split
    · simp [above, hk]
    · split <;> simp [above, hk, hm]

theorem above_trans {lo hi : Nat} {m : List (Nat × α)} (h : lo < hi) (hm : above hi m = true) :
    above lo m = true := by
  cases m with
  | nil => rfl
  | cons p m => simp only [above, decide_eq_true_eq] at *; omega

theorem above_remove {lo k : Nat} {m : List (Nat × α)} (h : wf d m = true) (hm : above lo m = true) :
    above lo (remove k m) = true := by
  induction m with
  | nil => rfl
  | cons p m ih =>
    obtain ⟨k', v'⟩ := p
    simp only [wf, Bool.and_eq_true, decide_eq_true_eq] at h
    simp only [above, decide_eq_true_eq] at hm
    unfold remove
    split
    · exact ih h.2 (above_trans hm h.1.1)
    · simp [above, hm]

/-- Removing a key keeps the canonical form. -/
theorem wf_remove (k : Nat) {m : List (Nat × α)} (h : wf d m = true) : wf d (remove k m) = true := by
  induction m with
  | nil => rfl
  | cons p m ih =>
    obtain ⟨k', v'⟩ := p
    have h' := h
    simp only [wf, Bool.and_eq_true, decide_eq_true_eq] at h
    unfold remove
    split
    · exact ih h.2
    · simp [wf, ih h.2, h.1.2, above_remove d h.2 h.1.1]

/-- Inserting a value that is not the default keeps the canonical form. -/
theorem wf_insert {k : Nat} {v : α} (hv : v ≠ d k) {m : List (Nat × α)} (h : wf d m = true) :
    wf d (insert k v m) = true := by
  induction m with
  | nil => simp [insert, wf, above, hv]
  | cons p m ih =>
    obtain ⟨k', v'⟩ := p
    have h0 := h
    simp only [wf, Bool.and_eq_true, decide_eq_true_eq] at h
    unfold insert
    split
    · subst_vars; simp [wf, h.1.1, h.2, hv]
    · split
      · simp only [wf, Bool.and_eq_true, decide_eq_true_eq]
        exact ⟨⟨by simpa [above], hv⟩, h.1, h.2⟩
      · have : k' < k := by omega
        simp [wf, above_insert v this h.1.1, ih h.2, h.1.2]

/-- Every write keeps the canonical form. -/
theorem wf_put (k : Nat) (v : α) {m : List (Nat × α)} (h : wf d m = true) : wf d (put d k v m) = true := by
  unfold put
  split
  · exact wf_remove d k h
  · exact wf_insert d ‹_› h

end Sys2Proof.Machine.Assoc
end

