-- ==== Sys2Proof/Laws/Fields.lean ====
section
/-!
SUPPORT. Register fields: reading a field after writing it, and after writing another one.
-/

namespace Sys2Proof.Machine

theorem Fld.testBit_get (f : Fld) (v : Word) (i : Nat) : (f.get v).testBit i = (decide (i < f.w) && v.getLsbD (f.lo + i)) := by
  simp [Fld.get, Nat.testBit_mod_two_pow, Nat.testBit_shiftRight, BitVec.getLsbD]

theorem Fld.getLsbD_mask (f : Fld) (k : Nat) :
    f.mask.getLsbD k = (decide (k < 64) && !decide (k < f.lo) && decide (k - f.lo < f.w)) := by
  unfold Fld.mask
  rw [BitVec.getLsbD_shiftLeft, BitVec.getLsbD_ofNat, Nat.testBit_two_pow_sub_one]
  by_cases h : k < 64
  · have g : k - f.lo < 64 := by omega
    simp [h, g]
  · simp [h]

theorem Fld.getLsbD_put (f : Fld) (v : Word) (x k : Nat) (hk : k < 64) :
    (f.put v x).getLsbD k =
      if k < f.lo then v.getLsbD k else if k - f.lo < f.w then x.testBit (k - f.lo) else v.getLsbD k := by
  have g : k - f.lo < 64 := by omega
  unfold Fld.put
  rw [BitVec.getLsbD_or, BitVec.getLsbD_and, BitVec.getLsbD_not, Fld.getLsbD_mask, BitVec.getLsbD_shiftLeft,
    BitVec.getLsbD_ofNat, Nat.testBit_mod_two_pow]
  by_cases h : k < f.lo
  · simp [hk, h]
  · by_cases e : k - f.lo < f.w <;> simp [hk, h, e, g]

/-- A field that lies in the register reads back what was written, cut to its width. -/
theorem Fld.get_put (f : Fld) (v : Word) (x : Nat) (h : f.lo + f.w ≤ 64) : f.get (f.put v x) = x % 2 ^ f.w := by
  apply Nat.eq_of_testBit_eq
  intro i
  rw [Fld.testBit_get, Nat.testBit_mod_two_pow]
  by_cases hi : i < f.w
  · rw [Fld.getLsbD_put _ _ _ _ (by omega), if_neg (by omega)]
    simp [hi]
  · simp [hi]

/-- A field that another one does not overlap is left alone. -/
theorem Fld.get_put_other (f g : Fld) (v : Word) (x : Nat) (hg : g.lo + g.w ≤ 64)
    (h : f.lo + f.w ≤ g.lo ∨ g.lo + g.w ≤ f.lo) : g.get (f.put v x) = g.get v := by
  apply Nat.eq_of_testBit_eq
  intro i
  rw [Fld.testBit_get, Fld.testBit_get]
  by_cases hi : i < g.w
  · rw [Fld.getLsbD_put _ _ _ _ (by omega)]
    split
    · rfl
    · rw [if_neg (by omega)]
  · simp [hi]

end Sys2Proof.Machine
end

