-- ==== Sys2Proof/Laws/State.lean ====
section
/-!
SUPPORT. What each update of State leaves of every field, true by unfolding: one lemma a field and update, so that no
proof unfolds a record update.
-/

namespace Sys2Proof.Machine

variable (s : State)

/-! ### setReg -/

@[simp] theorem setReg_pending (a : Nat) (v : Word) : (s.setReg a v).pending = s.pending := rfl
@[simp] theorem setReg_now (a : Nat) (v : Word) : (s.setReg a v).now = s.now := rfl
@[simp] theorem setReg_regs (a : Nat) (v : Word) : (s.setReg a v).regs = Assoc.put regReset a v s.regs := rfl
@[simp] theorem setReg_mem (a : Nat) (v : Word) : (s.setReg a v).mem = s.mem := rfl
@[simp] theorem setReg_poison (a : Nat) (v : Word) : (s.setReg a v).poison = s.poison := rfl
@[simp] theorem setReg_keys (a : Nat) (v : Word) : (s.setReg a v).keys = s.keys := rfl
@[simp] theorem setReg_nextKey (a : Nat) (v : Word) : (s.setReg a v).nextKey = s.nextKey := rfl
@[simp] theorem setReg_cells (a : Nat) (v : Word) : (s.setReg a v).cells = s.cells := rfl
@[simp] theorem setReg_rgns (a : Nat) (v : Word) : (s.setReg a v).rgns = s.rgns := rfl
@[simp] theorem setReg_parts (a : Nat) (v : Word) : (s.setReg a v).parts = s.parts := rfl
@[simp] theorem setReg_cmds (a : Nat) (v : Word) : (s.setReg a v).cmds = s.cmds := rfl
@[simp] theorem setReg_nextId (a : Nat) (v : Word) : (s.setReg a v).nextId = s.nextId := rfl
@[simp] theorem setReg_nextSeq (a : Nat) (v : Word) : (s.setReg a v).nextSeq = s.nextSeq := rfl
@[simp] theorem setReg_flt (a : Nat) (v : Word) : (s.setReg a v).flt = s.flt := rfl
@[simp] theorem setReg_taith (a : Nat) (v : Word) : (s.setReg a v).taith = s.taith := rfl
@[simp] theorem setReg_mgmtCq (a : Nat) (v : Word) : (s.setReg a v).mgmtCq = s.mgmtCq := rfl
@[simp] theorem setReg_mgmtStop (a : Nat) (v : Word) : (s.setReg a v).mgmtStop = s.mgmtStop := rfl
@[simp] theorem setReg_barCause (a : Nat) (v : Word) : (s.setReg a v).barCause = s.barCause := rfl
@[simp] theorem setReg_offers (a : Nat) (v : Word) : (s.setReg a v).offers = s.offers := rfl
@[simp] theorem setReg_borrows (a : Nat) (v : Word) : (s.setReg a v).borrows = s.borrows := rfl
@[simp] theorem setReg_pwr (a : Nat) (v : Word) : (s.setReg a v).pwr = s.pwr := rfl
@[simp] theorem setReg_sec (a : Nat) (v : Word) : (s.setReg a v).sec = s.sec := rfl
@[simp] theorem setReg_boot (a : Nat) (v : Word) : (s.setReg a v).boot = s.boot := rfl
@[simp] theorem setReg_pins (a : Nat) (v : Word) : (s.setReg a v).pins = s.pins := rfl
@[simp] theorem setReg_free (a : Nat) (v : Word) : (s.setReg a v).free = s.free := rfl

/-! ### setFld -/

@[simp] theorem setFld_pending (a : Nat) (f : Fld) (x : Nat) : (s.setFld a f x).pending = s.pending := rfl
@[simp] theorem setFld_now (a : Nat) (f : Fld) (x : Nat) : (s.setFld a f x).now = s.now := rfl
@[simp] theorem setFld_regs (a : Nat) (f : Fld) (x : Nat) : (s.setFld a f x).regs = Assoc.put regReset a (f.put (s.reg a) x) s.regs := rfl
@[simp] theorem setFld_mem (a : Nat) (f : Fld) (x : Nat) : (s.setFld a f x).mem = s.mem := rfl
@[simp] theorem setFld_poison (a : Nat) (f : Fld) (x : Nat) : (s.setFld a f x).poison = s.poison := rfl
@[simp] theorem setFld_keys (a : Nat) (f : Fld) (x : Nat) : (s.setFld a f x).keys = s.keys := rfl
@[simp] theorem setFld_nextKey (a : Nat) (f : Fld) (x : Nat) : (s.setFld a f x).nextKey = s.nextKey := rfl
@[simp] theorem setFld_cells (a : Nat) (f : Fld) (x : Nat) : (s.setFld a f x).cells = s.cells := rfl
@[simp] theorem setFld_rgns (a : Nat) (f : Fld) (x : Nat) : (s.setFld a f x).rgns = s.rgns := rfl
@[simp] theorem setFld_parts (a : Nat) (f : Fld) (x : Nat) : (s.setFld a f x).parts = s.parts := rfl
@[simp] theorem setFld_cmds (a : Nat) (f : Fld) (x : Nat) : (s.setFld a f x).cmds = s.cmds := rfl
@[simp] theorem setFld_nextId (a : Nat) (f : Fld) (x : Nat) : (s.setFld a f x).nextId = s.nextId := rfl
@[simp] theorem setFld_nextSeq (a : Nat) (f : Fld) (x : Nat) : (s.setFld a f x).nextSeq = s.nextSeq := rfl
@[simp] theorem setFld_flt (a : Nat) (f : Fld) (x : Nat) : (s.setFld a f x).flt = s.flt := rfl
@[simp] theorem setFld_taith (a : Nat) (f : Fld) (x : Nat) : (s.setFld a f x).taith = s.taith := rfl
@[simp] theorem setFld_mgmtCq (a : Nat) (f : Fld) (x : Nat) : (s.setFld a f x).mgmtCq = s.mgmtCq := rfl
@[simp] theorem setFld_mgmtStop (a : Nat) (f : Fld) (x : Nat) : (s.setFld a f x).mgmtStop = s.mgmtStop := rfl
@[simp] theorem setFld_barCause (a : Nat) (f : Fld) (x : Nat) : (s.setFld a f x).barCause = s.barCause := rfl
@[simp] theorem setFld_offers (a : Nat) (f : Fld) (x : Nat) : (s.setFld a f x).offers = s.offers := rfl
@[simp] theorem setFld_borrows (a : Nat) (f : Fld) (x : Nat) : (s.setFld a f x).borrows = s.borrows := rfl
@[simp] theorem setFld_pwr (a : Nat) (f : Fld) (x : Nat) : (s.setFld a f x).pwr = s.pwr := rfl
@[simp] theorem setFld_sec (a : Nat) (f : Fld) (x : Nat) : (s.setFld a f x).sec = s.sec := rfl
@[simp] theorem setFld_boot (a : Nat) (f : Fld) (x : Nat) : (s.setFld a f x).boot = s.boot := rfl
@[simp] theorem setFld_pins (a : Nat) (f : Fld) (x : Nat) : (s.setFld a f x).pins = s.pins := rfl
@[simp] theorem setFld_free (a : Nat) (f : Fld) (x : Nat) : (s.setFld a f x).free = s.free := rfl

/-! ### bump -/

@[simp] theorem bump_pending (a : Nat) (f : Fld) (k : Nat) : (s.bump a f k).pending = s.pending := rfl
@[simp] theorem bump_now (a : Nat) (f : Fld) (k : Nat) : (s.bump a f k).now = s.now := rfl
@[simp] theorem bump_regs (a : Nat) (f : Fld) (k : Nat) : (s.bump a f k).regs = (s.setFld a f (min (s.fld a f + k) (2 ^ f.w - 1))).regs := rfl
@[simp] theorem bump_mem (a : Nat) (f : Fld) (k : Nat) : (s.bump a f k).mem = s.mem := rfl
@[simp] theorem bump_poison (a : Nat) (f : Fld) (k : Nat) : (s.bump a f k).poison = s.poison := rfl
@[simp] theorem bump_keys (a : Nat) (f : Fld) (k : Nat) : (s.bump a f k).keys = s.keys := rfl
@[simp] theorem bump_nextKey (a : Nat) (f : Fld) (k : Nat) : (s.bump a f k).nextKey = s.nextKey := rfl
@[simp] theorem bump_cells (a : Nat) (f : Fld) (k : Nat) : (s.bump a f k).cells = s.cells := rfl
@[simp] theorem bump_rgns (a : Nat) (f : Fld) (k : Nat) : (s.bump a f k).rgns = s.rgns := rfl
@[simp] theorem bump_parts (a : Nat) (f : Fld) (k : Nat) : (s.bump a f k).parts = s.parts := rfl
@[simp] theorem bump_cmds (a : Nat) (f : Fld) (k : Nat) : (s.bump a f k).cmds = s.cmds := rfl
@[simp] theorem bump_nextId (a : Nat) (f : Fld) (k : Nat) : (s.bump a f k).nextId = s.nextId := rfl
@[simp] theorem bump_nextSeq (a : Nat) (f : Fld) (k : Nat) : (s.bump a f k).nextSeq = s.nextSeq := rfl
@[simp] theorem bump_flt (a : Nat) (f : Fld) (k : Nat) : (s.bump a f k).flt = s.flt := rfl
@[simp] theorem bump_taith (a : Nat) (f : Fld) (k : Nat) : (s.bump a f k).taith = s.taith := rfl
@[simp] theorem bump_mgmtCq (a : Nat) (f : Fld) (k : Nat) : (s.bump a f k).mgmtCq = s.mgmtCq := rfl
@[simp] theorem bump_mgmtStop (a : Nat) (f : Fld) (k : Nat) : (s.bump a f k).mgmtStop = s.mgmtStop := rfl
@[simp] theorem bump_barCause (a : Nat) (f : Fld) (k : Nat) : (s.bump a f k).barCause = s.barCause := rfl
@[simp] theorem bump_offers (a : Nat) (f : Fld) (k : Nat) : (s.bump a f k).offers = s.offers := rfl
@[simp] theorem bump_borrows (a : Nat) (f : Fld) (k : Nat) : (s.bump a f k).borrows = s.borrows := rfl
@[simp] theorem bump_pwr (a : Nat) (f : Fld) (k : Nat) : (s.bump a f k).pwr = s.pwr := rfl
@[simp] theorem bump_sec (a : Nat) (f : Fld) (k : Nat) : (s.bump a f k).sec = s.sec := rfl
@[simp] theorem bump_boot (a : Nat) (f : Fld) (k : Nat) : (s.bump a f k).boot = s.boot := rfl
@[simp] theorem bump_pins (a : Nat) (f : Fld) (k : Nat) : (s.bump a f k).pins = s.pins := rfl
@[simp] theorem bump_free (a : Nat) (f : Fld) (k : Nat) : (s.bump a f k).free = s.free := rfl

/-! ### store -/

@[simp] theorem store_pending (a : Nat) (b : List Byte) : (s.store a b).pending = s.pending := rfl
@[simp] theorem store_now (a : Nat) (b : List Byte) : (s.store a b).now = s.now := rfl
@[simp] theorem store_regs (a : Nat) (b : List Byte) : (s.store a b).regs = s.regs := rfl
@[simp] theorem store_mem (a : Nat) (b : List Byte) : (s.store a b).mem = putBytes s.mem a b := rfl
@[simp] theorem store_poison (a : Nat) (b : List Byte) : (s.store a b).poison = s.poison := rfl
@[simp] theorem store_keys (a : Nat) (b : List Byte) : (s.store a b).keys = s.keys := rfl
@[simp] theorem store_nextKey (a : Nat) (b : List Byte) : (s.store a b).nextKey = s.nextKey := rfl
@[simp] theorem store_cells (a : Nat) (b : List Byte) : (s.store a b).cells = s.cells := rfl
@[simp] theorem store_rgns (a : Nat) (b : List Byte) : (s.store a b).rgns = s.rgns := rfl
@[simp] theorem store_parts (a : Nat) (b : List Byte) : (s.store a b).parts = s.parts := rfl
@[simp] theorem store_cmds (a : Nat) (b : List Byte) : (s.store a b).cmds = s.cmds := rfl
@[simp] theorem store_nextId (a : Nat) (b : List Byte) : (s.store a b).nextId = s.nextId := rfl
@[simp] theorem store_nextSeq (a : Nat) (b : List Byte) : (s.store a b).nextSeq = s.nextSeq := rfl
@[simp] theorem store_flt (a : Nat) (b : List Byte) : (s.store a b).flt = s.flt := rfl
@[simp] theorem store_taith (a : Nat) (b : List Byte) : (s.store a b).taith = s.taith := rfl
@[simp] theorem store_mgmtCq (a : Nat) (b : List Byte) : (s.store a b).mgmtCq = s.mgmtCq := rfl
@[simp] theorem store_mgmtStop (a : Nat) (b : List Byte) : (s.store a b).mgmtStop = s.mgmtStop := rfl
@[simp] theorem store_barCause (a : Nat) (b : List Byte) : (s.store a b).barCause = s.barCause := rfl
@[simp] theorem store_offers (a : Nat) (b : List Byte) : (s.store a b).offers = s.offers := rfl
@[simp] theorem store_borrows (a : Nat) (b : List Byte) : (s.store a b).borrows = s.borrows := rfl
@[simp] theorem store_pwr (a : Nat) (b : List Byte) : (s.store a b).pwr = s.pwr := rfl
@[simp] theorem store_sec (a : Nat) (b : List Byte) : (s.store a b).sec = s.sec := rfl
@[simp] theorem store_boot (a : Nat) (b : List Byte) : (s.store a b).boot = s.boot := rfl
@[simp] theorem store_pins (a : Nat) (b : List Byte) : (s.store a b).pins = s.pins := rfl
@[simp] theorem store_free (a : Nat) (b : List Byte) : (s.store a b).free = s.free := rfl

/-! ### modRgn -/

@[simp] theorem modRgn_pending (n : Nat) (f : Region → Region) : (s.modRgn n f).pending = s.pending := rfl
@[simp] theorem modRgn_now (n : Nat) (f : Region → Region) : (s.modRgn n f).now = s.now := rfl
@[simp] theorem modRgn_regs (n : Nat) (f : Region → Region) : (s.modRgn n f).regs = s.regs := rfl
@[simp] theorem modRgn_mem (n : Nat) (f : Region → Region) : (s.modRgn n f).mem = s.mem := rfl
@[simp] theorem modRgn_poison (n : Nat) (f : Region → Region) : (s.modRgn n f).poison = s.poison := rfl
@[simp] theorem modRgn_keys (n : Nat) (f : Region → Region) : (s.modRgn n f).keys = s.keys := rfl
@[simp] theorem modRgn_nextKey (n : Nat) (f : Region → Region) : (s.modRgn n f).nextKey = s.nextKey := rfl
@[simp] theorem modRgn_cells (n : Nat) (f : Region → Region) : (s.modRgn n f).cells = s.cells := rfl
@[simp] theorem modRgn_rgns (n : Nat) (f : Region → Region) : (s.modRgn n f).rgns = Vec.modify s.rgns n f := rfl
@[simp] theorem modRgn_parts (n : Nat) (f : Region → Region) : (s.modRgn n f).parts = s.parts := rfl
@[simp] theorem modRgn_cmds (n : Nat) (f : Region → Region) : (s.modRgn n f).cmds = s.cmds := rfl
@[simp] theorem modRgn_nextId (n : Nat) (f : Region → Region) : (s.modRgn n f).nextId = s.nextId := rfl
@[simp] theorem modRgn_nextSeq (n : Nat) (f : Region → Region) : (s.modRgn n f).nextSeq = s.nextSeq := rfl
@[simp] theorem modRgn_flt (n : Nat) (f : Region → Region) : (s.modRgn n f).flt = s.flt := rfl
@[simp] theorem modRgn_taith (n : Nat) (f : Region → Region) : (s.modRgn n f).taith = s.taith := rfl
@[simp] theorem modRgn_mgmtCq (n : Nat) (f : Region → Region) : (s.modRgn n f).mgmtCq = s.mgmtCq := rfl
@[simp] theorem modRgn_mgmtStop (n : Nat) (f : Region → Region) : (s.modRgn n f).mgmtStop = s.mgmtStop := rfl
@[simp] theorem modRgn_barCause (n : Nat) (f : Region → Region) : (s.modRgn n f).barCause = s.barCause := rfl
@[simp] theorem modRgn_offers (n : Nat) (f : Region → Region) : (s.modRgn n f).offers = s.offers := rfl
@[simp] theorem modRgn_borrows (n : Nat) (f : Region → Region) : (s.modRgn n f).borrows = s.borrows := rfl
@[simp] theorem modRgn_pwr (n : Nat) (f : Region → Region) : (s.modRgn n f).pwr = s.pwr := rfl
@[simp] theorem modRgn_sec (n : Nat) (f : Region → Region) : (s.modRgn n f).sec = s.sec := rfl
@[simp] theorem modRgn_boot (n : Nat) (f : Region → Region) : (s.modRgn n f).boot = s.boot := rfl
@[simp] theorem modRgn_pins (n : Nat) (f : Region → Region) : (s.modRgn n f).pins = s.pins := rfl
@[simp] theorem modRgn_free (n : Nat) (f : Region → Region) : (s.modRgn n f).free = s.free := rfl

/-! ### modPart -/

@[simp] theorem modPart_pending (p : Part) (f : Partition → Partition) : (s.modPart p f).pending = s.pending := rfl
@[simp] theorem modPart_now (p : Part) (f : Partition → Partition) : (s.modPart p f).now = s.now := rfl
@[simp] theorem modPart_regs (p : Part) (f : Partition → Partition) : (s.modPart p f).regs = s.regs := rfl
@[simp] theorem modPart_mem (p : Part) (f : Partition → Partition) : (s.modPart p f).mem = s.mem := rfl
@[simp] theorem modPart_poison (p : Part) (f : Partition → Partition) : (s.modPart p f).poison = s.poison := rfl
@[simp] theorem modPart_keys (p : Part) (f : Partition → Partition) : (s.modPart p f).keys = s.keys := rfl
@[simp] theorem modPart_nextKey (p : Part) (f : Partition → Partition) : (s.modPart p f).nextKey = s.nextKey := rfl
@[simp] theorem modPart_cells (p : Part) (f : Partition → Partition) : (s.modPart p f).cells = s.cells := rfl
@[simp] theorem modPart_rgns (p : Part) (f : Partition → Partition) : (s.modPart p f).rgns = s.rgns := rfl
@[simp] theorem modPart_parts (p : Part) (f : Partition → Partition) : (s.modPart p f).parts = Vec.modify s.parts p.val f := rfl
@[simp] theorem modPart_cmds (p : Part) (f : Partition → Partition) : (s.modPart p f).cmds = s.cmds := rfl
@[simp] theorem modPart_nextId (p : Part) (f : Partition → Partition) : (s.modPart p f).nextId = s.nextId := rfl
@[simp] theorem modPart_nextSeq (p : Part) (f : Partition → Partition) : (s.modPart p f).nextSeq = s.nextSeq := rfl
@[simp] theorem modPart_flt (p : Part) (f : Partition → Partition) : (s.modPart p f).flt = s.flt := rfl
@[simp] theorem modPart_taith (p : Part) (f : Partition → Partition) : (s.modPart p f).taith = s.taith := rfl
@[simp] theorem modPart_mgmtCq (p : Part) (f : Partition → Partition) : (s.modPart p f).mgmtCq = s.mgmtCq := rfl
@[simp] theorem modPart_mgmtStop (p : Part) (f : Partition → Partition) : (s.modPart p f).mgmtStop = s.mgmtStop := rfl
@[simp] theorem modPart_barCause (p : Part) (f : Partition → Partition) : (s.modPart p f).barCause = s.barCause := rfl
@[simp] theorem modPart_offers (p : Part) (f : Partition → Partition) : (s.modPart p f).offers = s.offers := rfl
@[simp] theorem modPart_borrows (p : Part) (f : Partition → Partition) : (s.modPart p f).borrows = s.borrows := rfl
@[simp] theorem modPart_pwr (p : Part) (f : Partition → Partition) : (s.modPart p f).pwr = s.pwr := rfl
@[simp] theorem modPart_sec (p : Part) (f : Partition → Partition) : (s.modPart p f).sec = s.sec := rfl
@[simp] theorem modPart_boot (p : Part) (f : Partition → Partition) : (s.modPart p f).boot = s.boot := rfl
@[simp] theorem modPart_pins (p : Part) (f : Partition → Partition) : (s.modPart p f).pins = s.pins := rfl
@[simp] theorem modPart_free (p : Part) (f : Partition → Partition) : (s.modPart p f).free = s.free := rfl

/-! ### modCmd -/

@[simp] theorem modCmd_pending (id : Nat) (f : Cmd → Cmd) : (s.modCmd id f).pending = s.pending := rfl
@[simp] theorem modCmd_now (id : Nat) (f : Cmd → Cmd) : (s.modCmd id f).now = s.now := rfl
@[simp] theorem modCmd_regs (id : Nat) (f : Cmd → Cmd) : (s.modCmd id f).regs = s.regs := rfl
@[simp] theorem modCmd_mem (id : Nat) (f : Cmd → Cmd) : (s.modCmd id f).mem = s.mem := rfl
@[simp] theorem modCmd_poison (id : Nat) (f : Cmd → Cmd) : (s.modCmd id f).poison = s.poison := rfl
@[simp] theorem modCmd_keys (id : Nat) (f : Cmd → Cmd) : (s.modCmd id f).keys = s.keys := rfl
@[simp] theorem modCmd_nextKey (id : Nat) (f : Cmd → Cmd) : (s.modCmd id f).nextKey = s.nextKey := rfl
@[simp] theorem modCmd_cells (id : Nat) (f : Cmd → Cmd) : (s.modCmd id f).cells = s.cells := rfl
@[simp] theorem modCmd_rgns (id : Nat) (f : Cmd → Cmd) : (s.modCmd id f).rgns = s.rgns := rfl
@[simp] theorem modCmd_parts (id : Nat) (f : Cmd → Cmd) : (s.modCmd id f).parts = s.parts := rfl
@[simp] theorem modCmd_cmds (id : Nat) (f : Cmd → Cmd) : (s.modCmd id f).cmds = s.cmds.map fun c => if c.id = id then f c else c := rfl
@[simp] theorem modCmd_nextId (id : Nat) (f : Cmd → Cmd) : (s.modCmd id f).nextId = s.nextId := rfl
@[simp] theorem modCmd_nextSeq (id : Nat) (f : Cmd → Cmd) : (s.modCmd id f).nextSeq = s.nextSeq := rfl
@[simp] theorem modCmd_flt (id : Nat) (f : Cmd → Cmd) : (s.modCmd id f).flt = s.flt := rfl
@[simp] theorem modCmd_taith (id : Nat) (f : Cmd → Cmd) : (s.modCmd id f).taith = s.taith := rfl
@[simp] theorem modCmd_mgmtCq (id : Nat) (f : Cmd → Cmd) : (s.modCmd id f).mgmtCq = s.mgmtCq := rfl
@[simp] theorem modCmd_mgmtStop (id : Nat) (f : Cmd → Cmd) : (s.modCmd id f).mgmtStop = s.mgmtStop := rfl
@[simp] theorem modCmd_barCause (id : Nat) (f : Cmd → Cmd) : (s.modCmd id f).barCause = s.barCause := rfl
@[simp] theorem modCmd_offers (id : Nat) (f : Cmd → Cmd) : (s.modCmd id f).offers = s.offers := rfl
@[simp] theorem modCmd_borrows (id : Nat) (f : Cmd → Cmd) : (s.modCmd id f).borrows = s.borrows := rfl
@[simp] theorem modCmd_pwr (id : Nat) (f : Cmd → Cmd) : (s.modCmd id f).pwr = s.pwr := rfl
@[simp] theorem modCmd_sec (id : Nat) (f : Cmd → Cmd) : (s.modCmd id f).sec = s.sec := rfl
@[simp] theorem modCmd_boot (id : Nat) (f : Cmd → Cmd) : (s.modCmd id f).boot = s.boot := rfl
@[simp] theorem modCmd_pins (id : Nat) (f : Cmd → Cmd) : (s.modCmd id f).pins = s.pins := rfl
@[simp] theorem modCmd_free (id : Nat) (f : Cmd → Cmd) : (s.modCmd id f).free = s.free := rfl

/-! ### setDom -/

@[simp] theorem setDom_pending (d : Nat) (on : Bool) : (s.setDom d on).pending = s.pending := rfl
@[simp] theorem setDom_now (d : Nat) (on : Bool) : (s.setDom d on).now = s.now := rfl
@[simp] theorem setDom_regs (d : Nat) (on : Bool) : (s.setDom d on).regs = s.regs := rfl
@[simp] theorem setDom_mem (d : Nat) (on : Bool) : (s.setDom d on).mem = s.mem := rfl
@[simp] theorem setDom_poison (d : Nat) (on : Bool) : (s.setDom d on).poison = s.poison := rfl
@[simp] theorem setDom_keys (d : Nat) (on : Bool) : (s.setDom d on).keys = s.keys := rfl
@[simp] theorem setDom_nextKey (d : Nat) (on : Bool) : (s.setDom d on).nextKey = s.nextKey := rfl
@[simp] theorem setDom_cells (d : Nat) (on : Bool) : (s.setDom d on).cells = s.cells := rfl
@[simp] theorem setDom_rgns (d : Nat) (on : Bool) : (s.setDom d on).rgns = s.rgns := rfl
@[simp] theorem setDom_parts (d : Nat) (on : Bool) : (s.setDom d on).parts = s.parts := rfl
@[simp] theorem setDom_cmds (d : Nat) (on : Bool) : (s.setDom d on).cmds = s.cmds := rfl
@[simp] theorem setDom_nextId (d : Nat) (on : Bool) : (s.setDom d on).nextId = s.nextId := rfl
@[simp] theorem setDom_nextSeq (d : Nat) (on : Bool) : (s.setDom d on).nextSeq = s.nextSeq := rfl
@[simp] theorem setDom_flt (d : Nat) (on : Bool) : (s.setDom d on).flt = s.flt := rfl
@[simp] theorem setDom_taith (d : Nat) (on : Bool) : (s.setDom d on).taith = s.taith := rfl
@[simp] theorem setDom_mgmtCq (d : Nat) (on : Bool) : (s.setDom d on).mgmtCq = s.mgmtCq := rfl
@[simp] theorem setDom_mgmtStop (d : Nat) (on : Bool) : (s.setDom d on).mgmtStop = s.mgmtStop := rfl
@[simp] theorem setDom_barCause (d : Nat) (on : Bool) : (s.setDom d on).barCause = s.barCause := rfl
@[simp] theorem setDom_offers (d : Nat) (on : Bool) : (s.setDom d on).offers = s.offers := rfl
@[simp] theorem setDom_borrows (d : Nat) (on : Bool) : (s.setDom d on).borrows = s.borrows := rfl
@[simp] theorem setDom_sec (d : Nat) (on : Bool) : (s.setDom d on).sec = s.sec := rfl
@[simp] theorem setDom_boot (d : Nat) (on : Bool) : (s.setDom d on).boot = s.boot := rfl
@[simp] theorem setDom_pins (d : Nat) (on : Bool) : (s.setDom d on).pins = s.pins := rfl
@[simp] theorem setDom_free (d : Nat) (on : Bool) : (s.setDom d on).free = s.free := rfl

/-! ### setCell -/

@[simp] theorem setCell_pending (n c : Nat) (x : Cell) : (s.setCell n c x).pending = s.pending := rfl
@[simp] theorem setCell_now (n c : Nat) (x : Cell) : (s.setCell n c x).now = s.now := rfl
@[simp] theorem setCell_regs (n c : Nat) (x : Cell) : (s.setCell n c x).regs = s.regs := rfl
@[simp] theorem setCell_mem (n c : Nat) (x : Cell) : (s.setCell n c x).mem = s.mem := rfl
@[simp] theorem setCell_poison (n c : Nat) (x : Cell) : (s.setCell n c x).poison = s.poison := rfl
@[simp] theorem setCell_keys (n c : Nat) (x : Cell) : (s.setCell n c x).keys = s.keys := rfl
@[simp] theorem setCell_nextKey (n c : Nat) (x : Cell) : (s.setCell n c x).nextKey = s.nextKey := rfl
@[simp] theorem setCell_rgns (n c : Nat) (x : Cell) : (s.setCell n c x).rgns = s.rgns := rfl
@[simp] theorem setCell_parts (n c : Nat) (x : Cell) : (s.setCell n c x).parts = s.parts := rfl
@[simp] theorem setCell_cmds (n c : Nat) (x : Cell) : (s.setCell n c x).cmds = s.cmds := rfl
@[simp] theorem setCell_nextId (n c : Nat) (x : Cell) : (s.setCell n c x).nextId = s.nextId := rfl
@[simp] theorem setCell_nextSeq (n c : Nat) (x : Cell) : (s.setCell n c x).nextSeq = s.nextSeq := rfl
@[simp] theorem setCell_flt (n c : Nat) (x : Cell) : (s.setCell n c x).flt = s.flt := rfl
@[simp] theorem setCell_taith (n c : Nat) (x : Cell) : (s.setCell n c x).taith = s.taith := rfl
@[simp] theorem setCell_mgmtCq (n c : Nat) (x : Cell) : (s.setCell n c x).mgmtCq = s.mgmtCq := rfl
@[simp] theorem setCell_mgmtStop (n c : Nat) (x : Cell) : (s.setCell n c x).mgmtStop = s.mgmtStop := rfl
@[simp] theorem setCell_barCause (n c : Nat) (x : Cell) : (s.setCell n c x).barCause = s.barCause := rfl
@[simp] theorem setCell_offers (n c : Nat) (x : Cell) : (s.setCell n c x).offers = s.offers := rfl
@[simp] theorem setCell_borrows (n c : Nat) (x : Cell) : (s.setCell n c x).borrows = s.borrows := rfl
@[simp] theorem setCell_pwr (n c : Nat) (x : Cell) : (s.setCell n c x).pwr = s.pwr := rfl
@[simp] theorem setCell_sec (n c : Nat) (x : Cell) : (s.setCell n c x).sec = s.sec := rfl
@[simp] theorem setCell_boot (n c : Nat) (x : Cell) : (s.setCell n c x).boot = s.boot := rfl
@[simp] theorem setCell_pins (n c : Nat) (x : Cell) : (s.setCell n c x).pins = s.pins := rfl
@[simp] theorem setCell_free (n c : Nat) (x : Cell) : (s.setCell n c x).free = s.free := rfl

/-! ### modTaith -/

@[simp] theorem modTaith_pending (f : Taith → Taith) : (modTaith f s).pending = s.pending := rfl
@[simp] theorem modTaith_now (f : Taith → Taith) : (modTaith f s).now = s.now := rfl
@[simp] theorem modTaith_regs (f : Taith → Taith) : (modTaith f s).regs = s.regs := rfl
@[simp] theorem modTaith_mem (f : Taith → Taith) : (modTaith f s).mem = s.mem := rfl
@[simp] theorem modTaith_poison (f : Taith → Taith) : (modTaith f s).poison = s.poison := rfl
@[simp] theorem modTaith_keys (f : Taith → Taith) : (modTaith f s).keys = s.keys := rfl
@[simp] theorem modTaith_nextKey (f : Taith → Taith) : (modTaith f s).nextKey = s.nextKey := rfl
@[simp] theorem modTaith_cells (f : Taith → Taith) : (modTaith f s).cells = s.cells := rfl
@[simp] theorem modTaith_rgns (f : Taith → Taith) : (modTaith f s).rgns = s.rgns := rfl
@[simp] theorem modTaith_parts (f : Taith → Taith) : (modTaith f s).parts = s.parts := rfl
@[simp] theorem modTaith_cmds (f : Taith → Taith) : (modTaith f s).cmds = s.cmds := rfl
@[simp] theorem modTaith_nextId (f : Taith → Taith) : (modTaith f s).nextId = s.nextId := rfl
@[simp] theorem modTaith_nextSeq (f : Taith → Taith) : (modTaith f s).nextSeq = s.nextSeq := rfl
@[simp] theorem modTaith_flt (f : Taith → Taith) : (modTaith f s).flt = s.flt := rfl
@[simp] theorem modTaith_taith (f : Taith → Taith) : (modTaith f s).taith = f s.taith := rfl
@[simp] theorem modTaith_mgmtCq (f : Taith → Taith) : (modTaith f s).mgmtCq = s.mgmtCq := rfl
@[simp] theorem modTaith_mgmtStop (f : Taith → Taith) : (modTaith f s).mgmtStop = s.mgmtStop := rfl
@[simp] theorem modTaith_barCause (f : Taith → Taith) : (modTaith f s).barCause = s.barCause := rfl
@[simp] theorem modTaith_offers (f : Taith → Taith) : (modTaith f s).offers = s.offers := rfl
@[simp] theorem modTaith_borrows (f : Taith → Taith) : (modTaith f s).borrows = s.borrows := rfl
@[simp] theorem modTaith_pwr (f : Taith → Taith) : (modTaith f s).pwr = s.pwr := rfl
@[simp] theorem modTaith_sec (f : Taith → Taith) : (modTaith f s).sec = s.sec := rfl
@[simp] theorem modTaith_boot (f : Taith → Taith) : (modTaith f s).boot = s.boot := rfl
@[simp] theorem modTaith_pins (f : Taith → Taith) : (modTaith f s).pins = s.pins := rfl
@[simp] theorem modTaith_free (f : Taith → Taith) : (modTaith f s).free = s.free := rfl

/-! ### modSec -/

@[simp] theorem modSec_pending (f : Security → Security) : (modSec f s).pending = s.pending := rfl
@[simp] theorem modSec_now (f : Security → Security) : (modSec f s).now = s.now := rfl
@[simp] theorem modSec_regs (f : Security → Security) : (modSec f s).regs = s.regs := rfl
@[simp] theorem modSec_mem (f : Security → Security) : (modSec f s).mem = s.mem := rfl
@[simp] theorem modSec_poison (f : Security → Security) : (modSec f s).poison = s.poison := rfl
@[simp] theorem modSec_keys (f : Security → Security) : (modSec f s).keys = s.keys := rfl
@[simp] theorem modSec_nextKey (f : Security → Security) : (modSec f s).nextKey = s.nextKey := rfl
@[simp] theorem modSec_cells (f : Security → Security) : (modSec f s).cells = s.cells := rfl
@[simp] theorem modSec_rgns (f : Security → Security) : (modSec f s).rgns = s.rgns := rfl
@[simp] theorem modSec_parts (f : Security → Security) : (modSec f s).parts = s.parts := rfl
@[simp] theorem modSec_cmds (f : Security → Security) : (modSec f s).cmds = s.cmds := rfl
@[simp] theorem modSec_nextId (f : Security → Security) : (modSec f s).nextId = s.nextId := rfl
@[simp] theorem modSec_nextSeq (f : Security → Security) : (modSec f s).nextSeq = s.nextSeq := rfl
@[simp] theorem modSec_flt (f : Security → Security) : (modSec f s).flt = s.flt := rfl
@[simp] theorem modSec_taith (f : Security → Security) : (modSec f s).taith = s.taith := rfl
@[simp] theorem modSec_mgmtCq (f : Security → Security) : (modSec f s).mgmtCq = s.mgmtCq := rfl
@[simp] theorem modSec_mgmtStop (f : Security → Security) : (modSec f s).mgmtStop = s.mgmtStop := rfl
@[simp] theorem modSec_barCause (f : Security → Security) : (modSec f s).barCause = s.barCause := rfl
@[simp] theorem modSec_offers (f : Security → Security) : (modSec f s).offers = s.offers := rfl
@[simp] theorem modSec_borrows (f : Security → Security) : (modSec f s).borrows = s.borrows := rfl
@[simp] theorem modSec_pwr (f : Security → Security) : (modSec f s).pwr = s.pwr := rfl
@[simp] theorem modSec_sec (f : Security → Security) : (modSec f s).sec = f s.sec := rfl
@[simp] theorem modSec_boot (f : Security → Security) : (modSec f s).boot = s.boot := rfl
@[simp] theorem modSec_pins (f : Security → Security) : (modSec f s).pins = s.pins := rfl
@[simp] theorem modSec_free (f : Security → Security) : (modSec f s).free = s.free := rfl

/-! ### modPwr -/

@[simp] theorem modPwr_pending (f : Power → Power) : (modPwr f s).pending = s.pending := rfl
@[simp] theorem modPwr_now (f : Power → Power) : (modPwr f s).now = s.now := rfl
@[simp] theorem modPwr_regs (f : Power → Power) : (modPwr f s).regs = s.regs := rfl
@[simp] theorem modPwr_mem (f : Power → Power) : (modPwr f s).mem = s.mem := rfl
@[simp] theorem modPwr_poison (f : Power → Power) : (modPwr f s).poison = s.poison := rfl
@[simp] theorem modPwr_keys (f : Power → Power) : (modPwr f s).keys = s.keys := rfl
@[simp] theorem modPwr_nextKey (f : Power → Power) : (modPwr f s).nextKey = s.nextKey := rfl
@[simp] theorem modPwr_cells (f : Power → Power) : (modPwr f s).cells = s.cells := rfl
@[simp] theorem modPwr_rgns (f : Power → Power) : (modPwr f s).rgns = s.rgns := rfl
@[simp] theorem modPwr_parts (f : Power → Power) : (modPwr f s).parts = s.parts := rfl
@[simp] theorem modPwr_cmds (f : Power → Power) : (modPwr f s).cmds = s.cmds := rfl
@[simp] theorem modPwr_nextId (f : Power → Power) : (modPwr f s).nextId = s.nextId := rfl
@[simp] theorem modPwr_nextSeq (f : Power → Power) : (modPwr f s).nextSeq = s.nextSeq := rfl
@[simp] theorem modPwr_flt (f : Power → Power) : (modPwr f s).flt = s.flt := rfl
@[simp] theorem modPwr_taith (f : Power → Power) : (modPwr f s).taith = s.taith := rfl
@[simp] theorem modPwr_mgmtCq (f : Power → Power) : (modPwr f s).mgmtCq = s.mgmtCq := rfl
@[simp] theorem modPwr_mgmtStop (f : Power → Power) : (modPwr f s).mgmtStop = s.mgmtStop := rfl
@[simp] theorem modPwr_barCause (f : Power → Power) : (modPwr f s).barCause = s.barCause := rfl
@[simp] theorem modPwr_offers (f : Power → Power) : (modPwr f s).offers = s.offers := rfl
@[simp] theorem modPwr_borrows (f : Power → Power) : (modPwr f s).borrows = s.borrows := rfl
@[simp] theorem modPwr_pwr (f : Power → Power) : (modPwr f s).pwr = f s.pwr := rfl
@[simp] theorem modPwr_sec (f : Power → Power) : (modPwr f s).sec = s.sec := rfl
@[simp] theorem modPwr_boot (f : Power → Power) : (modPwr f s).boot = s.boot := rfl
@[simp] theorem modPwr_pins (f : Power → Power) : (modPwr f s).pins = s.pins := rfl
@[simp] theorem modPwr_free (f : Power → Power) : (modPwr f s).free = s.free := rfl

end Sys2Proof.Machine
end

