-- ==== Sys2Proof/Laws/Ops.lean ====
section
/-!
SUPPORT. The laws of the named operations over registers, memory, regions and partitions: reading after a write, what a
write leaves alone, and that every memory operation keeps the canonical form.
-/

namespace Sys2Proof.Machine

/-! ### Registers -/

@[simp] theorem reg_setReg_same (s : State) (a : Nat) (v : Word) : (s.setReg a v).reg a = v :=
  Assoc.get_put_same regReset a v s.regs

theorem reg_setReg_other (s : State) {a b : Nat} (h : b ≠ a) (v : Word) : (s.setReg a v).reg b = s.reg b :=
  Assoc.get_put_other regReset h v s.regs

@[simp] theorem reg_setFld_same (s : State) (a : Nat) (f : Fld) (x : Nat) :
    (s.setFld a f x).reg a = f.put (s.reg a) x := reg_setReg_same s a _

theorem reg_setFld_other (s : State) {a b : Nat} (h : b ≠ a) (f : Fld) (x : Nat) : (s.setFld a f x).reg b = s.reg b :=
  reg_setReg_other s h _

theorem fld_setReg_other (s : State) {a b : Nat} (h : b ≠ a) (v : Word) (f : Fld) : (s.setReg a v).fld b f = s.fld b f := by
  unfold State.fld; rw [reg_setReg_other s h]

theorem fld_setFld_other (s : State) {a b : Nat} (h : b ≠ a) (f g : Fld) (x : Nat) :
    (s.setFld a f x).fld b g = s.fld b g := by
  unfold State.fld; rw [reg_setFld_other s h]

/-- A field reads back what was written, cut to its width. -/
theorem fld_setFld_same (s : State) (a : Nat) (f : Fld) (x : Nat) (h : f.lo + f.w ≤ 64) :
    (s.setFld a f x).fld a f = x % 2 ^ f.w := by
  unfold State.fld; rw [reg_setFld_same, Fld.get_put f _ _ h]

/-- Another field of the same register is left alone. -/
theorem fld_setFld_apart (s : State) (a : Nat) (f g : Fld) (x : Nat) (hg : g.lo + g.w ≤ 64)
    (h : f.lo + f.w ≤ g.lo ∨ g.lo + g.w ≤ f.lo) : (s.setFld a f x).fld a g = s.fld a g := by
  unfold State.fld; rw [reg_setFld_same, Fld.get_put_other f g _ _ hg h]

theorem bump_eq (s : State) (a : Nat) (f : Fld) (k : Nat) :
    s.bump a f k = s.setFld a f (min (s.fld a f + k) (2 ^ f.w - 1)) := rfl

/-- A register write keeps the register file canonical. -/
theorem regs_wf_setReg (s : State) (a : Nat) (v : Word) (h : Assoc.wf regReset s.regs = true) :
    Assoc.wf regReset (s.setReg a v).regs = true := Assoc.wf_put regReset a v h

theorem regs_wf_setFld (s : State) (a : Nat) (f : Fld) (x : Nat) (h : Assoc.wf regReset s.regs = true) :
    Assoc.wf regReset (s.setFld a f x).regs = true := regs_wf_setReg s a _ h

/-! ### Memory -/

theorem get_putByte_same (m : List Host.Cell) (a : Nat) (b : Byte) : Assoc.get memDefault (putByte m a b) a = b :=
  Assoc.get_put_same memDefault a b m

theorem get_putByte_other (m : List Host.Cell) {a c : Nat} (h : c ≠ a) (b : Byte) :
    Assoc.get memDefault (putByte m a b) c = Assoc.get memDefault m c := Assoc.get_put_other memDefault h b m

theorem get_putBytes_other (bs : List Byte) : ∀ (m : List Host.Cell) (a c : Nat), c < a ∨ a + bs.length ≤ c →
    Assoc.get memDefault (putBytes m a bs) c = Assoc.get memDefault m c := by
  induction bs with
  | nil => intros; rfl
  | cons b bs ih =>
    intro m a c h
    simp only [List.length_cons] at h
    rw [putBytes, ih _ _ _ (by omega), get_putByte_other _ (by omega)]

theorem get_putBytes_inside (bs : List Byte) : ∀ (m : List Host.Cell) (a k : Nat) (h : k < bs.length),
    Assoc.get memDefault (putBytes m a bs) (a + k) = bs[k] := by
  induction bs with
  | nil => intro m a k h; simp at h
  | cons b bs ih =>
    intro m a k h
    cases k with
    | zero => rw [putBytes, get_putBytes_other _ _ _ _ (by omega)]; exact get_putByte_same m a b
    | succ k =>
      rw [putBytes, show a + (k + 1) = a + 1 + k by omega, ih _ _ _ (by simpa using h)]
      rfl

/-- A store leaves every byte outside its range as it was. -/
theorem byte_store_outside (s : State) (a : Nat) (bs : List Byte) {c : Nat} (h : c < a ∨ a + bs.length ≤ c) :
    (s.store a bs).byte c = s.byte c := get_putBytes_other bs s.mem a c h

/-- A store's bytes are read back. -/
theorem byte_store_inside (s : State) (a : Nat) (bs : List Byte) {k : Nat} (h : k < bs.length) :
    (s.store a bs).byte (a + k) = bs[k] := get_putBytes_inside bs s.mem a k h

theorem mem_wf_putBytes (bs : List Byte) : ∀ (m : List Host.Cell) (a : Nat), Memory.wf m = true →
    Memory.wf (putBytes m a bs) = true := by
  induction bs with
  | nil => intro m a h; exact h
  | cons b bs ih => intro m a h; exact ih _ _ (Assoc.wf_put memDefault a b h)

/-- A store keeps memory canonical. -/
theorem mem_wf_store (s : State) (a : Nat) (bs : List Byte) (h : Memory.wf s.mem = true) :
    Memory.wf (s.store a bs).mem = true := mem_wf_putBytes bs s.mem a h

theorem above_filter {α : Type} [DecidableEq α] (d : Nat → α) (f : Nat × α → Bool) {lo : Nat} :
    ∀ {m : List (Nat × α)}, Assoc.wf d m = true → Assoc.above lo m = true → Assoc.above lo (m.filter f) = true := by
  intro m
  induction m with
  | nil => intros; rfl
  | cons p m ih =>
    intro h ha
    simp only [Assoc.wf, Bool.and_eq_true] at h
    simp only [List.filter]
    split
    · simpa [Assoc.above] using ha
    · refine ih h.2 (Assoc.above_trans ?_ h.1.1)
      simpa [Assoc.above] using ha

/-- Dropping entries keeps the canonical form of every sparse map. -/
theorem wf_filter {α : Type} [DecidableEq α] (d : Nat → α) (f : Nat × α → Bool) :
    ∀ {m : List (Nat × α)}, Assoc.wf d m = true → Assoc.wf d (m.filter f) = true := by
  intro m
  induction m with
  | nil => intros; rfl
  | cons p m ih =>
    intro h
    have h' := h
    simp only [Assoc.wf, Bool.and_eq_true] at h
    simp only [List.filter]
    split
    · simp [Assoc.wf, ih h.2, above_filter d f h.2 h.1.1, h.1.2]
    · exact ih h.2

/-! ### Regions and partitions -/

theorem Vec.modify_same {α : Type} {k : Nat} (v : Vector α k) {i : Nat} (h : i < k) (f : α → α) :
    (Vec.modify v i f)[i] = f v[i] := by
  simp [Vec.modify, h]

theorem Vec.modify_other {α : Type} {k : Nat} (v : Vector α k) {i j : Nat} (hj : j < k) (h : j ≠ i) (f : α → α) :
    (Vec.modify v i f)[j] = v[j] := by
  unfold Vec.modify
  split
  · rw [Vector.getElem_set]
    simp [Ne.symm h]
  · rfl

@[simp] theorem rgn_modRgn_same (s : State) (n : Rgn) (f : Region → Region) : (s.modRgn n.val f).rgn n = f (s.rgn n) :=
  Vec.modify_same s.rgns n.isLt f

theorem rgn_modRgn_other (s : State) {n m : Rgn} (h : m ≠ n) (f : Region → Region) : (s.modRgn n.val f).rgn m = s.rgn m :=
  Vec.modify_other s.rgns m.isLt (fun e => h (Fin.ext e)) f

@[simp] theorem part_modPart_same (s : State) (p : Part) (f : Partition → Partition) : (s.modPart p f).part p = f (s.part p) :=
  Vec.modify_same s.parts p.isLt f

theorem part_modPart_other (s : State) {p q : Part} (h : q ≠ p) (f : Partition → Partition) :
    (s.modPart p f).part q = s.part q := Vec.modify_other s.parts q.isLt (fun e => h (Fin.ext e)) f

/-! ### Cells -/

@[simp] theorem cell_setCell_same (s : State) (n c : Nat) (x : Cell) : (s.setCell n c x).cell n c = x :=
  Assoc.get_put_same cellDefault (cellKey n c) x s.cells

theorem cell_setCell_other (s : State) {n c m d : Nat} (h : cellKey m d ≠ cellKey n c) (x : Cell) :
    (s.setCell n c x).cell m d = s.cell m d := Assoc.get_put_other cellDefault h x s.cells

theorem cells_wf_setCell (s : State) (n c : Nat) (x : Cell) (h : Assoc.wf cellDefault s.cells = true) :
    Assoc.wf cellDefault (s.setCell n c x).cells = true := Assoc.wf_put cellDefault (cellKey n c) x h

/-! ### The outcome of a command -/

/-- The device acts: POR_N is high, TEST_EN was low and the reference clock runs. -/
theorem live_awake {s : State} (f : State → State) (h : s.pins.porN = true ∧ s.boot.testHold = false ∧ s.pins.refclkLost = false) :
    live s f = .next (f s) := by simp [live, h]

/-- Held in reset or by TEST_EN, a command does nothing. -/
theorem live_held {s : State} (f : State → State) (h : s.pins.porN = false ∨ s.boot.testHold = true) :
    live s f = .next s := by
  unfold live; rcases h with h | h <;> simp [h]

/-- Everything `live` can answer. -/
theorem live_cases (s : State) (f : State → State) :
    live s f = .next s ∨ live s f = .fault .refclkLost ∨ live s f = .next (f s) := by
  unfold live; split
  · exact .inl rfl
  · split
    · exact .inr (.inl rfl)
    · exact .inr (.inr rfl)

/-- Everything a register write can do (R445, R449, R452): its effect, nothing, or a bad access. -/
theorem guardWrite_cases (who : Requester) (a width : Nat) (v : Word) (f : State → State) (s : State) :
    guardWrite who a width v f s = f s ∨ guardWrite who a width v f s = s ∨
    guardWrite who a width v f s = badAccess (requesterNum who) true width a s := by
  unfold guardWrite; split <;> simp

theorem guardWrite_ok {who : Requester} {a width : Nat} {v : Word} {f : State → State} {s : State}
    (h : accessCheck who true a width v s = .ok) : guardWrite who a width v f s = f s := by simp [guardWrite, h]

end Sys2Proof.Machine
end

