-- ==== Sys2Proof/Laws/Exec.lean ====
section
/-!
SUPPORT. What `exec` answers for each command, and one step of the block.
-/

namespace Sys2Proof.Machine

@[simp] theorem exec_registerWrite (who : Requester) (addr width : Nat) (v : Word) (s : State) :
    exec (.registerWrite who addr width v) s = live s (writeReg who addr width v) := rfl

@[simp] theorem exec_rcRead (who : Requester) (addr width : Nat) (s : State) :
    exec (.rcRead who addr width) s = live s fun s => (readReg who addr width s).2 := rfl

@[simp] theorem exec_linkTransfer (n : Rgn) (l : Link) (parityError : Bool) (s : State) :
    exec (.linkTransfer n l parityError) s = live s (transfer n l parityError) := rfl

@[simp] theorem exec_rateWindow (n : Rgn) (steps : BitVec 32) (s : State) :
    exec (.rateWindow n steps) s = live s (rateWindow n steps) := rfl

@[simp] theorem exec_stall (n : Rgn) (s : State) :
    exec (.stall n) s = live s (stall n) := rfl

@[simp] theorem exec_granuleRetire (n : Rgn) (c : CellIx) (g : Fin 96) (s : State) :
    exec (.granuleRetire n c g) s = live s (granuleRetire n c.val g.val) := rfl

@[simp] theorem exec_variantReselect (n : Rgn) (id : Nat) (variant : Fin 16) (s : State) :
    exec (.variantReselect n id variant) s = live s (reselect n id variant.val) := rfl

@[simp] theorem exec_blockFence (n : Rgn) (b : Blk) (cause : FenceCause) (s : State) :
    exec (.blockFence n b cause) s = live s (blockFence n b.val cause) := rfl

@[simp] theorem exec_nopMicroOp (n : Rgn) (c : CellIx) (sl : Slot) (s : State) :
    exec (.nopMicroOp n c sl) s = live s (micro n c.val sl.val opNop id) := rfl

@[simp] theorem exec_mma (n : Rgn) (c : CellIx) (sl : Slot) (s : State) :
    exec (.mma n c sl) s = live s (micro n c.val sl.val opMma doMma) := rfl

@[simp] theorem exec_mmaComplete (n : Rgn) (c : CellIx) (sl : Slot) (s : State) :
    exec (.mmaComplete n c sl) s = live s (mmaDone n c.val sl.val) := rfl

@[simp] theorem exec_mov (n : Rgn) (c : CellIx) (sl : Slot) (s : State) :
    exec (.mov n c sl) s = live s (micro n c.val sl.val opMov doMov) := rfl

@[simp] theorem exec_cvt (n : Rgn) (c : CellIx) (sl : Slot) (s : State) :
    exec (.cvt n c sl) s = live s (micro n c.val sl.val opCvt doCvt) := rfl

@[simp] theorem exec_mxscale (n : Rgn) (c : CellIx) (sl : Slot) (s : State) :
    exec (.mxscale n c sl) s = live s (micro n c.val sl.val opMxscale doMxscale) := rfl

@[simp] theorem exec_setp (n : Rgn) (c : CellIx) (sl : Slot) (s : State) :
    exec (.setp n c sl) s = live s (micro n c.val sl.val opSetp doSetp) := rfl

@[simp] theorem exec_seed (n : Rgn) (c : CellIx) (sl : Slot) (s : State) :
    exec (.seed n c sl) s = live s (micro n c.val sl.val opSeed doSeed) := rfl

@[simp] theorem exec_flags (n : Rgn) (c : CellIx) (sl : Slot) (s : State) :
    exec (.flags n c sl) s = live s (micro n c.val sl.val opFlags doFlags) := rfl

@[simp] theorem exec_add (n : Rgn) (c : CellIx) (sl : Slot) (s : State) :
    exec (.add n c sl) s = live s (micro n c.val sl.val opAdd doAdd) := rfl

@[simp] theorem exec_sub (n : Rgn) (c : CellIx) (sl : Slot) (s : State) :
    exec (.sub n c sl) s = live s (micro n c.val sl.val opSub doSub) := rfl

@[simp] theorem exec_mul (n : Rgn) (c : CellIx) (sl : Slot) (s : State) :
    exec (.mul n c sl) s = live s (micro n c.val sl.val opMul doMul) := rfl

@[simp] theorem exec_fma (n : Rgn) (c : CellIx) (sl : Slot) (s : State) :
    exec (.fma n c sl) s = live s (micro n c.val sl.val opFma doFma) := rfl

@[simp] theorem exec_max (n : Rgn) (c : CellIx) (sl : Slot) (s : State) :
    exec (.max n c sl) s = live s (micro n c.val sl.val opMax doMax) := rfl

@[simp] theorem exec_min (n : Rgn) (c : CellIx) (sl : Slot) (s : State) :
    exec (.min n c sl) s = live s (micro n c.val sl.val opMin doMin) := rfl

@[simp] theorem exec_neg (n : Rgn) (c : CellIx) (sl : Slot) (s : State) :
    exec (.neg n c sl) s = live s (micro n c.val sl.val opNeg doNeg) := rfl

@[simp] theorem exec_abs (n : Rgn) (c : CellIx) (sl : Slot) (s : State) :
    exec (.abs n c sl) s = live s (micro n c.val sl.val opAbs doAbs) := rfl

@[simp] theorem exec_cmp (n : Rgn) (c : CellIx) (sl : Slot) (s : State) :
    exec (.cmp n c sl) s = live s (micro n c.val sl.val opCmp doCmp) := rfl

@[simp] theorem exec_sel (n : Rgn) (c : CellIx) (sl : Slot) (s : State) :
    exec (.sel n c sl) s = live s (micro n c.val sl.val opSel doSel) := rfl

@[simp] theorem exec_exp2 (n : Rgn) (c : CellIx) (sl : Slot) (s : State) :
    exec (.exp2 n c sl) s = live s (micro n c.val sl.val opExp2 doExp2) := rfl

@[simp] theorem exec_log2 (n : Rgn) (c : CellIx) (sl : Slot) (s : State) :
    exec (.log2 n c sl) s = live s (micro n c.val sl.val opLog2 doLog2) := rfl

@[simp] theorem exec_rcp (n : Rgn) (c : CellIx) (sl : Slot) (s : State) :
    exec (.rcp n c sl) s = live s (micro n c.val sl.val opRcp doRcp) := rfl

@[simp] theorem exec_rsqrt (n : Rgn) (c : CellIx) (sl : Slot) (s : State) :
    exec (.rsqrt n c sl) s = live s (micro n c.val sl.val opRsqrt doRsqrt) := rfl

@[simp] theorem exec_silu (n : Rgn) (c : CellIx) (sl : Slot) (s : State) :
    exec (.silu n c sl) s = live s (micro n c.val sl.val opSilu doSilu) := rfl

@[simp] theorem exec_gelu (n : Rgn) (c : CellIx) (sl : Slot) (s : State) :
    exec (.gelu n c sl) s = live s (micro n c.val sl.val opGelu doGelu) := rfl

@[simp] theorem exec_subexp (n : Rgn) (c : CellIx) (sl : Slot) (s : State) :
    exec (.subexp n c sl) s = live s (micro n c.val sl.val opSubexp doSubexp) := rfl

@[simp] theorem exec_redRow (n : Rgn) (c : CellIx) (sl : Slot) (s : State) :
    exec (.redRow n c sl) s = live s (micro n c.val sl.val opRedRow doRedRow) := rfl

@[simp] theorem exec_redCol (n : Rgn) (c : CellIx) (sl : Slot) (s : State) :
    exec (.redCol n c sl) s = live s (micro n c.val sl.val opRedCol doRedCol) := rfl

@[simp] theorem exec_nstat (n : Rgn) (c : CellIx) (sl : Slot) (s : State) :
    exec (.nstat n c sl) s = live s (micro n c.val sl.val opNstat doNstat) := rfl

@[simp] theorem exec_nfin (n : Rgn) (c : CellIx) (sl : Slot) (s : State) :
    exec (.nfin n c sl) s = live s (micro n c.val sl.val opNfin doNfin) := rfl

@[simp] theorem exec_summary (n : Rgn) (c : CellIx) (sl : Slot) (s : State) :
    exec (.summary n c sl) s = live s (micro n c.val sl.val opSummary doSummary) := rfl

@[simp] theorem exec_reservedMicroOp (n : Rgn) (c : CellIx) (sl : Slot) (s : State) :
    exec (.reservedMicroOp n c sl) s = live s (reservedUop n c.val sl.val) := rfl

@[simp] theorem exec_pass (n : Rgn) (c : CellIx) (s : State) :
    exec (.pass n c) s = live s (steer n c.val 0) := rfl

@[simp] theorem exec_select (n : Rgn) (c : CellIx) (s : State) :
    exec (.select n c) s = live s (steer n c.val 1) := rfl

@[simp] theorem exec_drop (n : Rgn) (c : CellIx) (s : State) :
    exec (.drop n c) s = live s (steer n c.val 2) := rfl

@[simp] theorem exec_takeA (n : Rgn) (c : CellIx) (s : State) :
    exec (.takeA n c) s = live s (steer n c.val 3) := rfl

@[simp] theorem exec_takeB (n : Rgn) (c : CellIx) (s : State) :
    exec (.takeB n c) s = live s (steer n c.val 4) := rfl

@[simp] theorem exec_switchContext (n : Rgn) (c : CellIx) (s : State) :
    exec (.switchContext n c) s = live s (switchHere n c.val) := rfl

@[simp] theorem exec_signal (n : Rgn) (b : Blk) (s : State) :
    exec (.signal n b) s = live s (signalHere n b.val) := rfl

@[simp] theorem exec_switchOrder (n : Rgn) (s : State) :
    exec (.switchOrder n) s = live s (switchOrder n) := rfl

@[simp] theorem exec_chipSwitchOrder (n : Rgn) (s : State) :
    exec (.chipSwitchOrder n) s = live s (chipSwitch n) := rfl

@[simp] theorem exec_sweep (n : Rgn) (s : State) :
    exec (.sweep n) s = live s (sweep n) := rfl

@[simp] theorem exec_loadStart (n : Rgn) (sl : Slot) (s : State) :
    exec (.loadStart n sl) s = live s (loadStart n sl.val) := rfl

@[simp] theorem exec_loadComplete (n : Rgn) (sl : Slot) (out : ReadOutcome) (s : State) :
    exec (.loadComplete n sl out) s = live s (loadComplete n sl.val out) := rfl

@[simp] theorem exec_loadWaitExpiry (n : Rgn) (sl : Slot) (s : State) :
    exec (.loadWaitExpiry n sl) s = live s (loadExpires n sl.val) := rfl

@[simp] theorem exec_ctxLoad (who : Requester) (n : Rgn) (v : Word) (s : State) :
    exec (.ctxLoad who n v) s = live s (guardWrite who (Reg.CTX_LOAD n) 8 v (doCtxLoad n v)) := rfl

@[simp] theorem exec_ctxFlush (who : Requester) (n : Rgn) (v : Word) (s : State) :
    exec (.ctxFlush who n v) s = live s (guardWrite who (Reg.CTX_FLUSH n) 8 v (doCtxFlush n v)) := rfl

@[simp] theorem exec_freeze (who : Requester) (n : Rgn) (v : Word) (s : State) :
    exec (.freeze who n v) s = live s fun s => if Reg.SCAN_CTRL_FREEZE.get v = 1 then guardWrite who (Reg.SCAN_CTRL n) 8 v (doScanCtrl n v) s else s := rfl

@[simp] theorem exec_frozen (n : Rgn) (b : Blk) (s : State) :
    exec (.frozen n b) s = live s (blockFrozen n b) := rfl

@[simp] theorem exec_unfreeze (who : Requester) (n : Rgn) (v : Word) (s : State) :
    exec (.unfreeze who n v) s = live s fun s => if Reg.SCAN_CTRL_FREEZE.get v = 0 then guardWrite who (Reg.SCAN_CTRL n) 8 v (doScanCtrl n v) s else s := rfl

@[simp] theorem exec_scanDataRead (who : Requester) (n : Rgn) (s : State) :
    exec (.scanDataRead who n) s = live s (guardRead who (Reg.SCAN_DATA n) 8 (scanAfter n)) := rfl

@[simp] theorem exec_scanDataWrite (who : Requester) (n : Rgn) (v : Word) (s : State) :
    exec (.scanDataWrite who n v) s = live s (guardWrite who (Reg.SCAN_DATA n) 8 v (doScanWrite n v)) := rfl

@[simp] theorem exec_seqGo (who : Requester) (n : Rgn) (v : Word) (s : State) :
    exec (.seqGo who n v) s = live s fun s => if Reg.SEQ_CTRL_GO.get v = 1 then guardWrite who (Reg.SEQ_CTRL n) 8 v (doSeqCtrl n v) s else s := rfl

@[simp] theorem exec_seqAbort (who : Requester) (n : Rgn) (v : Word) (s : State) :
    exec (.seqAbort who n v) s = live s fun s => if Reg.SEQ_CTRL_ABORT.get v = 1 then guardWrite who (Reg.SEQ_CTRL n) 8 v (doSeqCtrl n v) s else s := rfl

@[simp] theorem exec_run (n : Rgn) (s : State) :
    exec (.run n) s = live s (seqRun n) := rfl

@[simp] theorem exec_iteration (n : Rgn) (s : State) :
    exec (.iteration n) s = live s (seqIterate n) := rfl

@[simp] theorem exec_load (n : Rgn) (s : State) :
    exec (.load n) s = live s (atType 2 n (seqLoad n)) := rfl

@[simp] theorem exec_jump (n : Rgn) (s : State) :
    exec (.jump n) s = live s (atType 3 n (seqJump n)) := rfl

@[simp] theorem exec_halt (n : Rgn) (s : State) :
    exec (.halt n) s = live s (atType 4 n (seqHalt n)) := rfl

@[simp] theorem exec_planDone (n : Rgn) (s : State) :
    exec (.planDone n) s = live s (planEnds n) := rfl

@[simp] theorem exec_groupFetch (n : Rgn) (what : FetchKind) (out : ReadOutcome) (s : State) :
    exec (.groupFetch n what out) s = live s (groupFetch n what out) := rfl

@[simp] theorem exec_brokenClear (who : Requester) (b : Fin 64) (v : Word) (s : State) :
    exec (.brokenClear who b v) s = live s fun s => if Reg.BAR_STATE_BROKEN.get v = 1 then guardWrite who (Reg.BAR_STATE b.val) 8 v (doBarState b.val v) s else s := rfl

@[simp] theorem exec_forceRelease (who : Requester) (b : Fin 64) (v : Word) (s : State) :
    exec (.forceRelease who b v) s = live s fun s => if Reg.BAR_STATE_FORCE_RELEASE.get v = 1 then guardWrite who (Reg.BAR_STATE b.val) 8 v (doBarState b.val v) s else s := rfl

@[simp] theorem exec_syncForceGo (who : Requester) (n : Rgn) (v : Word) (s : State) :
    exec (.syncForceGo who n v) s = live s fun s => if Reg.SYNC_FORCE_GO.get v = 1 then guardWrite who (Reg.SYNC_FORCE n) 8 v (doSyncForce n v) s else s := rfl

@[simp] theorem exec_summaryToken (n : Rgn) (b : Blk) (s : State) :
    exec (.summaryToken n b) s = live s (summaryArrives n b.val) := rfl

@[simp] theorem exec_branch (n : Rgn) (s : State) :
    exec (.branch n) s = live s (seqBranch n) := rfl

@[simp] theorem exec_branchAnswer (n : Rgn) (s : State) :
    exec (.branchAnswer n) s = live s (seqAnswer n) := rfl

@[simp] theorem exec_waitLimitExpiry (n : Rgn) (s : State) :
    exec (.waitLimitExpiry n) s = live s (waitExpires n) := rfl

@[simp] theorem exec_read (n : Rgn) (d : Nat) (s : State) :
    exec (.read n d) s = live s fun s => withDesc n d 1 (readNext n) s := rfl

@[simp] theorem exec_write (n : Rgn) (d : Nat) (s : State) :
    exec (.write n d) s = live s fun s => withDesc n d 2 (writeNext n) s := rfl

@[simp] theorem exec_copy (n : Rgn) (d : Nat) (s : State) :
    exec (.copy n d) s = live s fun s => withDesc n d 3 (copyNext n) s := rfl

@[simp] theorem exec_descriptorComplete (n : Rgn) (d : Nat) (s : State) :
    exec (.descriptorComplete n d) s = live s (descComplete n d) := rfl

@[simp] theorem exec_tierResponse (n : Rgn) (r : Nat) (out : ReadOutcome) (s : State) :
    exec (.tierResponse n r out) s = live s (tierResponds n r out) := rfl

@[simp] theorem exec_requestTimeout (n : Rgn) (r : Nat) (s : State) :
    exec (.requestTimeout n r) s = live s (requestTimes n r) := rfl

@[simp] theorem exec_patrolScrub (n : Rgn) (near : Bool) (line : Nat) (out : ScrubOutcome) (s : State) :
    exec (.patrolScrub n near line out) s = live s (scrub n near line out) := rfl

@[simp] theorem exec_unitWriteAck (n : Rgn) (r phys : Nat) (lost : BitVec 4) (s : State) :
    exec (.unitWriteAck n r phys lost) s = live s (unitWrite n r phys lost) := rfl

@[simp] theorem exec_programComplete (n : Rgn) (u : Nat) (ok : Bool) (phys : Nat) (s : State) :
    exec (.programComplete n u ok phys) s = live s (programEnds n u ok phys) := rfl

@[simp] theorem exec_eraseComplete (n : Rgn) (blk : Nat) (ok : Bool) (s : State) :
    exec (.eraseComplete n blk ok) s = live s (eraseEnds n blk ok) := rfl

@[simp] theorem exec_codewordRead (n : Rgn) (r : Nat) (out : DecodeOutcome) (s : State) :
    exec (.codewordRead n r out) s = live s (codewordRead n r out) := rfl

@[simp] theorem exec_foldFlushDone (n : Rgn) (s : State) :
    exec (.foldFlushDone n) s = live s (flushEnds n) := rfl

@[simp] theorem exec_foldReady (n : Rgn) (s : State) :
    exec (.foldReady n) s = live s (foldRecovered n) := rfl

@[simp] theorem exec_periodicCheckpoint (n : Rgn) (s : State) :
    exec (.periodicCheckpoint n) s = live s (checkpointDue n) := rfl

@[simp] theorem exec_retentionScrub (n : Rgn) (blk : Nat) (out : DecodeOutcome) (s : State) :
    exec (.retentionScrub n blk out) s = live s (retention n blk out) := rfl

@[simp] theorem exec_refreshRelocation (n : Rgn) (blk : Nat) (dst : UnitMoves) (s : State) :
    exec (.refreshRelocation n blk dst) s = live s (refreshBlock n blk dst.pages dst.lost) := rfl

@[simp] theorem exec_garbageCollection (n : Rgn) (blk : Nat) (dst : UnitMoves) (s : State) :
    exec (.garbageCollection n blk dst) s = live s (collectBlock n blk dst.pages dst.lost) := rfl

@[simp] theorem exec_staticWearLevelling (n : Rgn) (src : Nat) (dst : LevelMove) (s : State) :
    exec (.staticWearLevelling n src dst) s = live s (levelWear n src dst.blk dst.lost) := rfl

@[simp] theorem exec_blockInfo (who : Requester) (n : Rgn) (v : Word) (s : State) :
    exec (.blockInfo who n v) s = live s (foldMbxRow 1 who n v) := rfl

@[simp] theorem exec_checkpoint (who : Requester) (n : Rgn) (v : Word) (s : State) :
    exec (.checkpoint who n v) s = live s (foldMbxRow 2 who n v) := rfl

@[simp] theorem exec_format (who : Requester) (n : Rgn) (v : Word) (s : State) :
    exec (.format who n v) s = live s (foldMbxRow 3 who n v) := rfl

@[simp] theorem exec_badList (who : Requester) (n : Rgn) (v : Word) (s : State) :
    exec (.badList who n v) s = live s (foldMbxRow 4 who n v) := rfl

@[simp] theorem exec_foldMailboxDone (n : Rgn) (ok : Bool) (s : State) :
    exec (.foldMailboxDone n ok) s = live s (mbxEnds n ok) := rfl

@[simp] theorem exec_pageBlockRelocation (p : Part) (h : BitVec 32) (grp page dst table : Nat) (s : State) :
    exec (.pageBlockRelocation p h grp page dst table) s = live s (relocateBlock p h grp page dst table) := rfl

@[simp] theorem exec_ttlExpiry (p : Part) (h : BitVec 32) (s : State) :
    exec (.ttlExpiry p h) s = live s (ttlExpires p h) := rfl

@[simp] theorem exec_dispatch (r : JobEvent) (s : State) :
    exec (.dispatch r) s = live s (routeJob r.rgn 1 (dispatchWork r.rgn) r.out r.place) := rfl

@[simp] theorem exec_combine (r : JobEvent) (s : State) :
    exec (.combine r) s = live s (routeJob r.rgn 2 (combineWork r.rgn) r.out r.place) := rfl

@[simp] theorem exec_signatureVerify (id : Nat) (s : State) :
    exec (.signatureVerify id) s = live s fun s => imageSteps id (verifySignature id s) := rfl

@[simp] theorem exec_doorbell (who : Requester) (r : Ring) (v : Word) (s : State) :
    exec (.doorbell who r v) s = live s fun s => match submission s r with | none => s | some (o, k) => guardWrite who (ringRegs o k).tail 8 v (doTail r o k v) s := rfl

@[simp] theorem exec_entryFetch (f : EntryRead) (s : State) :
    exec (.entryFetch f) s = live s (fetchEntry f.ring f.out) := rfl

@[simp] theorem exec_heldEntryRelease (r : Ring) (s : State) :
    exec (.heldEntryRelease r) s = live s (releaseHeld r) := rfl

@[simp] theorem exec_cmdRingCfg (who : Requester) (r : RingOwner) (k : Fin 3) (v : Word) (s : State) :
    exec (.cmdRingCfg who r k v) s = live s (guardWrite who (ringRegs r k.val).cfg 8 v (doRingEnable r k.val v)) := rfl

@[simp] theorem exec_reservedOpcode (r : Ring) (s : State) :
    exec (.reservedOpcode r) s = live s (rejectReserved r) := rfl

@[simp] theorem exec_nop (r : Ring) (x : Choice) (s : State) :
    exec (.nop r x) s = live s (process 0x00 r (quiet fun c _ => reserved c []) nopAct) := rfl

@[simp] theorem exec_query (r : Ring) (x : Choice) (s : State) :
    exec (.query r x) s = live s (process 0x01 r (quiet queryCheck) queryAct) := rfl

@[simp] theorem exec_partitionSet (r : Ring) (ch : Choice) (s : State) :
    exec (.partitionSet r ch) s = live s (process 0x02 r (psCheck ch.herd) psAct) := rfl

@[simp] theorem exec_pkgStage (r : Ring) (ch : Choice) (s : State) :
    exec (.pkgStage r ch) s = live s (process 0x10 r (quiet stageCheck) (stageAct ch)) := rfl

@[simp] theorem exec_pkgActivate (r : Ring) (x : Choice) (s : State) :
    exec (.pkgActivate r x) s = live s (process 0x11 r (quiet activateCheck) activateAct) := rfl

@[simp] theorem exec_pkgRetire (r : Ring) (x : Choice) (s : State) :
    exec (.pkgRetire r x) s = live s (process 0x12 r (quiet retireCheck) fun c s => retireWork c (acceptAs c.id id s)) := rfl

@[simp] theorem exec_adapterLoad (r : Ring) (ch : Choice) (s : State) :
    exec (.adapterLoad r ch) s = live s (process 0x13 r (quiet loadCheck) (loadAct ch)) := rfl

@[simp] theorem exec_adapterDrop (r : Ring) (x : Choice) (s : State) :
    exec (.adapterDrop r x) s = live s (process 0x14 r (quiet dropCheck) dropAct) := rfl

@[simp] theorem exec_sessionOpen (r : Ring) (ch : Choice) (s : State) :
    exec (.sessionOpen r ch) s = live s (process 0x20 r (quiet openCheck) (openAct ch)) := rfl

@[simp] theorem exec_sessionPrefill (r : Ring) (ch : Choice) (s : State) :
    exec (.sessionPrefill r ch) s = live s (process 0x21 r (runCheck ch.herd) (runAct ch)) := rfl

@[simp] theorem exec_sessionDecode (r : Ring) (ch : Choice) (s : State) :
    exec (.sessionDecode r ch) s = live s (process 0x22 r (runCheck ch.herd) (runAct ch)) := rfl

@[simp] theorem exec_sessionAccept (r : Ring) (ch : Choice) (s : State) :
    exec (.sessionAccept r ch) s = live s (process 0x23 r (quiet acceptCheck) (acceptAct ch)) := rfl

@[simp] theorem exec_sessionPark (r : Ring) (ch : Choice) (s : State) :
    exec (.sessionPark r ch) s = live s (process 0x24 r (quiet parkCheck) (parkAct ch)) := rfl

@[simp] theorem exec_sessionResume (r : Ring) (ch : Choice) (s : State) :
    exec (.sessionResume r ch) s = live s (process 0x25 r (quiet resumeCheck) (resumeAct ch)) := rfl

@[simp] theorem exec_sessionClose (r : Ring) (x : Choice) (s : State) :
    exec (.sessionClose r x) s = live s (process 0x26 r (quiet closeCheck) closeAct) := rfl

@[simp] theorem exec_jobRun (r : Ring) (ch : Choice) (s : State) :
    exec (.jobRun r ch) s = live s (process 0x30 r (runCheck ch.herd) (runAct ch)) := rfl

@[simp] theorem exec_jobAbort (r : Ring) (x : Choice) (s : State) :
    exec (.jobAbort r x) s = live s (process 0x31 r (quiet abortCheck) abortAct) := rfl

@[simp] theorem exec_tierAlloc (r : Ring) (ch : Choice) (s : State) :
    exec (.tierAlloc r ch) s = live s (process 0x40 r (quiet allocCheck) (allocAct ch)) := rfl

@[simp] theorem exec_tierFree (r : Ring) (x : Choice) (s : State) :
    exec (.tierFree r x) s = live s (process 0x41 r (quiet freeCheck) fun c s => freeWork c (freeAct c s)) := rfl

@[simp] theorem exec_tierCopy (r : Ring) (ch : Choice) (s : State) :
    exec (.tierCopy r ch) s = live s (process 0x42 r (quiet copyCheck) (copyAct ch)) := rfl

@[simp] theorem exec_quotaSet (r : Ring) (x : Choice) (s : State) :
    exec (.quotaSet r x) s = live s (process 0x43 r (quiet quotaCheck) quotaAct) := rfl

@[simp] theorem exec_syncForce (r : Ring) (x : Choice) (s : State) :
    exec (.syncForce r x) s = live s (process 0x50 r (quiet syncCheck) syncAct) := rfl

@[simp] theorem exec_fabCircuitBind (r : Ring) (x : Choice) (s : State) :
    exec (.fabCircuitBind r x) s = live s (process 0x60 r (quiet bindCheck) bindAct) := rfl

@[simp] theorem exec_fabCircuitUnbind (r : Ring) (x : Choice) (s : State) :
    exec (.fabCircuitUnbind r x) s = live s (process 0x61 r (quiet unbindCheck) unbindAct) := rfl

@[simp] theorem exec_lendOffer (r : Ring) (ch : Choice) (s : State) :
    exec (.lendOffer r ch) s = live s (process 0x62 r (quiet offerCheck) (offerAct ch)) := rfl

@[simp] theorem exec_lendWithdraw (r : Ring) (x : Choice) (s : State) :
    exec (.lendWithdraw r x) s = live s (process 0x63 r (quiet withdrawCheck) withdrawAct) := rfl

@[simp] theorem exec_lendBorrow (r : Ring) (x : Choice) (s : State) :
    exec (.lendBorrow r x) s = live s (process 0x64 r (quiet borrowCheck) borrowAct) := rfl

@[simp] theorem exec_faultConfig (r : Ring) (x : Choice) (s : State) :
    exec (.faultConfig r x) s = live s (process 0x70 r (quiet faultConfigCheck) faultConfigAct) := rfl

@[simp] theorem exec_faultInject (r : Ring) (x : Choice) (s : State) :
    exec (.faultInject r x) s = live s (process 0x71 r (quiet faultInjectCheck) faultInjectAct) := rfl

@[simp] theorem exec_powerPolicy (r : Ring) (x : Choice) (s : State) :
    exec (.powerPolicy r x) s = live s (process 0x80 r powerPolicyCheck powerPolicyAct) := rfl

@[simp] theorem exec_attest (r : Ring) (x : Choice) (s : State) :
    exec (.attest r x) s = live s (process 0x90 r (quiet attestCheck) attestAct) := rfl

@[simp] theorem exec_fwStage (r : Ring) (x : Choice) (s : State) :
    exec (.fwStage r x) s = live s (process 0x91 r (quiet fwStageCheck) fwStageAct) := rfl

@[simp] theorem exec_fwCommit (r : Ring) (ch : Choice) (s : State) :
    exec (.fwCommit r ch) s = live s (process 0x92 r (quiet fwCommitCheck) fun c s => fwTry c.id (acceptAs c.id (fun d => { d with ch := ch }) s)) := rfl

@[simp] theorem exec_abortRequest (id : Nat) (s : State) :
    exec (.abortRequest id) s = live s (abortArrives id) := rfl

@[simp] theorem exec_commit (id : Nat) (s : State) :
    exec (.commit id) s = live s (commitAny id) := rfl

@[simp] theorem exec_commandRetire (id : Nat) (s : State) :
    exec (.commandRetire id) s = live s (retireCommand id) := rfl

@[simp] theorem exec_cqModExpiry (o : RingOwner) (s : State) :
    exec (.cqModExpiry o) s = live s (cqModExpires o) := rfl

@[simp] theorem exec_planDispatch (id : Nat) (ch : Choice) (s : State) :
    exec (.planDispatch id ch) s = live s (dispatchPlan id ch) := rfl

@[simp] theorem exec_deadlinePass (id : Nat) (s : State) :
    exec (.deadlinePass id) s = live s (deadlinePasses id) := rfl

@[simp] theorem exec_regRd (tag : BitVec 16) (addr : Nat) (cr : Credit) (s : State) :
    exec (.regRd tag addr cr) s = live s (onMessage 1 cr (answerRegRd tag addr)) := rfl

@[simp] theorem exec_regWr (addr : Nat) (v : Word) (cr : Credit) (s : State) :
    exec (.regWr addr v cr) s = live s (onMessage 0 cr (writeReg .companion addr 8 v)) := rfl

@[simp] theorem exec_herdRd (tag : BitVec 16) (n : Rgn) (off : Nat) (cr : Credit) (s : State) :
    exec (.herdRd tag n off cr) s = live s (onMessage 1 cr (answerHerdRd tag n off)) := rfl

@[simp] theorem exec_herdWr (tag : BitVec 16) (n : Rgn) (off : Nat) (data : List Byte) (cr : Credit) (s : State) :
    exec (.herdWr tag n off data cr) s = live s (onMessage 0 cr (answerHerdWr tag n off data)) := rfl

@[simp] theorem exec_snpInv (tag : BitVec 16) (addr : Nat) (cr : Credit) (s : State) :
    exec (.snpInv tag addr cr) s = live s (onMessage 1 cr (snoop tag addr)) := rfl

@[simp] theorem exec_data (tag : BitVec 16) (err : Bool) (data : List Byte) (cr : Credit) (s : State) :
    exec (.data tag err data cr) s = live s (onMessage 2 cr (dataArrives tag err data)) := rfl

@[simp] theorem exec_taithAck (tag : BitVec 16) (err : Bool) (cr : Credit) (s : State) :
    exec (.taithAck tag err cr) s = live s (onMessage 2 cr (ackArrives tag)) := rfl

@[simp] theorem exec_reservedTaithMessage (type : BitVec 8) (tag : BitVec 16) (cr : Credit) (s : State) :
    exec (.reservedTaithMessage type tag cr) s = live s (onMessage (msgClass type) cr (answerReserved type tag)) := rfl

@[simp] theorem exec_keepalive (cr : Credit) (s : State) :
    exec (.keepalive cr) s = live s (onMessage 2 cr id) := rfl

@[simp] theorem exec_keepaliveTimer  (s : State) :
    exec (.keepaliveTimer) s = live s keepaliveDue := rfl

@[simp] theorem exec_taithLinkLoss (down : Bool) (s : State) :
    exec (.taithLinkLoss down) s = live s (linkLossDue down) := rfl

@[simp] theorem exec_lossParkTimeout  (s : State) :
    exec (.lossParkTimeout) s = live s lossParkDue := rfl

@[simp] theorem exec_taithLinkUp (width : Fin 4) (fast : Bool) (s : State) :
    exec (.taithLinkUp width fast) s = live s (linkComesUp width.val fast) := rfl

@[simp] theorem exec_taithResume (who : Requester) (v : Word) (s : State) :
    exec (.taithResume who v) s = live s (guardWrite who Reg.TAITH_RESUME 8 v (doResume v)) := rfl

@[simp] theorem exec_axiumLinkTrained (n : Rgn) (ok : Bool) (s : State) :
    exec (.axiumLinkTrained n ok) s = live s (linkTrained n ok) := rfl

@[simp] theorem exec_helloSigned (n : Rgn) (s : State) :
    exec (.helloSigned n) s = live s (sendHello n) := rfl

@[simp] theorem exec_hello (n : Rgn) (nonce : List Byte) (short : Bool) (s : State) :
    exec (.hello n nonce short) s = live s (helloArrives n nonce short) := rfl

@[simp] theorem exec_axiumAck (n : Rgn) (m : AxMsg) (s : State) :
    exec (.axiumAck n m) s = live s (axAcked n m) := rfl

@[simp] theorem exec_nak (n : Rgn) (m : AxMsg) (s : State) :
    exec (.nak n m) s = live s (axNaked n m) := rfl

@[simp] theorem exec_tileGet (n : Rgn) (m : AxMsg) (s : State) :
    exec (.tileGet n m) s = live s (tileGet n m) := rfl

@[simp] theorem exec_tilePut (n : Rgn) (m : AxMsg) (s : State) :
    exec (.tilePut n m) s = live s (tilePut n m) := rfl

@[simp] theorem exec_tileData (n : Rgn) (m : AxMsg) (s : State) :
    exec (.tileData n m) s = live s (axResponse n m (.data m.data)) := rfl

@[simp] theorem exec_syncSignal (n : Rgn) (m : AxMsg) (s : State) :
    exec (.syncSignal n m) s = live s (syncSignal n m) := rfl

@[simp] theorem exec_lendAsk (n : Rgn) (m : AxMsg) (s : State) :
    exec (.lendAsk n m) s = live s (askArrives n m) := rfl

@[simp] theorem exec_lendGrant (n : Rgn) (m : AxMsg) (s : State) :
    exec (.lendGrant n m) s = live s (axResponse n m (.grant m.arg.toNat)) := rfl

@[simp] theorem exec_lendRecall (n : Rgn) (m : AxMsg) (s : State) :
    exec (.lendRecall n m) s = live s (recallArrives n m) := rfl

@[simp] theorem exec_lendReturn (n : Rgn) (m : AxMsg) (s : State) :
    exec (.lendReturn n m) s = live s (returnArrives n m) := rfl

@[simp] theorem exec_probe (n : Rgn) (m : AxMsg) (s : State) :
    exec (.probe n m) s = live s (probed n m) := rfl

@[simp] theorem exec_replayRequest (n : Rgn) (h : FlitHdr) (s : State) :
    exec (.replayRequest n h) s = live s (replayRequested n h) := rfl

@[simp] theorem exec_idleFlit (n : Rgn) (h : FlitHdr) (s : State) :
    exec (.idleFlit n h) s = live s (idleFlit n h) := rfl

@[simp] theorem exec_flitError (n : Rgn) (kind : FlitError) (s : State) :
    exec (.flitError n kind) s = live s (flitFails n kind) := rfl

@[simp] theorem exec_pathDown (n : Rgn) (h : FlitHdr) (s : State) :
    exec (.pathDown n h) s = live s (pathGoesDown n h) := rfl

@[simp] theorem exec_axiumLinkDown (n : Rgn) (cause : LinkDown) (s : State) :
    exec (.axiumLinkDown n cause) s = live s (linkDown n cause) := rfl

@[simp] theorem exec_probeTimer (n : Rgn) (c : Fin 4096) (s : State) :
    exec (.probeTimer n c) s = live s (probeDue n c.val) := rfl

@[simp] theorem exec_circuitTimeout (n : Rgn) (c : Fin 4096) (s : State) :
    exec (.circuitTimeout n c) s = live s (circTimes n c.val) := rfl

@[simp] theorem exec_bindReprobe (n : Rgn) (c : Fin 4096) (s : State) :
    exec (.bindReprobe n c) s = live s (reprobe n c.val) := rfl

@[simp] theorem exec_recallNoticeExpiry (n : Rgn) (offer : BitVec 32) (s : State) :
    exec (.recallNoticeExpiry n offer) s = live s (recallEnds n offer) := rfl

@[simp] theorem exec_withdrawNoticeExpiry (n : Rgn) (offer : BitVec 32) (s : State) :
    exec (.withdrawNoticeExpiry n offer) s = live s (withdrawEnds n offer) := rfl

@[simp] theorem exec_fabChipId (who : Requester) (v : Word) (s : State) :
    exec (.fabChipId who v) s = live s (guardWrite who Reg.FAB_CHIP_ID 8 v (doChipId v)) := rfl

@[simp] theorem exec_porNFall  (s : State) :
    exec (.porNFall) s = .next (porFalls s) := rfl

@[simp] theorem exec_porNRise (boot recover testEn : Bool) (s : State) :
    exec (.porNRise boot recover testEn) s = .next (porRises boot recover testEn s) := rfl

@[simp] theorem exec_warmRstN  (s : State) :
    exec (.warmRstN) s = live s requestWarm := rfl

@[simp] theorem exec_warm (who : Requester) (v : Word) (s : State) :
    exec (.warm who v) s = live s fun s => if Reg.BOOT_CTRL_WARM.get v = 1 then guardWrite who Reg.BOOT_CTRL 8 v (doBootCtrl v) s else s := rfl

@[simp] theorem exec_clearAttempts (who : Requester) (v : Word) (s : State) :
    exec (.clearAttempts who v) s = live s fun s => if Reg.BOOT_CTRL_CLEAR_ATTEMPTS.get v = 1 then guardWrite who Reg.BOOT_CTRL 8 v (doBootCtrl v) s else s := rfl

@[simp] theorem exec_bootImgGo (who : Requester) (v : Word) (s : State) :
    exec (.bootImgGo who v) s = live s fun s => if Reg.BOOT_IMG_CTRL_GO.get v = 1 then guardWrite who Reg.BOOT_IMG_CTRL 8 v (doImgCtrl v) s else s := rfl

@[simp] theorem exec_bootImageReadDone (err : Bool) (bundle : List Byte) (s : State) :
    exec (.bootImageReadDone err bundle) s = live s (bootImageRead err bundle) := rfl

@[simp] theorem exec_tahrVerified (readErr : Bool) (s : State) :
    exec (.tahrVerified readErr) s = live s (tahrVerified readErr) := rfl

@[simp] theorem exec_companionUp  (s : State) :
    exec (.companionUp) s = live s companionUp := rfl

@[simp] theorem exec_bootWdtExpiry  (s : State) :
    exec (.bootWdtExpiry) s = live s bootWdtExpires := rfl

@[simp] theorem exec_herdTrainingDone (n : Rgn) (res : HerdResult) (s : State) :
    exec (.herdTrainingDone n res) s = live s (herdTrained n res) := rfl

@[simp] theorem exec_foldStartDone (n : Rgn) (res : FoldResult) (s : State) :
    exec (.foldStartDone n res) s = live s (foldStarted n res) := rfl

@[simp] theorem exec_nearTrainingDone (n : Rgn) (failed : BitVec 12) (s : State) :
    exec (.nearTrainingDone n failed) s = live s (nearTrained n failed) := rfl

@[simp] theorem exec_migrate (who : Requester) (v : Word) (s : State) :
    exec (.migrate who v) s = live s fun s => if Reg.BOOT_RGN_CFG_MIGRATE.get v ≠ 0 then guardWrite who Reg.BOOT_RGN_CFG 8 v (doRgnCfg v) s else s := rfl

@[simp] theorem exec_migrationDone (n : Rgn) (s : State) :
    exec (.migrationDone n) s = live s (migrationEnds n) := rfl

@[simp] theorem exec_pwrfailNFall  (s : State) :
    exec (.pwrfailNFall) s = live s powerFails := rfl

@[simp] theorem exec_pwrfailNRise  (s : State) :
    exec (.pwrfailNRise) s = live s powerReturns := rfl

@[simp] theorem exec_coolantOkFall  (s : State) :
    exec (.coolantOkFall) s = live s coolantFalls := rfl

@[simp] theorem exec_coolantRead (res : Option (BitVec 16 × BitVec 16)) (s : State) :
    exec (.coolantRead res) s = live s (coolantRead res) := rfl

@[simp] theorem exec_powerWindow (m : PowerSample) (s : State) :
    exec (.powerWindow m) s = live s (powerWindow m) := rfl

@[simp] theorem exec_peakLimit  (s : State) :
    exec (.peakLimit) s = live s peakLimit := rfl

@[simp] theorem exec_voltageStepDone (n : Rgn) (s : State) :
    exec (.voltageStepDone n) s = live s (voltageStep n.val) := rfl

@[simp] theorem exec_thermalTrip  (s : State) :
    exec (.thermalTrip) s = live s thermalTrip := rfl

@[simp] theorem exec_tripShutdown  (s : State) :
    exec (.tripShutdown) s = live s tripShutdown := rfl

@[simp] theorem exec_blockGating (n : Rgn) (s : State) :
    exec (.blockGating n) s = live s (gateBlocks n) := rfl

@[simp] theorem exec_deepIdleEntry  (s : State) :
    exec (.deepIdleEntry) s = live s deepIdle := rfl

@[simp] theorem exec_blockPowerOn (n : Rgn) (b : Blk) (s : State) :
    exec (.blockPowerOn n b) s = live s (powerBlock n b.val) := rfl

@[simp] theorem exec_pwrRmKick (who : Requester) (v : Word) (s : State) :
    exec (.pwrRmKick who v) s = live s (guardWrite who Reg.PWR_RM_KICK 8 v (doRmKick v)) := rfl

@[simp] theorem exec_rmWdtExpiry  (s : State) :
    exec (.rmWdtExpiry) s = live s rmWdtExpires := rfl

@[simp] theorem exec_rmHoldExpiry  (s : State) :
    exec (.rmHoldExpiry) s = live s rmHoldExpires := rfl

@[simp] theorem exec_refclkLoss  (s : State) :
    exec (.refclkLoss) s = live s refclkLoss := rfl

@[simp] theorem exec_faultReport (src : Fin 1024) (info : FaultInfo) (s : State) :
    exec (.faultReport src info) s = live s (raise src.val info) := rfl

@[simp] theorem exec_graceExpiry (src : Fin 1024) (s : State) :
    exec (.graceExpiry src) s = live s (graceExpire src.val) := rfl

@[simp] theorem exec_fltAck (who : Requester) (addr : Nat) (v : Word) (s : State) :
    exec (.fltAck who addr v) s = live s fun s => if isFltAck addr then guardWrite who addr 8 v (doFltAck addr v) s else s := rfl

@[simp] theorem exec_force (who : Requester) (addr : Nat) (v : Word) (s : State) :
    exec (.force who addr v) s = live s fun s => if isSrcSev addr then guardWrite who addr 8 v (doSrcSev addr v) s else s := rfl

@[simp] theorem exec_errPulseEnd  (s : State) :
    exec (.errPulseEnd) s = live s errPulseEnds := rfl

@[simp] theorem exec_fltRingCfg (who : Requester) (v : Word) (s : State) :
    exec (.fltRingCfg who v) s = live s (guardWrite who Reg.FLT_RING_CFG 8 v (doRingCfg v)) := rfl

@[simp] theorem exec_keptDrain  (s : State) :
    exec (.keptDrain) s = live s keptDrain := rfl

@[simp] theorem exec_eventDelivery (p : Fin 36) (s : State) :
    exec (.eventDelivery p) s = live s (deliverEvent p.val) := rfl

@[simp] theorem exec_processorInterrupt (p : Fin 36) (s : State) :
    exec (.processorInterrupt p) s = live s (processorInterrupts p.val) := rfl

@[simp] theorem exec_irqModExpiry (p : Fin 36) (s : State) :
    exec (.irqModExpiry p) s = live s (irqModExpires p.val) := rfl

@[simp] theorem exec_irqEnSet (who : Requester) (w : Fin 20) (v : Word) (s : State) :
    exec (.irqEnSet who w v) s = live s (guardWrite who (Reg.IRQ_EN_SET w.val) 8 v (doEnable w.val v true)) := rfl

@[simp] theorem exec_irqEnClr (who : Requester) (w : Fin 20) (v : Word) (s : State) :
    exec (.irqEnClr who w v) s = live s (guardWrite who (Reg.IRQ_EN_CLR w.val) 8 v (doEnable w.val v false)) := rfl

@[simp] theorem exec_irqPendSet (who : Requester) (w : Fin 20) (v : Word) (s : State) :
    exec (.irqPendSet who w v) s = live s (guardWrite who (Reg.IRQ_PEND_SET w.val) 8 v (doPendSet w.val v)) := rfl

@[simp] theorem exec_irqPendClr (who : Requester) (w : Fin 20) (v : Word) (s : State) :
    exec (.irqPendClr who w v) s = live s (guardWrite who (Reg.IRQ_PEND_CLR w.val) 8 v (doPendClr w.val v)) := rfl

@[simp] theorem exec_irqQCfg (who : Requester) (p : Fin 36) (v : Word) (s : State) :
    exec (.irqQCfg who p v) s = live s (guardWrite who (Reg.IRQ_Q_CFG p.val) 8 v (doQCfg p.val v)) := rfl

@[simp] theorem exec_getCert (who : Requester) (v : Word) (s : State) :
    exec (.getCert who v) s = live s (mbxWrite 1 who v) := rfl

@[simp] theorem exec_mrExtend (who : Requester) (v : Word) (s : State) :
    exec (.mrExtend who v) s = live s (mbxWrite 2 who v) := rfl

@[simp] theorem exec_unlockChallenge (who : Requester) (v : Word) (s : State) :
    exec (.unlockChallenge who v) s = live s (mbxWrite 3 who v) := rfl

@[simp] theorem exec_unlock (who : Requester) (v : Word) (s : State) :
    exec (.unlock who v) s = live s (mbxWrite 4 who v) := rfl

@[simp] theorem exec_lock (who : Requester) (v : Word) (s : State) :
    exec (.lock who v) s = live s (mbxWrite 5 who v) := rfl

@[simp] theorem exec_setEndpointId (bus : MctpBus) (eid : Byte) (s : State) :
    exec (.setEndpointId bus eid) s = live s (setEid bus eid) := rfl

@[simp] theorem exec_pldmDiscovery (bus : MctpBus) (x : Byte) (s : State) :
    exec (.pldmDiscovery bus x) s = live s (discovery bus) := rfl

@[simp] theorem exec_getSensorReading (bus : MctpBus) (k : Nat) (s : State) :
    exec (.getSensorReading bus k) s = live s (readSensor bus k) := rfl

@[simp] theorem exec_requestUpdate (bus : MctpBus) (s : State) :
    exec (.requestUpdate bus) s = live s (requestUpdate bus) := rfl

@[simp] theorem exec_firmwareTransfer (bus : MctpBus) (off : Nat) (data : List Byte) (last : Bool) (s : State) :
    exec (.firmwareTransfer bus off data last) s = live s (pldmTransfer bus off data last) := rfl

@[simp] theorem exec_activateFirmware (bus : MctpBus) (s : State) :
    exec (.activateFirmware bus) s = live s (activateFw bus) := rfl

@[simp] theorem exec_cancelUpdate (bus : MctpBus) (s : State) :
    exec (.cancelUpdate bus) s = live s (cancelUpdate bus) := rfl

@[simp] theorem exec_pldmUpdateTimeout  (s : State) :
    exec (.pldmUpdateTimeout) s = live s updateTimes := rfl

@[simp] theorem exec_vendorKick (bus : MctpBus) (arg : BitVec 16) (s : State) :
    exec (.vendorKick bus arg) s = live s (vendorKick bus arg.toNat) := rfl

@[simp] theorem exec_coolantOkRise  (s : State) :
    exec (.coolantOkRise) s = live s coolantRises := rfl

@[simp] theorem exec_foldFlushTimeout (n : Rgn) (s : State) :
    exec (.foldFlushTimeout n) s = live s (flushTimes n) := rfl

@[simp] theorem exec_regulatorReport (mv : Nat) (s : State) :
    exec (.regulatorReport mv) s = live s (regulatorReports mv) := rfl

@[simp] theorem exec_pad (cr : Credit) (s : State) :
    exec (.pad cr) s = live s (padArrives cr) := rfl

@[simp] theorem exec_laneSignal (n : Rgn) (s : State) :
    exec (.laneSignal n) s = live s (laneSignal n) := rfl

@[simp] theorem exec_tahrMailboxDone (rnd : List Byte) (s : State) :
    exec (.tahrMailboxDone rnd) s = live s (mailboxDone rnd) := rfl

@[simp] theorem exec_supplyFall  (s : State) :
    exec (.supplyFall) s = .next (supplyFalls s) := rfl

@[simp] theorem exec_badRead (who : Requester) (addr width : Nat) (s : State) :
    exec (.badRead who addr width) s = live s fun s => if isBadRead who addr width s then (readReg who addr width s).2 else s := rfl

/-- A step with a command in front is that command's meaning on the queue's rest. -/
theorem step_cons (s : State) (c : Instr) (rest : List Instr) (h : s.pending = c :: rest) :
    step s = exec c { s with pending := rest } := by simp only [step, h]

/-- A step on an empty queue is one tick. -/
theorem step_nil (s : State) (h : s.pending = []) : step s = .next (idle s) := by simp only [step, h]

end Sys2Proof.Machine
end

