-- ==== Sys2Proof/Machine/Signals.lean ====
section
/-!
DEFINITION. The output signals of the package that reset holds (R466, Table 20.9), as views of the state: which level reset gives
a signal, and whether the signal still stands at it. The levels of ERR_N and THERMTRIP_N themselves are fields of Pins.
-/

namespace Sys2Proof.Machine

/-- The signals of Table 20.9; those of a region's memories and port carry the region. -/
inductive Signal where
  | axTx (n : Rgn) | taithTx
  | ddrResetN (n : Rgn) | ddrOther (n : Rgn)
  | nandCeN (n : Rgn) | nandWpN (n : Rgn)
  | xspiResetN | xspiCsN | avsClk
  | errN | thermtripN | smbAlertN | jtagTdo
  deriving DecidableEq, Repr

/-- What an output does while reset holds it. -/
inductive Level where
  | electricalIdle | low | high | highImpedance | released
  deriving DecidableEq, Repr

/-- The column of Table 20.9 for a POR_N that is low. -/
def Signal.resetLevel : Signal → Level
  | .axTx _ | .taithTx => .electricalIdle
  | .ddrResetN _ | .nandWpN _ | .xspiResetN | .avsClk => .low
  | .xspiCsN => .high
  | .ddrOther _ | .nandCeN _ | .jtagTdo => .highImpedance
  | .errN | .thermtripN | .smbAlertN => .released

/-- Region step 2 has been taken: herd training ended, well or not (R372, Table 15.5). -/
def herdStepTaken (s : State) (n : Rgn) : Bool :=
  s.flag (Reg.BOOT_RGN n.val) Reg.BOOT_RGN_HERD_OK ||
    [0x11, 0x12].contains (s.fld (Reg.BOOT_RGN n.val) Reg.BOOT_RGN_REASON)

/-- Region step 3 has been taken: fold start ended, well or not (R372, Table 15.5). -/
def foldStepTaken (s : State) (n : Rgn) : Bool :=
  decide (3 ≤ s.stage n) || [0x13].contains (s.fld (Reg.BOOT_RGN n.val) Reg.BOOT_RGN_REASON)

/-- Has the event of Table 20.9 that ends the hold of a signal come since the last reset? The spec names no event that asserts
SMB_ALERT_N (R443). -/
def Signal.freed (s : State) : Signal → Bool
  | .axTx n => portState s n != portDown
  | .taithTx => linkUp s || linkLost s
  | .ddrResetN n | .ddrOther n => herdStepTaken s n
  | .nandCeN n | .nandWpN n => foldStepTaken s n
  | .xspiResetN | .xspiCsN | .avsClk => true
  | .errN => !s.pins.errN
  | .thermtripN => !s.pins.thermtripN
  | .smbAlertN => false
  | .jtagTdo => s.scope 0

/-- A signal stands at its level of Table 20.9 while POR_N is low, and from its rise until the event named; under the hold of
TEST_EN the ROM does not run (R457, R466). -/
def Signal.held (s : State) (g : Signal) : Bool := !s.pins.porN || s.boot.testHold || !g.freed s

/-- The level of a signal that reset still holds; none where its own interface drives it. -/
def Signal.level (s : State) (g : Signal) : Option Level := if g.held s then some g.resetLevel else none

end Sys2Proof.Machine
end

