-- ==== Sys2Proof/Tests/States.lean ====
section
/-!
SUPPORT. Small states for the tests and the witnesses: the state after reset with a few registers, tables or queues set.
-/

namespace Sys2Proof.Tests

open Sys2Proof.Machine

/-- Set some fields of some registers. -/
def sets : List (Nat × Fld × Nat) → State → State
  | [], s => s
  | x :: l, s => sets l (s.setFld x.1 x.2.1 x.2.2)

/-- A register value with some fields. -/
def fields : List (Fld × Nat) → Word
  | [] => 0
  | x :: l => x.1.put (fields l) x.2

/-- The chip is up: stage 2, with the Taith link up and region 0 at stage 3. -/
def sUp : State :=
  sets [(Reg.BOOT_STATUS, Reg.BOOT_STATUS_CHIP_STAGE, 2), (Reg.TAITH_STATUS, Reg.TAITH_STATUS_LINK_UP, 1),
    (Reg.BOOT_RGN 0, Reg.BOOT_RGN_STAGE, 3)] State.reset

/-- The chip is up, and partition 0 holds region 0, with quotas, 64 GiB of herd, and ring 0 and the completion ring of its
command block enabled in the herd tier. -/
def sPart : State :=
  (sets [(Reg.CMD_STATUS 0, Reg.CMD_STATUS_ASSIGNED, 1), (Reg.CMD_STATUS 0, Reg.CMD_STATUS_LEAD, 1),
    (Reg.CMD_STATUS 0, Reg.CMD_STATUS_PARTITION, 0), (Reg.HERD_CFG 0, Reg.HERD_CFG_SIZE_GIB, 64),
    (Reg.CMD_RING_CFG 0 0, Reg.CMD_RING_CFG_LOC, 1), (Reg.CMD_RING_CFG 0 0, Reg.CMD_RING_CFG_SIZE, 4),
    (Reg.CMD_RING_CFG 0 0, Reg.CMD_RING_CFG_ENABLE, 1), (Reg.CMD_RING_CFG 0 2, Reg.CMD_RING_CFG_LOC, 1),
    (Reg.CMD_RING_CFG 0 2, Reg.CMD_RING_CFG_SIZE, 4), (Reg.CMD_RING_CFG 0 2, Reg.CMD_RING_CFG_BASE, 1),
    (Reg.CMD_RING_CFG 0 2, Reg.CMD_RING_CFG_ENABLE, 1)] sUp).modPart 0 fun p =>
    { p with mask := 1, quota := Vector.replicate 4 100000000 }

/-- The same with the management rings enabled in the window, and herd tiles 40,000 up held by partition 0. -/
def sMgmtUp : State :=
  (sets [(Reg.MGT_RING_CFG 0, Reg.CMD_RING_CFG_ENABLE, 1), (Reg.MGT_RING_CFG 0, Reg.CMD_RING_CFG_SIZE, 4),
    (Reg.MGT_RING_CFG 2, Reg.CMD_RING_CFG_ENABLE, 1), (Reg.MGT_RING_CFG 2, Reg.CMD_RING_CFG_SIZE, 4)] sPart).modPart 0 fun p =>
      { p with allocs := [⟨⟨0, 2, 40000, 10⟩, .alloc⟩] }

/-- A packet: opcode, flags, tag, client, deadline and parameters from byte 16. -/
def packet (op flags tag client deadline : Nat) (params : List Byte) : List Byte :=
  leBytes 1 op ++ leBytes 1 flags ++ leBytes 2 tag ++ leBytes 2 client ++ leBytes 2 0 ++ leBytes 4 deadline ++
    leBytes 4 0 ++ params ++ List.replicate (48 - params.length) 0

/-- An entry of a ring with an opcode and parameters, just fetched, as command 7. -/
def entry (r : Ring) (op deadline : Nat) (params : List Byte) : Cmd := newCmd 7 r (packet op 0 1 2 deadline params) 0

/-- A command at the head of ring 0 of partition 0. -/
def partCmd (op deadline : Nat) (params : List Byte) : Cmd := entry (.part 0 0) op deadline params

/-- A command at the head of the management ring. -/
def mgmtCmd (op : Nat) (params : List Byte) : Cmd := entry .mgmt op 0 params

/-- The state with commands in the table. -/
def withCmds (l : List Cmd) (s : State) : State := { s with cmds := l }

/-- The choice with a handle and a first tile. -/
def choose (h : BitVec 32) (first : Nat) : Choice := ⟨h, first, 0, [], [], .ok⟩

end Sys2Proof.Tests
end

