-- ==== Sys2Proof/Tests/Witness1.lean ====
section
/-!
SUPPORT. For each statement of Certificates/Slice0/Obligations.lean, states and operands that meet its hypotheses together:
the queue, faults and interrupts, and the rings.
-/

namespace Sys2Proof.Tests

set_option Elab.async false

open Sys2Proof.Machine

/-! ### The queue and the whole machine -/

theorem witness_FrontCommandRuns : { State.reset with pending := [.stall 0] }.pending = .stall 0 :: [] := rfl

def sPor : State := { State.reset with pins := { Pins.reset with porN := false } }
def sLost : State := { State.reset with pins := { Pins.reset with refclkLost := true } }

theorem witness_EmptyQueueTicks : State.reset.pending = [] ∧ State.reset.pins.porN = true ∧
    State.reset.pins.refclkLost = false ∧ sPor.pending = [] ∧ sPor.pins.porN = false ∧ sLost.pending = [] ∧
    sLost.pins.refclkLost = true := by decide +kernel

theorem witness_PorHoldsEverything :
    let s := { sPor with pending := [.stall 0] }
    s.pins.porN = false ∧ step s = .next sPor ∧
    (∀ boot recover testEn rest, s.pending ≠ .porNRise boot recover testEn :: rest) ∧
    s.pending = .stall 0 :: [] ∧ Instr.stall 0 ≠ .porNFall ∧ Instr.stall 0 ≠ .supplyFall := by
  refine ⟨rfl, rfl, ?_, rfl, by decide, by decide⟩
  intro _ _ _ _ h
  cases h

theorem witness_TestHoldServesNothing :
    let t := { State.reset with boot := { Boot.reset with testHold := true } }
    sPor.pins.porN = false ∧ sPor.chipStage = 0 ∧ t.pins.porN = true ∧ t.boot.testHold = true ∧
    Instr.pad ⟨3, 0⟩ ≠ .porNFall ∧ Instr.pad ⟨3, 0⟩ ≠ .supplyFall := by decide +kernel

theorem witness_ClockLossStopsEveryCommand : sLost.pins.porN = true ∧ sLost.boot.testHold = false ∧
    sLost.pins.refclkLost = true ∧ Instr.stall 0 ≠ .porNFall ∧ Instr.stall 0 ≠ .supplyFall ∧
    (∀ a b d, Instr.stall 0 ≠ .porNRise a b d) ∧ ∃ f, exec (.stall 0) sLost = .fault f :=
  ⟨rfl, rfl, rfl, by decide, by decide, fun _ _ _ h => (by cases h), .refclkLost, rfl⟩

theorem witness_EveryStepKeepsCanonicalForms : MemCanonical State.reset ∧ RegsCanonical State.reset ∧
    step State.reset = .next { State.reset with now := 1 } :=
  ⟨(by decide : Memory.wf State.reset.mem = true), (by decide : Assoc.wf regReset State.reset.regs = true), rfl⟩

/-! ### Faults and interrupts -/

theorem witness_FltAckClears :
    let go := fields [(Reg.FLT_ACK_GO, 1), (Reg.FLT_ACK_SOURCE, 5)]
    Writes (.eland 0) Reg.FLT_ACK go sUp ∧ Reg.FLT_ACK_GO.get go = 1 ∧ 5 = Reg.FLT_ACK_SOURCE.get go ∧
    Writes (.service 0) (rgnBase 0 + 0x80008) go sPart ∧ Writes (.eland 0) (rgnBase 15 + 0x80008) go sUp ∧
    Writes (.eland 0) Reg.FLT_ACK 5 sUp ∧ Reg.FLT_ACK_GO.get 5 = 0 := by decide +kernel

/-- The fault ring enabled in the herd of region 0. -/
def sRing : State := sets [(Reg.FLT_RING_CFG, Reg.FLT_RING_CFG_ENABLE, 1), (Reg.FLT_RING_CFG, Reg.FLT_RING_CFG_SIZE, 8)] sUp

theorem witness_ReportIsTaken :
    Awake sRing ∧ srcListed 12 = true ∧ srcOff sRing 12 = false ∧ ringRoom sRing = true ∧
    (∀ x ∈ sRing.flt.kept, x.source ≠ 12) ∧ (sRing.setFld (Reg.FLT_SRC_SEV 12) Reg.FLT_SRC_SEV_SEV 0).sev 12 = 0 ∧
    (sRing.setFld (Reg.FLT_SRC_SEV 12) Reg.FLT_SRC_SEV_SEV 1).sev 12 = 1 ∧
    (sRing.setFld (Reg.FLT_SRC_SEV 12) Reg.FLT_SRC_SEV_SEV 2).sev 12 = 2 := by decide +kernel

theorem witness_FixedSourceKeepsItsSeverity :
    Writes (.eland 0) (Reg.FLT_SRC_SEV 7) 3 sUp ∧ srcListed 7 = true ∧ Reg.FLT_SRC_SEV_FORCE.get 3 = 0 ∧
    sUp.flag (Reg.FLT_SRC_SEV 7) Reg.FLT_SRC_SEV_FIXED = true ∧ Writes (.eland 0) (Reg.FLT_SRC_SEV 12) 3 sUp ∧
    sUp.flag (Reg.FLT_SRC_SEV 12) Reg.FLT_SRC_SEV_FIXED = false := by decide +kernel

theorem witness_ForcedReportIsMarked :
    let v := fields [(Reg.FLT_SRC_SEV_FORCE, 1), (Reg.FLT_SRC_SEV_SEV, 1)]
    Writes (.eland 0) (Reg.FLT_SRC_SEV 12) v sRing ∧ srcListed 12 = true ∧ srcOff sRing 12 = false ∧
    sRing.flag (Reg.FLT_SRC_SEV 12) Reg.FLT_SRC_SEV_FIXED = false ∧ Reg.FLT_SRC_SEV_FORCE.get v = 1 ∧
    Reg.FLT_SRC_SEV_SEV.get v = 1 ∧ Reg.FLT_SRC_SEV_PIN.get v = 0 ∧ ringRoom sRing = true ∧
    (∀ x ∈ sRing.flt.kept, x.source ≠ 12) := by decide +kernel

def aGrace : Grace := ⟨5, 2, 0, none, ⟨none, 0, 0⟩⟩

/-- Source 5 pending at EFF 2 with a grace timer that has run out. -/
def sGrace : State :=
  { sets [(Reg.FLT_SRC_STAT 5, Reg.FLT_SRC_STAT_PENDING, 1), (Reg.FLT_SRC_STAT 5, Reg.FLT_SRC_STAT_EFF, 2)] sRing with
    now := 200000000, flt := { Faults.reset with grace := [aGrace] } }

theorem witness_FaultUnitCommandsComplete_grace :
    let esc := sGrace.setFld (Reg.FLT_GRACE 0) Reg.FLT_GRACE_ESC 1
    let no := sGrace.setFld (Reg.FLT_GRACE 0) Reg.FLT_GRACE_ESC 0
    Awake sGrace ∧ (sGrace.flt.grace.find? fun x => x.source == 5) = some aGrace ∧
    aGrace.start + graceTicks sGrace aGrace.cls ≤ sGrace.now ∧ sGrace.flag (Reg.FLT_SRC_STAT 5) Reg.FLT_SRC_STAT_PENDING = true ∧
    esc.flag (Reg.FLT_GRACE (aGrace.cls - 2)) Reg.FLT_GRACE_ESC = true ∧ ringRoom esc = true ∧ esc.flt.kept = [] ∧
    esc.fld (Reg.FLT_SRC_STAT 5) Reg.FLT_SRC_STAT_EFF = 2 ∧ no.flag (Reg.FLT_GRACE (aGrace.cls - 2)) Reg.FLT_GRACE_ESC = false := by
  decide +kernel

def aReport : Report := mkReport 5 1 false false false ⟨none, 0, 0⟩ State.reset

theorem witness_FaultUnitCommandsComplete_ring :
    let good := fields [(Reg.FLT_RING_CFG_ENABLE, 1), (Reg.FLT_RING_CFG_SIZE, 16)]
    let bad := fields [(Reg.FLT_RING_CFG_ENABLE, 1), (Reg.FLT_RING_CFG_SIZE, 7)]
    let p := { sUp with flt := { Faults.reset with pulseEnd := some 0 } }
    let k := { sRing with flt := { Faults.reset with kept := [⟨5, aReport, none⟩] } }
    Awake p ∧ p.flt.pulseEnd = some 0 ∧ 0 ≤ p.now ∧ p.fatal = false ∧ Writes (.eland 0) Reg.FLT_RING_CFG good sUp ∧
    sUp.flag Reg.FLT_RING_CFG Reg.FLT_RING_CFG_ENABLE = false ∧ Reg.FLT_RING_CFG_ENABLE.get good = 1 ∧
    8 ≤ Reg.FLT_RING_CFG_SIZE.get good ∧ Reg.FLT_RING_CFG_SIZE.get good ≤ 16 ∧ 3 ≤ sUp.stage 0 ∧
    Fin.ofNat 16 (Reg.FLT_RING_CFG_REGION.get good) = 0 ∧
    4096 * Reg.FLT_RING_CFG_BASE.get good + 64 * 2 ^ 16 ≤ 0x400000 ∧ Writes (.eland 0) Reg.FLT_RING_CFG bad sUp ∧
    Reg.FLT_RING_CFG_ENABLE.get bad = 1 ∧ Reg.FLT_RING_CFG_SIZE.get bad < 8 ∧
    Awake k ∧ lowestKept k.flt.kept = some ⟨5, aReport, none⟩ ∧ ringRoom k = true := by decide +kernel

theorem witness_InterruptWordsSetAndClear :
    let r : Raise := ⟨12, 0, 0, 0⟩
    let s := { sUp with flt := { Faults.reset with raises := [r] } }
    Writes (.eland 0) (Reg.IRQ_EN_SET 19) 1 s ∧ Writes (.eland 0) (Reg.IRQ_EN_CLR 0) 1 s ∧
    Writes (.eland 0) (Reg.IRQ_PEND_SET 0) 0x1020 s ∧ (0x1020 : Word).getLsbD 5 = true ∧ irqListed 5 = true ∧
    s.irqPending 5 = false ∧ (∀ q ∈ s.flt.raises, q.source ≠ 5) ∧ Writes (.eland 0) (Reg.IRQ_PEND_CLR 0) 0x1000 s := by decide +kernel

/-- Core 32's queue enabled, with sources 5 and 12 raised, pending and enabled. -/
def sQueue : State :=
  { sets [(Reg.IRQ_Q_CFG 32, Reg.IRQ_Q_CFG_ENABLE, 1), (Reg.IRQ_Q_CFG 32, Reg.IRQ_Q_CFG_SIZE, 4),
      (Reg.IRQ_SRC_CFG 12, Reg.IRQ_SRC_CFG_PRIO, 9)]
      ((sUp.setReg (Reg.IRQ_PEND_SET 0) 0x1020).setReg (Reg.IRQ_EN_SET 0) 0x1020) with
    flt := { Faults.reset with raises := [⟨5, 0, 0, 0⟩, ⟨12, 0, 0, 0⟩] } }

theorem witness_HighestPrioritySourceIsDelivered :
    Awake sQueue ∧ (32 : Fin 36).val ≠ 35 ∧ qRoom sQueue 32 = true ∧
    bestSource sQueue 32 sQueue.flt.raises = some ⟨12, 0, 0, 0⟩ ∧ bestSource sQueue 33 sQueue.flt.raises = none ∧
    qRoom sQueue 33 = false := by decide +kernel

/-- A queue with one record waiting since tick 0. -/
def sWaiting (p : Nat) (h : p < 36) : State :=
  { sets [(Reg.IRQ_Q_CFG p, Reg.IRQ_Q_CFG_ENABLE, 1), (Reg.IRQ_Q_CFG p, Reg.IRQ_Q_CFG_SIZE, 4),
      (Reg.IRQ_Q_PTR p, Reg.IRQ_Q_PTR_TAIL, 1), (Reg.IRQ_Q_MOD p, Reg.IRQ_Q_MOD_COUNT, 1),
      (Reg.IRQ_Q_CTRL p, Reg.IRQ_Q_CTRL_IDLE, 1)] sUp with
    now := 100000000, flt := { Faults.reset with queues := Faults.reset.queues.set p ⟨[0], 0⟩ h } }

theorem witness_ProcessorInterruptsAndQueues :
    let s := sWaiting 32 (by decide)
    let t := sWaiting 35 (by decide)
    let on := fields [(Reg.IRQ_Q_CFG_ENABLE, 1), (Reg.IRQ_Q_CFG_SIZE, 12)]
    let bad := fields [(Reg.IRQ_Q_CFG_ENABLE, 1), (Reg.IRQ_Q_CFG_SIZE, 13)]
    Awake s ∧ uncovered s 32 = 0 :: [] ∧ irqReachable s 32 = true ∧
    max 1 (s.fld (Reg.IRQ_Q_MOD 32) Reg.IRQ_Q_MOD_COUNT) ≤ (uncovered s 32).length ∧
    s.flag (Reg.IRQ_Q_CTRL 32) Reg.IRQ_Q_CTRL_IDLE = true ∧ 0 + s.fld (Reg.IRQ_Q_MOD 32) Reg.IRQ_Q_MOD_TICKS ≤ s.now ∧
    Awake t ∧ uncovered t 35 = 0 :: [] ∧ irqReachable t 35 = true ∧ Writes (.eland 0) (Reg.IRQ_Q_CFG 32) on s ∧
    s.flag (Reg.IRQ_Q_CFG 32) Reg.IRQ_Q_CFG_ENABLE = true ∧ Reg.IRQ_Q_CFG_ENABLE.get on = 1 ∧
    Writes (.eland 0) (Reg.IRQ_Q_CFG 33) on s ∧ s.flag (Reg.IRQ_Q_CFG 33) Reg.IRQ_Q_CFG_ENABLE = false ∧
    Reg.IRQ_Q_CFG_SIZE.get on = 12 ∧ Writes (.eland 0) (Reg.IRQ_Q_CFG 33) bad s ∧ Reg.IRQ_Q_CFG_ENABLE.get bad = 1 ∧
    12 < Reg.IRQ_Q_CFG_SIZE.get bad := by decide +kernel

/-! ### Rings -/

theorem witness_DoorbellMovesTail :
    let g := ringRegs (.rgn 0) 0
    submission sPart (.part 0 0) = some (.rgn 0, 0) ∧ Writes .companion g.tail 15 sPart ∧
    Reg.CMD_RING_TAIL_INDEX.get 15 < rSize sPart g ∧ Writes .companion g.tail 16 sPart ∧
    rSize sPart g ≤ Reg.CMD_RING_TAIL_INDEX.get 16 ∧ submission sPart .mgmt = some (.mgmt, 0) ∧
    Writes (.eland 0) (ringRegs .mgmt 0).tail 0 sPart := by decide +kernel

def sPending : State := sPart.setFld (Reg.CMD_RING_TAIL 0 0) Reg.CMD_RING_TAIL_INDEX 1

/-- The management rings enabled in the window, with one entry pending whose line the queue cache holds. -/
def sMgmt : State :=
  { sets [(Reg.MGT_RING_CFG 0, Reg.CMD_RING_CFG_ENABLE, 1), (Reg.MGT_RING_CFG 0, Reg.CMD_RING_CFG_SIZE, 4),
      (Reg.MGT_RING_CFG 2, Reg.CMD_RING_CFG_ENABLE, 1), (Reg.MGT_RING_CFG 2, Reg.CMD_RING_CFG_SIZE, 4),
      (Reg.MGT_RING_TAIL 0, Reg.CMD_RING_TAIL_INDEX, 1)] sPart with
    taith := { Taith.reset with cache := [(0, List.replicate 64 0)] } }

theorem witness_EntryFetchTakesTheHead :
    let g := ringRegs (.rgn 0) 0
    let h := withCmds [partCmd 0 0 []] (sPart.setFld (Reg.CMD_RING_STAT 0 0) Reg.CMD_RING_STAT_HELD 1)
    Awake sPending ∧ submission sPending (.part 0 0) = some (.rgn 0, 0) ∧ mayFetch sPending (.part 0 0) (.rgn 0) 0 = true ∧
    rLoc sPending g = 1 ∧ sPending.poison.contains (herdAddr 0 (rBase sPending g + 64 * rHead sPending g) / 64) = false ∧
    Awake sMgmt ∧ submission sMgmt .mgmt = some (.mgmt, 0) ∧ mayFetch sMgmt .mgmt .mgmt 0 = true ∧
    rLoc sMgmt (ringRegs .mgmt 0) = 0 ∧
    lineAt true none sMgmt.taith (winBase sMgmt + (rBase sMgmt (ringRegs .mgmt 0) + 64 * rHead sMgmt (ringRegs .mgmt 0))) =
      some (List.replicate 64 0) ∧
    Awake h ∧ submission h (.part 0 0) = some (.rgn 0, 0) ∧ headEntry h (.part 0 0) = some (partCmd 0 0 []) ∧
    isHeld h (.part 0 0) = true := by decide +kernel

theorem witness_RingEnableResetsIndices :
    let on := fields [(Reg.CMD_RING_CFG_ENABLE, 1), (Reg.CMD_RING_CFG_SIZE, 12), (Reg.CMD_RING_CFG_LOC, 1)]
    let cq := fields [(Reg.CMD_RING_CFG_ENABLE, 1), (Reg.CMD_RING_CFG_SIZE, 13)]
    let bad := fields [(Reg.CMD_RING_CFG_ENABLE, 1), (Reg.CMD_RING_CFG_SIZE, 13), (Reg.CMD_RING_CFG_LOC, 1)]
    Writes .companion (ringRegs (.rgn 0) 1).cfg on sPart ∧ rEnabled sPart (ringRegs (.rgn 0) 1) = false ∧
    Reg.CMD_RING_CFG_ENABLE.get on = 1 ∧ ringCfgOk (.rgn 0) 1 on sPart = true ∧ sPart.minimal = false ∧
    Writes .companion (ringRegs .mgmt 2).cfg cq sPart ∧ rEnabled sPart (ringRegs .mgmt 2) = false ∧
    Reg.CMD_RING_CFG_ENABLE.get cq = 1 ∧ ringCfgOk .mgmt 2 cq sPart = true ∧ (cqOf (ownerPart sPart .mgmt) sPart).shadow = [] ∧
    Writes .companion (ringRegs (.rgn 0) 1).cfg bad sPart ∧ Reg.CMD_RING_CFG_ENABLE.get bad = 1 ∧
    ringCfgOk (.rgn 0) 1 bad sPart = false ∧ sPart.chipStage = 2 ∧ srcOff sPart (rgnSrc 0 41) = false ∧
    Writes .companion (ringRegs (.rgn 0) 0).cfg on sPart ∧
    rEnabled sPart (ringRegs (.rgn 0) 0) = true ∧ rSize sPart (ringRegs (.rgn 0) 0) ≠ 2 ^ Reg.CMD_RING_CFG_SIZE.get on := by
  decide +kernel

theorem witness_CompletionTimerRaisesTheInterrupt :
    let s := { sPart.setFld (Reg.CMD_RING_TAIL 0 2) Reg.CMD_RING_TAIL_INDEX 1 with now := 100000000 }.modPart 0 fun p =>
      { p with cq := { p.cq with waiting := [0] } }
    let e := { s.setFld (Reg.CMD_CQ_MOD 0) Reg.CMD_CQ_MOD_TICKS 5 with now := 4 }
    Awake s ∧ s.partOf 0 = some 0 ∧ (cqOf (some 0) s).waiting = 0 :: [] ∧
    0 + s.fld (cqMod (.rgn 0)) Reg.CMD_CQ_MOD_TICKS ≤ s.now ∧ rUsed s (ringRegs (.rgn 0) 2) ≠ 0 ∧
    Awake e ∧ e.partOf 0 = some 0 ∧ (cqOf (some 0) e).waiting = 0 :: [] ∧
    e.now < 0 + e.fld (cqMod (.rgn 0)) Reg.CMD_CQ_MOD_TICKS := by decide +kernel

theorem witness_ReservedOpcodeIsRejected :
    let c := partCmd 0xFF 0 []
    let s := withCmds [c] sPart
    Awake s ∧ s.fatal = false ∧ headEntry s (.part 0 0) = some c ∧ s.cmd c.id = some c ∧ opcodeKnown c.opcode = false ∧
    myTurn s c = true ∧ (s.part 0).lead = some 0 ∧ rEnabled s (ringRegs (.rgn 0) 2) = true ∧
    rLoc s (ringRegs (.rgn 0) 2) = 1 := by decide +kernel

theorem witness_BadHeaderIsRejected :
    let c := { mgmtCmd 0x43 [] with pkt := packet 0x43 4 1 2 0 [] }
    let s := withCmds [c] sMgmt
    Awake s ∧ headEntry s .mgmt = some c ∧ s.cmd c.id = some c ∧ c.opcode = 0x43 ∧ s.fatal = false ∧
    opcodeAllowed s c = true ∧ badHeader s c = some 1 := by decide +kernel

end Sys2Proof.Tests
end

