-- ==== Sys2Proof/Tests/Witness2.lean ====
section
/-!
SUPPORT. For the statements about the commands of the rings and their life: states and operands that meet the hypotheses.
-/

namespace Sys2Proof.Tests

set_option Elab.async false

open Sys2Proof.Machine

/-- Zero bytes. -/
def zs (k : Nat) : List Byte := List.replicate k 0

/-- A version of package 5 in region 0, its plan image at near tile 10,000. -/
def aVersion : Version :=
  ⟨5, 1, [0], [1], [], [[], [0, 0, 1, 0]], [[]], [[]], [[⟨2, 0xFF, 10000, 1⟩]], false, [9990], [(0, 1)], []⟩

/-- An open session of client 2 with 32 positions in two pages of one table. -/
def aSession : Session := ⟨9, 2, 5, 0, 32, 40, .opened, 0, 0, none, [⟨0, 0, 0, 0, 1, [12000, 12001, 12002], 11000⟩], 0, [], false⟩

/-- The same session parked in the herd, with no time left. -/
def aParked : Session := { aSession with st := .parked, parkTier := 2, ttl := 0, ttlFrom := some 0, parkTiles := [⟨0, 2, 50000, 3⟩] }

/-- Partition 0 with a version active, a session, herd tiles allocated from tile 40,000 and a plan image with one start row. -/
def sPkg : State :=
  (sPart.modPart 0 fun p => { p with
    versions := [aVersion], active := [(5, 1)], sessions := [aSession], adapters := [⟨5, 8, 1, 3, false⟩],
    allocs := [⟨⟨0, 2, 40000, 10⟩, .alloc⟩] }).store (nearAddr 0 40960004) [1]

def sParked : State := sPkg.modPart 0 fun p => { p with sessions := [aParked] }

/-- A variant record that uses no granule fits region 0 while no block has failed. -/
theorem fits_plain (s : State) (h : (List.range 9).filter (fun b => blockState s (Fin.ofNat 16 0) b == 3) = []) :
    variantFits s [0, 0, 1, 0] 0 0 = true := by
  have z : ∀ c, c ∈ List.range 576 → leAt [0, 0, 1, 0] (0x40 + 12 * c) 12 = 0 := by decide +kernel
  have a : (List.range 576).all (fun c => (retired s 0 c).all fun g => !(leAt [0, 0, 1, 0] (0x40 + 12 * c) 12).testBit g) =
      true := by
    rw [List.all_eq_true]
    intro c hc
    rw [z c hc]
    simp
  simp only [variantFits]
  rw [h, a]
  decide +kernel

theorem misfits_empty (s : State) : variantFits s [] 0 0 = false := by simp [variantFits]

theorem serves_plain (s : State) (h : (List.range 9).filter (fun b => blockState s (Fin.ofNat 16 0) b == 3) = []) :
    selectVariant s [[], [0, 0, 1, 0]] 0 0 = some 1 := by
  have f : variantFits s (([[], [0, 0, 1, 0]] : List (List Byte)).getD 0 []) 0 0 = false := misfits_empty s
  have g : variantFits s (([[], [0, 0, 1, 0]] : List (List Byte)).getD 1 []) 0 0 = true := fits_plain s h
  show (List.find? _ [0, 1] : Option Nat) = some 1
  rw [List.find?_cons_of_neg (by rw [f]; decide)]
  exact List.find?_cons_of_pos g

theorem pkg_plain (s : State) (c : Cmd) (b : List Byte) (r : runVersion s c b = some aVersion) (a : (namedPkg s c b).2 = 0)
    (h : (List.range 9).filter (fun b => blockState s (Fin.ofNat 16 0) b == 3) = []) : pkgFail s c b = none := by
  have e : posOf aVersion 0 = 0 := by decide
  have t : aVersion.targets = [0] := rfl
  have u : aVersion.records = [[], [0, 0, 1, 0]] := rfl
  have v : versionServes s aVersion = true := by simp only [versionServes, t, u, e, List.all, serves_plain s h]; rfl
  simp [pkgFail, r, a, v]

/-! ### Session commands -/

theorem witness_SessionOpcodesComplete_open :
    let c := partCmd 0x00 0 []
    let s := withCmds [c] sPkg
    let d := partCmd 0x20 0 (leBytes 8 5)
    let t := withCmds [d] sPkg
    let ch : Choice := ⟨77, 0, 0, [⟨0, 1, 9000, [⟨15000, []⟩]⟩], [], .ok⟩
    let exts := (openTables ch.groups).map fun t => (⟨t.rgn, 1, t.tableTile, 1⟩ : Extent)
    Ready s (.part 0 0) 0x00 c ∧ reserved c [] = none ∧
    Ready t (.part 0 0) 0x20 d ∧ openCheck d t = none ∧ handleFree t (cmdPart d) ch.handle = true ∧
    groupsFit (activeVer t (cmdPart d) (d.p8 0x10)) (openTables ch.groups) = true ∧ activeVer t (cmdPart d) (d.p8 0x10) = some aVersion ∧
    aVersion.targets.contains 0 = true ∧ quotaOk t (cmdPart d) 1 exts.length = true ∧ exts.all (isFree t) = true ∧ disjoint exts = true ∧
    (t.part (cmdPart d)).sessions.length < 262144 := by
  decide +kernel

theorem witness_SessionOpcodesComplete_close :
    let c := partCmd 0x23 0 (leBytes 4 9 ++ leBytes 4 40)
    let s := withCmds [c] sPkg
    let d := partCmd 0x26 0 (leBytes 4 9)
    let t := withCmds [d] sPkg
    let ch : Choice := ⟨0, 0, 0, [⟨0, 1, 9000, [⟨15000, []⟩]⟩], [], .ok⟩
    Ready s (.part 0 0) 0x23 c ∧ acceptCheck c s = none ∧ sessionOf s (cmdPart c) (c.p4 0x10) = some aSession ∧
    (editExtents (pagesOf (c.p4 0x14)) (tilesFor aSession ch)).all (isFree s) = true ∧
    disjoint (editExtents (pagesOf (c.p4 0x14)) (tilesFor aSession ch)) = true ∧
    Ready t (.part 0 0) 0x26 d ∧ closeCheck d t = none := by decide +kernel

/-! ### Run commands: a job -/

/-- A job whose argument block, all zero, has been read. -/
def jobCmd : Cmd := { partCmd 0x30 1000 (leBytes 8 (4096 * 40000 + 1) ++ leBytes 8 0 ++ leBytes 8 5) with work := zs 4096 }
def sJob : State := withCmds [jobCmd] sPkg

theorem leNat_zeros : ∀ k, leNat (zs k) = 0
  | 0 => rfl
  | k + 1 => by
    show (0 : Byte).toNat + 256 * leNat (zs k) = 0
    rw [leNat_zeros k]
    rfl

/-- The job's argument block is all zero. -/
theorem leAt_zeros (n off k : Nat) : leAt (zs n) off k = 0 := by
  have h : slice (zs n) off k = zs k := by
    simp [slice, Config.fit, zs, List.drop_replicate]
  rw [leAt, h, leNat_zeros]

theorem block_zero (s : State) (c : Cmd) (h : c.opcode = 0x30) (a : param 0x18 (startOk s c (zs 4096)) = none)
    (b : quarantineFail s (runSpan s c (zs 4096)) = none) (p : pkgFail s c (zs 4096) = none)
    (f : shapeFail s c (zs 4096) = none) : blockFail s c (zs 4096) = none := by
  have w : (ioWins (zs 4096)).filter (fun w => w.limit != 0) = [] := by
    simp [ioWins, argWin, leAt_zeros]
  have z : ∀ r, nonZeroIn (zs 4096) r = none := by intro r; simp [nonZeroIn, leAt_zeros]
  have x : winFail s c (zs 4096) = fun _ => none := by funext k; simp [winFail, argWin, leAt_zeros, param]
  have g : argFail s c (zs 4096) = none := by
    simp only [argFail, argAdapter, rowsOk, argRows, argNew, leAt_zeros, h, z, x, argReserved]
    decide
  simp [blockFail, g, w, a, b, p, f, firstFail, argRows, leAt_zeros]

theorem check_zero (s : State) (c : Cmd) (k : packetFail s c = none) (r : c.work = zs 4096)
    (b : blockFail s c (zs 4096) = none) (h : holdReason s { c with work := zs 4096 } = 0) :
    runCheck .ok c s = (s, .accept) := by
  have e : readArgs .ok c s = (s, .bytes (zs 4096)) := by simp only [readArgs, r]; rfl
  simp [runCheck, k, e, b, h]

set_option maxRecDepth 100000 in
theorem witness_RunOpcodesAreAccepted_job :
    Ready sJob (.part 0 0) 0x30 jobCmd ∧ runCheck .ok jobCmd sJob = (sJob, .accept) ∧
    sJob.cmd jobCmd.id = some jobCmd ∧ jobCmd.work = zs 4096 ∧ runVersion sJob jobCmd (zs 4096) = some aVersion ∧
    emptyShape sJob jobCmd (zs 4096) = false ∧ growAll sJob noChoice jobCmd (zs 4096) (argRows (zs 4096)) = some [] ∧
    listsFit sJob jobCmd noChoice.groups = true ∧ quotaOk sJob (cmdPart jobCmd) 1 0 = true ∧
    timeOk sJob (cmdPart jobCmd) (asAccepted sJob jobCmd aVersion (zs 4096)) = true := by
  refine ⟨by decide +kernel, check_zero _ _ (by decide +kernel) rfl ?_ (by decide +kernel), by decide +kernel, rfl,
    by decide +kernel, by decide +kernel, by decide +kernel, by decide +kernel, by decide +kernel, by decide +kernel⟩
  exact block_zero _ _ (by decide +kernel) (by decide +kernel) (by decide +kernel)
    (pkg_plain _ _ _ (by decide +kernel) (by decide +kernel) (by decide +kernel)) (by decide +kernel)

/-- The start row uses shape register 0, which the block gives as 0. -/
def sEmpty : State := sJob.store (nearAddr 0 40960066) [1]

set_option maxRecDepth 100000 in
theorem witness_RunOpcodesAreAccepted_empty :
    Ready sEmpty (.part 0 0) 0x30 jobCmd ∧ runCheck .ok jobCmd sEmpty = (sEmpty, .accept) ∧
    sEmpty.cmd jobCmd.id = some jobCmd ∧ runVersion sEmpty jobCmd (zs 4096) = some aVersion ∧
    emptyShape sEmpty jobCmd (zs 4096) = true := by
  refine ⟨by decide +kernel, check_zero _ _ (by decide +kernel) rfl ?_ (by decide +kernel), by decide +kernel,
    by decide +kernel, by decide +kernel⟩
  exact block_zero _ _ (by decide +kernel) (by decide +kernel) (by decide +kernel)
    (pkg_plain _ _ _ (by decide +kernel) (by decide +kernel) (by decide +kernel)) (by decide +kernel)

/-! ### Space -/

theorem witness_SpaceOpcodesComplete_alloc :
    let c := partCmd 0x40 0 ([1, 0, 0, 0] ++ leBytes 4 5)
    let s := withCmds [c] sPkg
    let d := partCmd 0x41 0 ([2, 0, 0, 0] ++ leBytes 4 10 ++ leBytes 4 40000)
    let t := withCmds [d] sPkg
    let q := mgmtCmd 0x43 ([0, 4, 0] ++ zs 5 ++ leBytes 8 (2 ^ 40 - 1))
    let u := withCmds [q] sMgmtUp
    Ready s (.part 0 0) 0x40 c ∧ allocCheck c s = none ∧ quotaOk s (cmdPart c) (c.p1 0x10) (c.p4 0x14) = true ∧
    isFree s ⟨c.p1 0x11, c.p1 0x10, 20000, c.p4 0x14⟩ = true ∧
    Ready t (.part 0 0) 0x41 d ∧ freeCheck d t = none ∧ inWindows t (cmdPart d) (freeExtent d) = false ∧
    Ready u .mgmt 0x43 q ∧ quotaCheck q u = none ∧ q.p1 0x12 = 0 := by decide +kernel

theorem witness_SpaceOpcodesComplete_copy :
    let c := partCmd 0x42 0 ([1, 0, 2, 1] ++ zs 4 ++ leBytes 8 20000 ++ leBytes 8 0 ++ leBytes 4 2)
    let s := withCmds [c] sPkg
    let d := partCmd 0x42 0 ([1, 0, 2, 0] ++ zs 4 ++ leBytes 8 20000 ++ leBytes 8 40000 ++ leBytes 4 2)
    let t := withCmds [d] sPkg
    Ready s (.part 0 0) 0x42 c ∧ copyCheck c s = none ∧ copyAllocs c = true ∧
    quotaOk s (cmdPart c) (c.p1 0x12) (c.p4 0x28) = true ∧ isFree s (copyDst { c with ch := choose 0 60000 }) = true ∧
    Ready t (.part 0 0) 0x42 d ∧ copyCheck d t = none ∧ copyAllocs d = false := by decide +kernel

theorem witness_SpaceOpcodesComplete_park :
    let p := partCmd 0x24 0 (leBytes 4 9 ++ [2, 0, 0, 0] ++ leBytes 4 1000)
    let u := withCmds [p] sPkg
    let ch : Choice := ⟨0, 0, 0, [⟨0, 1, 9, [⟨60000, [60001, 60002, 60003]⟩]⟩], [], .ok⟩
    let exts := parkExtents ch (parkTier p) aSession
    sessionOf u (cmdPart p) (p.p4 0x10) = some aSession ∧ Ready u (.part 0 0) 0x24 p ∧ parkCheck p u = none ∧
    quotaOk u (cmdPart p) (parkTier p) (tilesIn (parkTier p) exts) = true ∧ exts.all (isFree u) = true ∧
    disjoint exts = true := by decide +kernel

theorem witness_SpaceOpcodesComplete_resume :
    let r := partCmd 0x25 0 (leBytes 4 9)
    let v := withCmds [r] sParked
    let ch : Choice := ⟨0, 0, 0, [⟨0, 1, 9, [⟨60000, [60001, 60002, 60003]⟩]⟩], [], .ok⟩
    let l := [[(⟨0, 1, 60000, 1⟩ : Extent), ⟨0, 1, 60001, 1⟩, ⟨0, 1, 60002, 1⟩, ⟨0, 1, 60003, 1⟩]]
    sessionOf v (cmdPart r) (r.p4 0x10) = some aParked ∧ Ready v (.part 0 0) 0x25 r ∧ resumeCheck r v = none ∧
    resumeExtents ch aParked = some l ∧ quotaOk v (cmdPart r) 1 (tilesIn 1 l.flatten) = true ∧ l.flatten.all (isFree v) = true ∧
    disjoint l.flatten = true := by decide +kernel

/-! ### Packages -/

def stageCmd (id : Nat) : Cmd :=
  partCmd 0x10 0 (leBytes 8 id ++ leBytes 4 1 ++ [2, 0, 0, 0] ++ leBytes 8 0 ++ leBytes 8 0 ++ [1])

theorem witness_PackageOpcodesComplete_stage :
    let s := withCmds [stageCmd 6] sPkg
    let t := withCmds [stageCmd 5] sPkg
    let l := partCmd 0x13 0 (leBytes 8 5 ++ leBytes 8 8 ++ leBytes 4 2 ++ [3, 0, 0, 0] ++ leBytes 8 0)
    let u := withCmds [l] sPkg
    Ready s (.part 0 0) 0x10 (stageCmd 6) ∧ stageCheck (stageCmd 6) s = none ∧ versionOf s 0 6 1 = none ∧
    Ready t (.part 0 0) 0x10 (stageCmd 5) ∧ stageCheck (stageCmd 5) t = none ∧ versionOf t 0 5 1 ≠ none ∧
    Ready u (.part 0 0) 0x13 l ∧ loadCheck l u = none := by decide +kernel

theorem witness_PackageOpcodesComplete_activate :
    let a := partCmd 0x11 0 (leBytes 8 5 ++ leBytes 4 1)
    let s := withCmds [a] sPkg
    let r := partCmd 0x12 0 (leBytes 8 5 ++ leBytes 4 1)
    let t := withCmds [r] sPkg
    let d := partCmd 0x14 0 (leBytes 8 5 ++ leBytes 8 8)
    let u := withCmds [d] sPkg
    Ready s (.part 0 0) 0x11 a ∧ activateCheck a s = none ∧
    Ready t (.part 0 0) 0x12 r ∧ retireCheck r t = none ∧ beingStaged t r = false ∧
    versionOf t (cmdPart r) (r.p8 0x10) (r.p4 0x18) = some aVersion ∧
    Ready u (.part 0 0) 0x14 d ∧ dropCheck d u = none ∧
    loadedAdapter u (cmdPart d) (d.p8 0x10) (d.p8 0x18) = some ⟨5, 8, 1, 3, false⟩ := by decide +kernel

/-! ### Chip commands -/

/-- The queue cache holds the 64 lines of the tile at the window's base: two power profiles and zeros. -/
def sPolicy : State :=
  let line := fun (i : Nat) => (64 * i, if i < 2 then splice resetProfile 0x14 (leBytes 4 100000) else zs 64)
  { sMgmtUp with taith := { Taith.reset with cache := (List.range 64).map line } }

theorem witness_ChipOpcodesComplete_query :
    let q := partCmd 0x01 0 []
    let s := withCmds [q] sPkg
    let none3 := mgmtCmd 0x02 [3]
    let t := withCmds [none3] sMgmtUp
    let pol := mgmtCmd 0x02 ([0, 0, 1, 0] ++ zs 4 ++ leBytes 8 (4096 * 40000 + 1))
    let rst := mgmtCmd 0x02 ([0, 1, 1, 0] ++ zs 4 ++ leBytes 8 (4096 * 40000 + 1))
    let u := withCmds [pol] sMgmtUp
    let v := withCmds [rst] sMgmtUp
    Ready s (.part 0 0) 0x01 q ∧ queryCheck q s = none ∧ linkLost s = false ∧
    Ready t .mgmt 0x02 none3 ∧ (psCheck .ok none3 t).2 = .accept ∧ psNothing (psCheck .ok none3 t).1 none3 = true ∧
    ((psCheck .ok none3 t).1.cmd 7).isSome = true ∧
    Ready u .mgmt 0x02 pol ∧ (psCheck .ok pol u).2 = .accept ∧ psNothing (psCheck .ok pol u).1 pol = false ∧
    psPolicyOnly (psCheck .ok pol u).1 pol = true ∧ (((psCheck .ok pol u).1.cmd 7).map Cmd.ring) = some .mgmt ∧
    Ready v .mgmt 0x02 rst ∧ (psCheck .ok rst v).2 = .accept ∧ psNothing (psCheck .ok rst v).1 rst = false ∧
    psPolicyOnly (psCheck .ok rst v).1 rst = false := by decide +kernel

theorem witness_ChipOpcodesComplete_faults :
    let c := mgmtCmd 0x70 [12, 0, 3, 1]
    let s := withCmds [c] sMgmtUp
    let d := mgmtCmd 0x71 [12, 0, 1, 0]
    let t := withCmds [d] (sets [(Reg.FLT_SRC_SEV 12, Reg.FLT_SRC_SEV_SEV, 1), (Reg.FLT_RING_CFG, Reg.FLT_RING_CFG_ENABLE, 1)] sMgmtUp)
    Ready s .mgmt 0x70 c ∧ faultConfigCheck c s = none ∧ Ready t .mgmt 0x71 d ∧ faultInjectCheck d t = none ∧ d.p2 0x12 = 1 ∧
    t.sev (d.p2 0x10) = 1 ∧ srcOff t (d.p2 0x10) = false ∧ ringRoom t = true ∧ (∀ x ∈ t.flt.kept, x.source ≠ d.p2 0x10) := by
  decide +kernel

theorem witness_ChipOpcodesComplete_power :
    let c := mgmtCmd 0x80 []
    let s := withCmds [c] sPolicy
    Ready s .mgmt 0x80 c ∧ (powerPolicyCheck c s).2 = .accept ∧ ((powerPolicyCheck c s).1.cmd 7).isSome = true ∧
    (∀ n : Rgn, serviceOn (powerPolicyCheck c s).1 n = true) ∧
    ((powerPolicyCheck c s).1.cmd 7).any (fun d => (leAt d.work 1 1).testBit 5 == false) = true := by decide +kernel

theorem witness_ChipOpcodesComplete_sync :
    let c := fun (mode : Byte) => partCmd 0x50 0 ([0, 3, mode, 0] ++ leBytes 4 8)
    let s := fun (mode : Byte) => withCmds [c mode] sPkg
    (∀ m ∈ [(0 : Byte), 1, 2], Ready (s m) (.part 0 0) 0x50 (c m) ∧ syncCheck (c m) (s m) = none) ∧
    (c 0).p1 0x12 = 0 ∧ (c 1).p1 0x12 = 1 ∧ (c 2).p1 0x12 = 2 ∧ semValue (s 1) 0 3 + (c 1).p4 0x14 < 2 ^ 32 ∧
    (s 2).flag (Reg.BAR_STATE ((c 2).p1 0x11)) Reg.BAR_STATE_BROKEN = false := by decide +kernel

/-! ### Security and fabric -/

theorem witness_SecureAndFabricOpcodesComplete_firmware :
    let a := partCmd 0x90 0 []
    let f := mgmtCmd 0x91 (leBytes 8 0 ++ leBytes 4 1)
    let g := mgmtCmd 0x92 [1]
    let on := fun (c : Cmd) => withCmds [c] sMgmtUp
    Ready (withCmds [a] sPkg) (.part 0 0) 0x90 a ∧ attestCheck a (withCmds [a] sPkg) = none ∧
    (withCmds [a] sPkg).sec.queue.length < 64 ∧ Ready (on f) .mgmt 0x91 f ∧ fwStageCheck f (on f) = none ∧
    ((acceptAs f.id id (on f)).cmd f.id).all (fwTurn (acceptAs f.id id (on f))) = true ∧ pldmHeld (on f) = false ∧
    Ready (on g) .mgmt 0x92 g ∧ fwCommitCheck g (on g) = none ∧
    ((acceptAs g.id id (on g)).cmd g.id).all (fwTurn (acceptAs g.id id (on g))) = true := by decide +kernel

/-- Circuit 5 of region 0 is bound to partition 1 of chip 3; circuit 6 has a request outstanding. -/
def sCirc : State :=
  (sets [(Reg.FAB_CIRC 0 5, Reg.FAB_CIRC_STATE, circBound), (Reg.FAB_CIRC 0 5, Reg.FAB_CIRC_PEER_CHIP, 3),
      (Reg.FAB_CIRC 0 5, Reg.FAB_CIRC_PEER_PARTITION, 1), (Reg.FAB_CIRC 0 6, Reg.FAB_CIRC_STATE, circBound),
      (Reg.FAB_CIRC 0 6, Reg.FAB_CIRC_PEER_CHIP, 4)] sPkg).modRgn 0 fun r => { r with
    port := { r.port with circuits := [⟨5, 0, 0, none, none, none⟩, ⟨6, 0, 0, none, none, none⟩], asks := [⟨1, 6, 5, none, none, 0, 0⟩] } }

theorem witness_SecureAndFabricOpcodesComplete_circuits :
    let b := partCmd 0x60 0 ([0, 0, 7, 0] ++ leBytes 4 3 ++ [0, 2])
    let u := fun (k : Byte) => partCmd 0x61 0 [0, 0, k, 0]
    let on := fun (c : Cmd) => withCmds [c] sCirc
    Ready (on b) (.part 0 0) 0x60 b ∧ bindCheck b (on b) = none ∧
    (∀ k ∈ [(5 : Byte), 6], Ready (on (u k)) (.part 0 0) 0x61 (u k) ∧ unbindCheck (u k) (on (u k)) = none ∧
      circState (on (u k)) 0 k.toNat = circBound ∧ (circOf (on (u k)) 0 k.toNat).all (fun x => x.cmd == none) = true) ∧
    circUse (on (u 5)) 0 5 = 0 ∧ 0 < circUse (on (u 6)) 0 6 := by decide +kernel

theorem witness_SecureAndFabricOpcodesComplete_lending :
    let o := partCmd 0x62 0 ([0, 0, 0, 0] ++ leBytes 4 1)
    let b := partCmd 0x64 0 ([0, 0, 0, 0] ++ leBytes 4 3 ++ leBytes 4 (3 * 2 ^ 14 + 1) ++ leBytes 4 256)
    let w := partCmd 0x63 0 (leBytes 4 9)
    let on := fun (c : Cmd) => withCmds [c] sCirc
    let off : Offer := ⟨0, 9, 0, 262144, 1, [], [], false, none⟩
    let e : Extent := ⟨0, 2, 262144, lotTiles * o.p4 0x14⟩
    Ready (on o) (.part 0 0) 0x62 o ∧ offerCheck o (on o) = none ∧ (on o).offers = [] ∧ quotaOk (on o) (cmdPart o) 2 e.tiles = true ∧
    262144 % lotTiles = 0 ∧ isFree (on o) e = true ∧
    Ready (on b) (.part 0 0) 0x64 b ∧ borrowCheck b (on b) = none ∧ circTo (on b) 0 (b.p4 0x14) = some 5 ∧
    quotaOk (on b) (cmdPart b) 4 (lotTiles * b.p4 0x1C) = true ∧ lotRun (on b) 0 (b.p4 0x1C) = some 0 ∧
    Ready { on w with offers := [off] } (.part 0 0) 0x63 w ∧ withdrawCheck w { on w with offers := [off] } = none ∧
    lenderOffer { on w with offers := [off] } (cmdPart w) (w.p4 0x10) = some off := by decide +kernel

/-! ### The life of a command -/

/-- A run command of client 2 bound to the version, in a phase. -/
def aRun (ph : Phase) : Cmd :=
  { jobCmd with phase := ph, span := [0], pkg := some (5, 1), rows := [(9, 4, 0)], argBlock := zs 4096 }

def sRun (ph : Phase) : State := withCmds [aRun ph] sPkg

/-- The regions' blocks are on and their domains up. -/
def powered (s : State) : State :=
  { s.setReg (Reg.RGN_BLOCK_STATE 0) (BitVec.ofNat 64 0x15555) with pwr :=
      { Power.reset with domains := Power.reset.domains ||| 0x1FF#168 } }

theorem fits_version (s : State) (h : (List.range 9).filter (fun b => blockState s (Fin.ofNat 16 0) b == 3) = []) :
    versionFits s aVersion = true := by
  have e : posOf aVersion 0 = 0 := by decide
  have v : variantFits s (aVersion.records.getD (variantAt aVersion 0) []) 0 0 = true := fits_plain s h
  have t : aVersion.targets = [0] := rfl
  simp only [versionFits, t, List.all, e, v]
  rfl

theorem witness_PlanDispatchStartsThePlans_run :
    let c := aRun .accepted
    let on := powered (sRun .accepted)
    let s1 := prepareRgns c.span on
    Awake on ∧ on.cmd 7 = some c ∧ c.id = 7 ∧ on.fatal = false ∧ on.pwr.hold = false ∧ isRunOp c.opcode = true ∧
    c.phase = .accepted ∧ c.part = some 0 ∧
    (∀ n ∈ c.span, holds on 0 c n = true ∧ n < 16 ∧ (on.rgn (Fin.ofNat 16 n)).plan = none) ∧
    (∀ n ∈ c.span, holds s1 0 c n = true ∧ rgnFree s1 n = true) ∧
    startHeld s1 c = false ∧ boundVersion s1 c = some aVersion ∧ versionFits s1 aVersion = true ∧
    unreadable aVersion (startPlans c aVersion aVersion.targets (markStarted c.id s1)) = [] :=
  ⟨by decide +kernel, by decide +kernel, by decide +kernel, by decide +kernel, by decide +kernel, by decide +kernel,
    by decide +kernel, by decide +kernel, by decide +kernel, by decide +kernel, by decide +kernel, by decide +kernel,
    fits_version _ (by decide +kernel), by decide +kernel⟩

/-- A version whose variant has one route job, which stands in a poisoned line. -/
def jobVersion : Version := { aVersion with placed := [[⟨2, 0xFF, 10000, 1⟩, ⟨4, 1, 10002, 1⟩]] }

theorem witness_PlanDispatchStartsThePlans_bad :
    let c := aRun .accepted
    let s := { (powered (sRun .accepted)).store (nearAddr 0 (4096 * 10002)) [1, 1] with
      poison := [nearAddr 0 (4096 * 10002) / 64] }
    let on := s.modPart 0 fun p => { p with versions := [jobVersion] }
    let s1 := prepareRgns c.span on
    Awake on ∧ on.cmd 7 = some c ∧ on.fatal = false ∧ on.pwr.hold = false ∧
    (∀ n ∈ c.span, holds on 0 c n = true ∧ n < 16 ∧ (on.rgn (Fin.ofNat 16 n)).plan = none) ∧
    (∀ n ∈ c.span, holds s1 0 c n = true ∧ rgnFree s1 n = true) ∧
    startHeld s1 c = false ∧ boundVersion s1 c = some jobVersion ∧ versionFits s1 jobVersion = true ∧
    unreadable jobVersion (startPlans c jobVersion jobVersion.targets (markStarted c.id s1)) ≠ [] := by
  refine ⟨by decide +kernel, by decide +kernel, by decide +kernel, by decide +kernel, by decide +kernel, by decide +kernel,
    by decide +kernel, by decide +kernel, ?_, by decide +kernel⟩
  show versionFits _ { aVersion with placed := _ } = true
  exact fits_version _ (by decide +kernel)

theorem witness_PlanDispatchStartsThePlans_free :
    ∀ op ∈ [0x24, 0x25],
    let f := { partCmd op 0 (leBytes 4 9) with phase := .accepted, span := [0] }
    let t := withCmds [f] sPkg
    Awake t ∧ t.cmd 7 = some f ∧ f.id = 7 ∧ t.fatal = false ∧ t.pwr.hold = false ∧ (f.opcode = 0x24 ∨ f.opcode = 0x25) ∧
    f.phase = .accepted ∧ freeMayStart t f = true := by decide +kernel

theorem witness_CommitOfARunAdvancesItsSession :
    let c := { aRun .running with done := [0] }
    let s := withCmds [c] sPkg
    let q := { c with poisoned := true }
    let r := { q with poisonRerun := true }
    Awake s ∧ s.cmd 7 = some c ∧ c.id = 7 ∧ s.fatal = false ∧ c.phase = .running ∧ isRunOp c.opcode = true ∧ c.part = some 0 ∧
    boundVersion s c = some aVersion ∧ (∀ n ∈ aVersion.targets, n ∈ c.done) ∧ c.rows = [(9, 4, 0)] ∧
    (s.part 0).sessions.find? (fun y => y.handle == 9) = some aSession ∧ c.poisoned = false ∧
    (withCmds [q] sPkg).cmd 7 = some q ∧ q.poisoned = true ∧ q.poisonRerun = false ∧ q.remote = false ∧
    (withCmds [r] sPkg).cmd 7 = some r ∧ r.poisonRerun = true ∧
    (({ c with pkt := packet 0x22 0 1 2 1000 (zs 9 ++ [1]) }.p1 0x19).testBit 0 &&
      { c with pkt := packet 0x22 0 1 2 1000 (zs 9 ++ [1]) }.opcode == 0x22) = true := by decide +kernel

theorem witness_AbortMeetsCommit :
    let a := { newCmd 8 (.part 0 0) (packet 0x31 0 5 2 0 [1, 0]) 0 with phase := .running, waits := [7] }
    let s := withCmds [aRun .running, a] sPkg
    let t := withCmds [aRun .committed, a] sPkg
    Awake s ∧ s.cmd 7 = some (aRun .running) ∧ abortsOf s 7 = [8] ∧ 7 ∉ abortsOf s 7 ∧ (aRun .running).live = true ∧
    Awake t ∧ t.cmd 7 = some (aRun .committed) ∧ abortsOf t 7 = [8] ∧ (aRun .committed).live = false := by decide +kernel

theorem witness_RetireWritesTheRecord :
    let c := aRun .committed
    let s := sRun .committed
    Awake s ∧ s.fatal = false ∧ s.cmd 7 = some c ∧ c.id = 7 ∧ c.phase = .committed ∧ c.ring = .part 0 0 ∧ c.part = some 0 ∧
    mayRetire s c = true ∧ (∀ a ∈ (s.part 0).allocs, a.ext.tier = 3 → a.owner = .alloc ∨ (a.owner == .park 9) = true) ∧
    (∀ x ∈ (s.part 0).sessions, x.trim = false) ∧ (s.part 0).lead = some 0 ∧ rEnabled s (ringRegs (.rgn 0) 2) = true ∧
    rLoc s (ringRegs (.rgn 0) 2) = 1 := by decide +kernel

theorem witness_DeadlinesAndTimesToLive :
    let c := aRun .running
    let s := { sRun .running with now := 1000 }
    let d := { c with missed := true }
    Awake s ∧ s.cmd 7 = some c ∧ c.id = 7 ∧ c.unretired = true ∧ c.deadline ≠ 0 ∧ dueAt c ≤ s.now ∧ c.home < 16 ∧
    c.missed = false ∧ { s with cmds := [d] }.cmd 7 = some d ∧ d.missed = true ∧ d.unretired = true ∧ dueAt d ≤ s.now ∧
    Awake sParked ∧ (sParked.part 0).sessions.find? (fun y => y.handle == 9) = some aParked ∧ aParked.st = .parked ∧
    aParked.ttlFrom.isSome = true ∧ ttlLeft sParked aParked = 0 := by decide +kernel

theorem witness_RelocationMovesOneBlock :
    let u : PageTable := ⟨0, 0, 0, 0, 1, [12000, 12001, 12002], 11000⟩
    Awake sPkg ∧ (sPkg.part 0).sessions.find? (fun y => y.handle == 9) = some aSession ∧ aSession.tables[0]? = some u ∧
    u.pages[1]? = some 12001 ∧ 16 * 1 + 16 ≤ aSession.len ∧ aSession.st = .opened ∧ isFree sPkg ⟨u.rgn, 1, 70000, u.pb⟩ = true ∧
    isFree sPkg ⟨u.rgn, 1, 70001, tableTiles u.pages.length⟩ = true ∧
    overlap ⟨u.rgn, 1, 70000, u.pb⟩ ⟨u.rgn, 1, 70001, tableTiles u.pages.length⟩ = false := by decide +kernel

/-- A package image of one tile, signed, whose one section is the signature block. -/
def signedImage : List Byte :=
  Config.fit 256 ([1, 0x0C, 0x6A, 0x1F, 1, 1, 1, 0] ++ leBytes 8 6 ++ leBytes 4 1 ++ [1] ++ zs 15 ++ leBytes 4 1) ++
    [7, 0xFF, 0xFF, 0] ++ leBytes 4 0 ++ leBytes 4 1 ++ zs 3828

set_option maxRecDepth 100000 in
theorem witness_SignaturesAndVariants_signature :
    let c := { partCmd 0x10 0 (leBytes 8 6 ++ leBytes 4 1 ++ [2]) with phase := .running, work := signedImage }
    let s := withCmds [c] sPkg
    Awake s ∧ s.cmd 7 = some c ∧ c.id = 7 ∧ c.opcode = 0x10 ∧ c.phase = .running ∧ c.work = signedImage ∧ manifestRead c = true ∧
    readTypes c [7] = true ∧ policy s (cmdPart c) signedImage = .wait ∧ sigBlock signedImage = some (sectionBytes signedImage (sectionAt signedImage 0)) ∧
    (tahrQueue s (tqVerify 7)).head? = some (tqVerify 7) :=
  ⟨by decide +kernel, rfl, rfl, by decide +kernel, rfl, rfl, by decide +kernel, by decide +kernel, by decide +kernel,
    by decide +kernel, by decide +kernel⟩

/-- The version before a variant that fits is selected for it: variant 0, which is empty. -/
def oldVersion : Version := { aVersion with variants := [0] }
def sOld (ph : Phase) : State := (sRun ph).modPart 0 fun p => { p with versions := [oldVersion] }

theorem old_misfit (ph : Phase) (s : State) (_ : s = sOld ph) : misfit s oldVersion 0 = true := by
  show (oldVersion.targets.contains 0 && !variantFits s [] 0 0) = true
  rw [misfits_empty]
  decide

theorem witness_SignaturesAndVariants_none :
    let v := { aVersion with records := [[]] }
    let s := (sRun .running).modPart 0 fun p => { p with versions := [v] }
    let c := aRun .running
    Awake s ∧ s.cmd 7 = some c ∧ c.id = 7 ∧ c.part = some 0 ∧ boundVersion s c = some v ∧ c.live = true ∧ misfit s v 0 = true ∧
    selectVariant s v.records (posOf v 0) 0 = none := by decide +kernel

theorem witness_SignaturesAndVariants_running :
    let s := sOld .running
    let c := aRun .running
    Awake s ∧ s.cmd 7 = some c ∧ c.id = 7 ∧ c.part = some 0 ∧ boundVersion s c = some oldVersion ∧ c.live = true ∧
    c.phase = .running ∧ misfit s oldVersion 0 = true ∧
    selectVariant s oldVersion.records (posOf oldVersion 0) 0 = some (1 : Fin 16).val :=
  ⟨by decide +kernel, by decide +kernel, rfl, rfl, by decide +kernel, by decide +kernel, rfl, old_misfit .running _ rfl,
    serves_plain _ (by decide +kernel)⟩

theorem witness_SignaturesAndVariants_waiting :
    let s := sOld .rerun
    let c := aRun .rerun
    Awake s ∧ s.cmd 7 = some c ∧ c.id = 7 ∧ c.part = some 0 ∧ boundVersion s c = some oldVersion ∧ c.live = true ∧
    misfit s oldVersion 0 = true ∧ selectVariant s oldVersion.records (posOf oldVersion 0) 0 = some (1 : Fin 16).val ∧
    (∀ d ∈ liveOf s 0 oldVersion, d.phase ≠ .running) ∧ c.phase ≠ .running ∧
    s.fld (Reg.CTX_FLUSH 0) Reg.CTX_FLUSH_FLUSHING = 0 ∧ reselectPlace 0 oldVersion 1 s = some [] :=
  ⟨by decide +kernel, by decide +kernel, rfl, rfl, by decide +kernel, by decide +kernel, old_misfit .rerun _ rfl,
    serves_plain _ (by decide +kernel), by decide +kernel, by decide +kernel, by decide +kernel, by decide +kernel⟩

/-- The same with a context of variant 1 too large for the context store. -/
def hugeVersion : Version := { oldVersion with placed := [[⟨2, 0xFF, 10000, 1⟩, ⟨1, 1, 10001, 70000⟩]] }

theorem witness_SignaturesAndVariants_noRoom :
    let s := (sRun .rerun).modPart 0 fun p => { p with versions := [hugeVersion] }
    let c := aRun .rerun
    Awake s ∧ s.cmd 7 = some c ∧ c.id = 7 ∧ c.part = some 0 ∧ boundVersion s c = some hugeVersion ∧ c.live = true ∧
    misfit s hugeVersion 0 = true ∧ selectVariant s hugeVersion.records (posOf hugeVersion 0) 0 = some (1 : Fin 16).val ∧
    (∀ d ∈ liveOf s 0 hugeVersion, d.phase ≠ .running) ∧ reselectPlace 0 hugeVersion 1 s = none := by
  refine ⟨by decide +kernel, by decide +kernel, rfl, rfl, by decide +kernel, by decide +kernel, ?_,
    serves_plain _ (by decide +kernel), by decide +kernel, by decide +kernel⟩
  show (hugeVersion.targets.contains 0 && !variantFits _ [] 0 0) = true
  rw [misfits_empty]
  decide

end Sys2Proof.Tests
end

