-- ==== Sys2Proof/Tests/Witness3.lean ====
section
/-!
SUPPORT. For the statements about context slots, synchronization, the sequencer and tile movement: states and operands that meet
the hypotheses.
-/

namespace Sys2Proof.Tests

set_option Elab.async false

open Sys2Proof.Machine

/-! ### Context slots -/

/-- Region 0 with slots in given states, slot 0 active, and a switch order. -/
def sSlots (st : Nat → Nat) (order : Option (Nat × Bool)) : State :=
  (sets ((List.range 4).map fun i => (Reg.CTX_SLOT_STATE 0, slotFld i, st i)) sPart).modRgn 0 fun r =>
    { r with seq := { r.seq with order := order } }

theorem witness_SwitchOrdersAreApplied :
    let f := fun i => if i = 0 then slotActive else if i = 3 then slotDraining else slotEmpty
    let s := sSlots f (some (3, false))
    let h := sSlots f (some (2, false))
    let c := sSlots f (some (3, true))
    Awake s ∧ (s.rgn 0).seq.order = some (3, false) ∧ mayRelease s 0 3 = true ∧ s.activeSlot 0 ≠ 3 ∧
    s.slotState 0 (s.activeSlot 0) = slotActive ∧ Awake h ∧ (h.rgn 0).seq.order = some (2, false) ∧ mayRelease h 0 2 = false ∧
    Awake c ∧ (c.rgn 0).seq.order = some (3, true) ∧ (∀ m ∈ partRgns c 0, mayRelease c m 3 = true) := by decide +kernel

/-- Directory entry 5 of region 0 names an image of one record, at near tile 100. -/
def sImage (st : Nat) (loads : List LoadOrder) : State :=
  let s := (sSlots (fun i => if i = 1 then st else slotEmpty) none).modRgn 0 fun r => { r with seq := { r.seq with loads := loads } }
  (sets [(Reg.CTX_DIR 0 5, Reg.CTX_DIR_VALID, 1), (Reg.CTX_DIR 0 5, Reg.CTX_DIR_TILE_OFF, 100), (Reg.CTX_DIR 0 5, Reg.CTX_DIR_TILES, 1)] s).store
    (nearAddr 0 409600) [1, 0, 0, 0, 1, 0, 1, 0]

theorem witness_LoadsStartCompleteAndExpire :
    let go := fields [(Reg.CTX_LOAD_GO, 1), (Reg.CTX_LOAD_SLOT, 1), (Reg.CTX_LOAD_ENTRY, 5)]
    let s := sImage slotEmpty []
    let b := (sImage slotLoading []).setFld (Reg.CTX_LOAD_WAIT 0) Reg.CTX_LOAD_WAIT_TICKS 0
    let o : LoadOrder := ⟨5, 1, 0, 0, none, false, true⟩
    let w := sImage slotEmpty [o]
    let l := sImage slotLoading [{ o with started := true }]
    let m := l.setFld (Reg.FLT_SRC_SEV (rgnSrc 0 28)) Reg.FLT_SRC_SEV_SEV 0
    let e := sImage slotFlushing [o]
    Awake s ∧ Writes (.eland 0) (Reg.CTX_LOAD 0) go s ∧ Reg.CTX_LOAD_GO.get go = 1 ∧
    s.flag (Reg.CTX_LOAD 0) Reg.CTX_LOAD_PENDING = false ∧ Reg.CTX_LOAD_SLOT.get go = 1 ∧
    (normSlots 0 s).slotState 0 1 = slotEmpty ∧ firstLoad s 0 1 = none ∧
    Awake b ∧ Writes (.eland 0) (Reg.CTX_LOAD 0) go b ∧ b.fld (Reg.CTX_LOAD_WAIT 0) Reg.CTX_LOAD_WAIT_TICKS = 0 ∧
    (normSlots 0 b).slotState 0 1 = slotLoading ∧
    Awake w ∧ firstLoad (normSlots 0 w) 0 1 = some o ∧ w.slotState 0 1 = slotEmpty ∧ imageCheck (normSlots 0 w) 0 5 = true ∧
    { o with started := true }.cmd = none ∧ Awake m ∧ firstLoad m 0 1 = some { o with started := true } ∧
    imagePoisoned m 0 5 = false ∧ m.flag (Reg.CTX_FLUSH 0) (flushingFld 1) = false ∧ Assoc.wf cellDefault m.cells = true ∧
    m.sev (rgnSrc 0 28) = 0 ∧
    Awake l ∧ Awake e ∧ firstLoad l 0 1 = some { o with started := true } ∧ imagePoisoned l 0 5 = false ∧
    l.flag (Reg.CTX_FLUSH 0) (flushingFld 1) = false ∧ Assoc.wf cellDefault l.cells = true ∧
    (e.rgn 0).seq.loads.find? (fun x => x.slot == 1 && !x.started && decide (x.tick + x.bound ≤ e.now) && !loadFree e 0 x) = some o := by
  decide +kernel

theorem witness_SweepsFlushesAndFreezes_sweep :
    let clean := fun (s : State) => s.modRgn 0 fun r => { r with clean := Vector.replicate 4 1 }
    let f := clean ((sSlots (fun i => if i = 1 then slotFlushing else slotEmpty) none).setFld (Reg.CTX_FLUSH 0) (flushingFld 1) 1)
    let d := clean (sSlots (fun i => if i = 1 then slotDraining else slotEmpty) none)
    let x := { d with cells := [(0, { Cell.empty with touched := 2 })] }
    Awake f ∧ notClean f 0 1 = false ∧ 1 ≤ cleanCount f 0 1 ∧ f.flag (Reg.CTX_FLUSH 0) (flushingFld 1) = true ∧
    f.slotState 0 1 = slotFlushing ∧ Awake d ∧ notClean d 0 1 = false ∧ 1 ≤ cleanCount d 0 1 ∧
    d.flag (Reg.CTX_FLUSH 0) (flushingFld 1) = false ∧ d.slotState 0 1 = slotDraining ∧ runningSlot d 0 ≠ some 1 ∧
    slotBridges d 0 1 = 0 ∧ Awake x ∧ notClean x 0 1 = true ∧ x.slotState 0 1 = slotDraining := by decide +kernel

theorem witness_SweepsFlushesAndFreezes_freeze :
    let s := sSlots (fun i => if i = 1 then slotDraining else slotEmpty) none
    let on := fields [(Reg.SCAN_CTRL_FREEZE, 1), (Reg.SCAN_CTRL_BLOCK, 8)]
    let off := fields [(Reg.SCAN_CTRL_BLOCK, 8)]
    let z := (s.modRgn 0 fun r => { r with freezing := 0x100, missed := 0x100 }).setFld (Reg.SCAN_CTRL 0) Reg.SCAN_CTRL_BLOCK 8
    Writes (.eland 0) (Reg.CTX_FLUSH 0) (1#64 <<< 1) s ∧
    Writes (.eland 0) (Reg.SCAN_CTRL 0) on s ∧ Reg.SCAN_CTRL_BLOCK.get on = 8 ∧ Reg.SCAN_CTRL_FREEZE.get on = 1 ∧
    Writes (.eland 0) (Reg.SCAN_CTRL 0) off z ∧ Reg.SCAN_CTRL_BLOCK.get off = 8 ∧ Reg.SCAN_CTRL_FREEZE.get off = 0 ∧
    Assoc.wf cellDefault z.cells = true ∧ (z.rgn 0).missed.getLsbD 8 = true ∧ Awake z ∧ (z.rgn 0).freezing.getLsbD 8 = true ∧
    z.fld (Reg.SCAN_CTRL 0) Reg.SCAN_CTRL_BLOCK = 8 := by decide +kernel

/-! ### Semaphores and barriers -/

/-- Region 0 waits at barrier 5. -/
def sBar (broken : Nat) : State :=
  sets [(Reg.BAR_STATE 5, Reg.BAR_STATE_BROKEN, broken), (Reg.BAR_STATE 5, Reg.BAR_STATE_ARRIVED, 1),
    (Reg.SEQ_STATUS 0, Reg.SEQ_STATUS_RUNNING, 1), (Reg.SEQ_STATUS 0, Reg.SEQ_STATUS_WAIT_KIND, 2),
    (Reg.SEQ_STATUS 0, Reg.SEQ_STATUS_WAIT_OBJ, 5)] sPart

theorem witness_SemaphoresAndBarriersByHand :
    let set := fields [(Reg.SYNC_FORCE_GO, 1), (Reg.SYNC_FORCE_SEM, 255), (Reg.SYNC_FORCE_VALUE, 9)]
    let add := fields [(Reg.SYNC_FORCE_GO, 1), (Reg.SYNC_FORCE_SEM, 255), (Reg.SYNC_FORCE_VALUE, 2 ^ 32 - 1), (Reg.SYNC_FORCE_MODE, 1)]
    let clr := fields [(Reg.BAR_STATE_BROKEN, 1)]
    let rel := fields [(Reg.BAR_STATE_FORCE_RELEASE, 1)]
    Writes (.eland 0) (Reg.SYNC_FORCE 0) set sPart ∧ Reg.SYNC_FORCE_GO.get set = 1 ∧ Reg.SYNC_FORCE_MODE.get set = 0 ∧
    Writes (.eland 0) (Reg.SYNC_FORCE 0) add sPart ∧ Reg.SYNC_FORCE_GO.get add = 1 ∧ Reg.SYNC_FORCE_MODE.get add = 1 ∧
    semValue sPart 0 (Reg.SYNC_FORCE_SEM.get add) + Reg.SYNC_FORCE_VALUE.get add < 2 ^ 32 ∧
    Writes (.eland 0) (Reg.BAR_STATE 5) clr (sBar 1) ∧ Reg.BAR_STATE_BROKEN.get clr = 1 ∧ Reg.BAR_STATE_FORCE_RELEASE.get clr = 0 ∧
    (sBar 1).flag (Reg.BAR_STATE 5) Reg.BAR_STATE_BROKEN = true ∧ Writes (.eland 0) (Reg.BAR_STATE 5) rel (sBar 0) ∧
    Reg.BAR_STATE_FORCE_RELEASE.get rel = 1 ∧ (sBar 0).flag (Reg.BAR_STATE 5) Reg.BAR_STATE_BROKEN = false ∧
    waitsAt (sBar 0) 0 5 = true ∧ Writes (.eland 0) (Reg.BAR_STATE 5) rel (sBar 1) ∧ Reg.BAR_STATE_BROKEN.get rel = 0 := by
  decide +kernel

/-! ### The sequencer -/

/-- Command 7 runs a plan in region 0 whose image lies at near tile 10,000, with one entry, where it stands; the slots hold
contexts, slot 0 active. -/
def sSeq (e : Nat) (ph : SeqPhase) : State :=
  let s := ((withCmds [aRun .running] sPkg).store (nearAddr 0 (40960000 + 2)) [4, 0]).store (nearAddr 0 (40960000 + 0x1000)) (leBytes 32 e)
  (s.setFld (Reg.SEQ_STATUS 0) Reg.SEQ_STATUS_RUNNING 1).modRgn 0 fun r =>
    { r with plan := some 7, seq := { r.seq with cmd := some 7, table := 40960000, phase := ph, idx := [0, 0, 0], waitLimit := 100 } }

set_option maxRecDepth 100000 in
theorem witness_PlansStartAndStop_control :
    let go := fields [(Reg.SEQ_CTRL_GO, 1)]
    let ab := fields [(Reg.SEQ_CTRL_ABORT, 1)]
    let s := sSeq 4 .entry
    let b := { sPkg.setReg (Reg.MOE_JOBS 0) (fields [(Reg.MOE_JOBS_TILE, 7), (Reg.MOE_JOBS_COUNT, 1)]) with
      poison := [nearAddr 0 (4096 * 7) / 64] }
    Writes (.eland 0) (Reg.SEQ_CTRL 0) go s ∧ Reg.SEQ_CTRL_GO.get go = 1 ∧ Reg.SEQ_CTRL_ABORT.get go = 0 ∧ seqRunning s 0 = true ∧
    Writes (.eland 0) (Reg.SEQ_CTRL 0) go sPkg ∧ seqRunning sPkg 0 = false ∧ takenBad sPkg 0 = none ∧
    Writes (.eland 0) (Reg.SEQ_CTRL 0) go b ∧ seqRunning b 0 = false ∧ (takenBad b 0).isSome = true ∧ (b.rgn 0).plan = none ∧
    b.chipStage = 2 ∧ Writes (.eland 0) (Reg.SEQ_CTRL 0) ab s ∧ Reg.SEQ_CTRL_GO.get ab = 0 ∧ Reg.SEQ_CTRL_ABORT.get ab = 1 ∧
    (s.rgn 0).seq.cmd = some 7 ∧ (s.rgn 0).plan = some 7 ∧ s.cmd 7 = some (aRun .running) ∧ (aRun .running).id = 7 ∧
    (aRun .running).live = true ∧ Awake s ∧ fetchBad s 0 .entries = false ∧ s.chipStage = 2 := by decide +kernel

theorem witness_PlansStartAndStop_end :
    let h := sSeq 4 .halted
    let w := { (sSeq 4 .start).modRgn 0 fun r => { r with seq := { r.seq with waitFrom := some 0 } } with now := 99 }
    let w1 := w.setFld (Reg.SEQ_STATUS 0) Reg.SEQ_STATUS_WAIT_KIND 1
    let w2 := { w with now := 100 }
    let j := partCmd 0x31 0 [9, 0]
    let s := withCmds [j] sPkg
    let d := { aRun .running with id := 8, pkt := packet 0x30 0 9 2 1000 [] }
    let t := withCmds [d, j] sPkg
    Awake h ∧ seqRunning h 0 = true ∧ (h.rgn 0).seq.phase = .halted ∧ (h.rgn 0).seq.cmd = some 7 ∧ h.cmd 7 = some (aRun .running) ∧
    (h.rgn 0).descs = [] ∧ (h.rgn 0).port.asks = [] ∧ (h.rgn 0).seq.signals = [] ∧ (h.rgn 0).seq.loads = [] ∧
    w2.fld (Reg.SEQ_STATUS 0) Reg.SEQ_STATUS_WAIT_KIND = 0 ∧
    { w2.setFld (Reg.SEQ_STATUS 0) Reg.SEQ_STATUS_WAIT_KIND 2 with now := 100 }.fld (Reg.SEQ_STATUS 0) Reg.SEQ_STATUS_WAIT_KIND = 2 ∧
    Awake w1 ∧ (w1.rgn 0).seq.waitFrom = some 0 ∧ w1.now < 0 + (w1.rgn 0).seq.waitLimit ∧
    w1.fld (Reg.SEQ_STATUS 0) Reg.SEQ_STATUS_WAIT_KIND = 1 ∧ Awake w2 ∧ 0 + (w2.rgn 0).seq.waitLimit ≤ w2.now ∧
    Ready s (.part 0 0) 0x31 j ∧ abortCheck j s = none ∧ abortTarget s j = none ∧
    Ready t (.part 0 0) 0x31 j ∧ abortCheck j t = none ∧ abortTarget t j = some d ∧ abortable d.opcode = true := by decide +kernel

/-- The plan stands at the last entry of the table. -/
def atLast (e : Nat) : State :=
  ((((sSeq 4 .entry).store (nearAddr 0 (40960000 + 2)) [0, 64]).store (nearAddr 0 (40960000 + 0x1000 + 32 * 16383)) (leBytes 32 e)).setFld
    (Reg.SEQ_STATUS 0) Reg.SEQ_STATUS_PC 16383)

theorem witness_JumpsCountTheirPasses :
    let s := sSeq (3 + 2 ^ 32 * 5) .entry
    let t := sSeq (3 + 2 ^ 32 * 1) .entry
    let a := sSeq (3 + 64 + 2 ^ 18 * 7) .entry
    let past := atLast (3 + 2 ^ 32 * 1)
    let go := fields [(Reg.SEQ_CTRL_GO, 1)]
    Awake s ∧ atEntry s 0 = true ∧ entryFault s 0 = none ∧ eType (seqEntry s 0) = 3 ∧ jAlways (seqEntry s 0) = false ∧
    Awake t ∧ atEntry t 0 = true ∧ entryFault t 0 = none ∧ jCount (seqEntry t 0) = 1 ∧
    Awake a ∧ atEntry a 0 = true ∧ entryFault a 0 = none ∧ jAlways (seqEntry a 0) = true ∧
    atEntry past 0 = true ∧ entryFault past 0 = none ∧ jCount (seqEntry past 0) = 1 ∧ seqPc past 0 = 16383 ∧
    Writes (.eland 0) (Reg.SEQ_CTRL 0) go sPkg ∧ Reg.SEQ_CTRL_GO.get go = 1 ∧ Reg.SEQ_CTRL_ABORT.get go = 0 ∧
    seqRunning sPkg 0 = false ∧ takenBad sPkg 0 = none := by decide +kernel

set_option maxRecDepth 100000 in
theorem witness_EntriesRun_entry :
    let l := sSeq (2 + 16 * 1 + 64 * 5 + 2 ^ 12 + 2 ^ 32 * 9) .entry
    let h := sSeq 4 .entry
    let r := sSeq (1 + 16 * 1) .entry
    let a := sSeq 1 .entry
    let a' := a.setFld (Reg.CTX_SLOT_STATE 0) (slotFld 0) slotActive
    let b := sSeq 15 .entry
    Awake l ∧ atEntry l 0 = true ∧ entryFault l 0 = none ∧ eType (seqEntry l 0) = 2 ∧
    atEntry h 0 = true ∧ entryFault h 0 = none ∧ eType (seqEntry h 0) = 4 ∧
    atEntry r 0 = true ∧ entryFault r 0 = none ∧ eType (seqEntry r 0) = 1 ∧ (r.rgn 0).seq.order = none ∧
    r.activeSlot 0 ≠ eSlot (seqEntry r 0) ∧ atEntry a 0 = true ∧ entryFault a 0 = none ∧ (a.rgn 0).seq.order = none ∧
    a.activeSlot 0 = eSlot (seqEntry a 0) ∧ isActive a 0 (eSlot (seqEntry a 0)) = false ∧ isActive a' 0 (eSlot (seqEntry a' 0)) = true ∧
    atEntry a' 0 = true ∧ entryFault a' 0 = none ∧ (a'.rgn 0).seq.order = none ∧ a'.activeSlot 0 = eSlot (seqEntry a' 0) ∧
    startActs (seqEntry a 0) = [.issue 0 0] ∧ atEntry b 0 = true ∧ entryFault b 0 = some 0xFF ∧ (b.rgn 0).seq.cmd = some 7 ∧
    b.cmd 7 = some (aRun .running) ∧ (aRun .running).live = true ∧ b.chipStage = 2 := by decide +kernel

/-- A RUN entry over one dimension of three fixed tiles, and one over shape register 0, which holds 0. -/
def loopEntry : Nat := 1 + 2 ^ 8 * 1 + 2 ^ 128 * (15 + 2 ^ 16 * 2)
def emptyEntry : Nat := 1 + 2 ^ 8 * 1 + 2 ^ 128 * (0 + 2 ^ 16 * 2)

theorem witness_EntriesRun_iteration :
    let s := sSeq loopEntry .iterate
    let z := sSeq emptyEntry .iterate
    Awake z ∧ z.pwr.hold = false ∧ seqRunning z 0 = true ∧ (z.rgn 0).seq.phase = .iterate ∧
    entryIters (seqEntry z 0) (z.rgn 0).seq.shapes = 0 ∧ (eS0 (seqEntry z 0)).n = 0 ∧ (eS1 (seqEntry z 0)).n = 0 ∧
    (z.rgn 0).seq.signals = [] ∧ eBrEn (seqEntry z 0) = false ∧ eBrEn (seqEntry (sSeq (emptyEntry + 2 ^ 11) .iterate) 0) = true ∧
    Awake s ∧ entryIters (seqEntry s 0) (s.rgn 0).seq.shapes ≠ 0 ∧
    (seqActs 0 (seqEntry s 0) ((iterActs (seqEntry s 0) (s.rgn 0).seq.shapes (s.rgn 0).seq.idx).drop (s.rgn 0).seq.took) s).2 = true ∧
    nextIdx (seqEntry s 0) (s.rgn 0).seq.shapes (s.rgn 0).seq.idx = some [0, 0, 1] := by decide +kernel

def aToken (sig : Bool) : Flit := ⟨3, 0, false, false, sig, 16, 0, false, none⟩

theorem witness_SummariesAndBranches :
    let tok := fun (f : Flit) (q : List Flit) => { ((sSeq 1 .iterate).setReg (Reg.RGN_BLOCK_STATE 0) 1).modRgn 0 fun r => { r with seq := { r.seq with
      summary := q, running := [(0, true, 9)] } } with cells := [(0, { Cell.empty with sout := Cell.empty.sout.set 4 (some f) })] }
    let s := tok (aToken true) []
    let full := tok (aToken false) (List.replicate 16 (aToken false))
    let br := fun (q : List Flit) => (sSeq (1 + 2 ^ 11 + 2 ^ 14) .branch).modRgn 0 fun r => { r with seq := { r.seq with summary := q } }
    let an := (sSeq (1 + 2 ^ 11 + 2 ^ 14) .answer)
    Awake s ∧ (s.cell 0 0).sout[4] = some (aToken true) ∧ (s.rgn 0).seq.summary.length < 16 ∧
    blockState s 0 0 = 1 ∧ (s.rgn 0).frozen.getLsbD 0 = false ∧ semValue s 0 9 < 2 ^ 32 - 1 ∧
    (s.rgn 0).seq.running.find? (fun y => y.1 == (aToken true).slot.val) = some (0, true, 9) ∧
    Awake full ∧ (full.cell 0 0).sout[4] = some (aToken false) ∧ 16 ≤ (full.rgn 0).seq.summary.length ∧
    Awake (br []) ∧ seqRunning (br []) 0 = true ∧ ((br []).rgn 0).seq.phase = .branch ∧
    stillOut (br []) 0 ((br []).rgn 0).seq.issued = [] ∧ takeSummary (eSlot (seqEntry (br []) 0)) [] = none ∧
    takeSummary (eSlot (seqEntry (br [aToken false]) 0)) [aToken false] = some (aToken false, []) ∧
    Awake an ∧ seqRunning an 0 = true ∧ (an.rgn 0).seq.phase = .answer ∧ fetchBad an 0 .branchRows = false ∧
    eBrPtr (seqEntry an 0) + eBrN (seqEntry an 0) < 16384 ∧
    (∀ i, i ≤ eBrN (seqEntry an 0) → ebits (planBranch an 0 (an.rgn 0).seq.table (eBrPtr (seqEntry an 0) + i)) 46 18 = 0) := by
  decide +kernel

end Sys2Proof.Tests
end

