-- ==== Sys2Proof/Tests/Witness4.lean ====
section
/-!
SUPPORT. For the statements about the tile mover, the tiers and the fold channel: states and operands that meet the hypotheses.
-/

namespace Sys2Proof.Tests

set_option Elab.async false

open Sys2Proof.Machine

/-! ### The tile mover -/

/-- A window word of the near tier of region 0 on chip 0, for partition 0, 100 tiles long. -/
def nearWin (valid : Nat) : Word := fields [(Reg.TM_WIN_HI_TIER, 1), (Reg.TM_WIN_HI_VALID, valid), (Reg.TM_WIN_HI_LIMIT, 100)]

/-- The bytes of a one-tile descriptor of a kind: fragment range whole, tile 3 of window 0 and of window 1, both near; its
signal, if any, adds 2 to semaphore 5 of region 0. -/
def descBytes (kind sig : Nat) : List Byte :=
  leBytes 32 (kind + 2 ^ 4 * 1 + 2 ^ 16 * 2 + 2 ^ 32 * 3 + 2 ^ 192 * 1 + 2 ^ 209 * sig + 2 ^ 210 * 2 + 2 ^ 218 * 5 + 2 ^ 226 * 1 +
    2 ^ 230 * 1)

def aDesc (kind sig : Nat) : Desc := ⟨4, 0, descBytes kind sig, some 7, 0, [0, 0, 0], [], 0, 0, 0, [], [], []⟩

/-- Region 0 runs command 7's plan with one descriptor in progress. -/
def sMove (x : Desc) (valid : Nat) : State :=
  (sRun .running).modRgn 0 fun r => { r with descs := [x], plan := some 7, seq := { r.seq with
    cmd := some 7, wins := [((fields [(Reg.TM_WIN_LO_BASE, 20000)] : Word), nearWin valid), ((fields [(Reg.TM_WIN_LO_BASE, 30000)] : Word), nearWin 1)] } }

theorem witness_TileMoverIssuesRequests_read :
    let x := aDesc 1 0
    let s := sMove x 1
    Awake s ∧ inProgress s 0 4 = some x ∧ s.pwr.hold = false ∧ signalBad s 0 x = false ∧ x.kind = 1 ∧ x.next < x.count ∧
    placeOf s 0 x false x.next = .here 1 20003 ∧ noneIn (tileMask x x.next) = false ∧ atLimit s 0 (tileCtl 1 20003) = false ∧
    (∀ b ∈ x.blockList, blockFenced s 0 b = false) ∧ x.blockList = [0] := by decide +kernel

theorem witness_TileMoverIssuesRequests_bad :
    let x := aDesc 1 0
    let s := sMove x 0
    Awake s ∧ inProgress s 0 4 = some x ∧ s.pwr.hold = false ∧ signalBad s 0 x = false ∧ x.kind = 1 ∧ x.next < x.count ∧
    placeOf s 0 x false x.next = .bad 3 ST_INTERNAL 81932288 ∧ x.cmd = some 7 ∧ s.cmd 7 = some (aRun .running) ∧
    (aRun .running).live = true ∧ s.chipStage = 2 := by decide +kernel

/-- A WRITE whose 256 flits have all arrived. -/
def collectedDesc : Desc := { aDesc 2 0 with got := (List.range 256).map fun i => (i, BitVec.ofNat 128 (i + 1)) }

theorem witness_TileMoverIssuesRequests_collected : ∃ b, collected collectedDesc 0 = some b :=
  Option.isSome_iff_exists.mp (by decide +kernel)

theorem witness_TileMoverIssuesRequests_write :
    let x := collectedDesc
    let s := sMove x 1
    Awake s ∧ inProgress s 0 4 = some x ∧ s.pwr.hold = false ∧ signalBad s 0 x = false ∧ x.kind = 2 ∧ x.next = 0 ∧ x.count = 1 ∧
    placeOf s 0 x false x.next = .here 1 20003 ∧ noneIn (tileMask x x.next) = false ∧ atLimit s 0 (tileCtl 1 20003) = false := by decide +kernel

theorem witness_TileMoverIssuesRequests_copy :
    let x := aDesc 3 0
    let y := { x with buf := [(0, [7])] }
    let s := sMove x 1
    let t := sMove y 1
    Awake s ∧ inProgress s 0 4 = some x ∧ signalBad s 0 x = false ∧ x.kind = 3 ∧ (∀ b ∈ x.buf, b.1 ≠ x.wrote) ∧ x.next < x.count ∧
    placeOf s 0 x false x.next = .here 1 20003 ∧ atLimit s 0 (tileCtl 1 20003) = false ∧ s.pwr.hold = false ∧
    Awake t ∧ inProgress t 0 4 = some y ∧ signalBad t 0 y = false ∧ y.buf.find? (fun b => b.1 == y.wrote) = some (0, [7]) ∧
    placeOf t 0 y true y.wrote = .here 1 30003 ∧ atLimit t 0 (tileCtl 1 30003) = false := by decide +kernel

/-- Region 0 with one request at its near controller. -/
def aReq (x : Desc) (write killed : Bool) (data : List Byte) : Req := ⟨9, some x.id, some 7, 1, 81932288, 0, write, data, 0, some 0, none, killed, none, none⟩
def sReq (x : Desc) (q : Req) : State := (sMove x 1).modRgn 0 fun r => { r with reqs := [q] }

theorem witness_TierAnswersAndTimeouts_read :
    let x := aDesc 1 0
    let q := aReq x false false []
    let k := aReq x false true []
    let s := sReq x q
    let z := sReq x k
    Awake s ∧ (s.rgn 0).reqs.find? (fun y => y.id == 9) = some q ∧ q.remote = none ∧ q.tier = 1 ∧ q.killed = false ∧ q.write = false ∧
    isOldest s 0 q = true ∧ isOldest z 0 k = true ∧ q.desc = some 4 ∧ (∀ i, i < 64 → tileAddr 0 q.tier (q.addr / 4096) / 64 + i ∉ s.poison) ∧ x ∈ (s.rgn 0).descs ∧
    Awake z ∧ (z.rgn 0).reqs.find? (fun y => y.id == 9) = some k ∧ k.remote = none ∧ k.killed = true := by decide +kernel

theorem byteMask_layout2 {x : Desc} (h : x.layout = 2) (j : Nat) : byteMask x j = 0xFF := by
  simp [byteMask, bitIn, h, List.range, List.range.loop]

theorem witness_TierAnswersAndTimeouts_mask (s : State) (q : Req) (x : Desc) (hd : reqDesc s 0 q = some x) (hk : x.kind = 2)
    (hl : x.layout = 2) : allIn (reqMask s 0 q) = true ∧ (reqMask s 0 q).length = 4096 := by
  have h : reqMask s 0 q = tileMask x q.tile := by
    unfold reqMask
    rw [hd]
    exact if_neg (by omega)
  rw [h]
  unfold tileMask
  refine ⟨List.all_eq_true.mpr fun b hb => ?_, by rw [List.length_map, List.length_range]⟩
  obtain ⟨j, -, rfl⟩ := List.mem_map.mp hb
  rw [byteMask_layout2 hl]
  rfl

theorem witness_TierAnswersAndTimeouts_write :
    let x := aDesc 2 0
    let q := aReq x true false (zs 4096)
    let s := sReq x q
    Awake s ∧ (s.rgn 0).reqs.find? (fun y => y.id == 9) = some q ∧ q.remote = none ∧ q.tier = 1 ∧ q.killed = false ∧
    isOldest s 0 q = true ∧ q.write = true ∧ q.desc = some 4 ∧ q.data.length = 4096 ∧ reqDesc s 0 q = some x ∧ x.kind = 2 ∧ x.layout = 2 := by
  refine ⟨by decide +kernel, ?_, rfl, rfl, rfl, ?_, rfl, rfl, List.length_replicate .., ?_, by decide +kernel, by decide +kernel⟩
  · rfl
  · exact beq_iff_eq.mpr (by rfl)
  · rfl

theorem witness_TierAnswersAndTimeouts_timeout :
    let x := aDesc 1 0
    let q := aReq x false false []
    let s := { sReq x q with now := 10 ^ 9 }
    Awake s ∧ (s.rgn 0).reqs.find? (fun y => y.id == 9) = some q ∧ q.killed = false ∧ q.remote = none ∧
    q.tick + tierTimeout s 0 q.tier ≤ s.now ∧ q.desc ≠ none ∧ q.cmd = some 7 ∧ s.cmd 7 = some (aRun .running) ∧ (aRun .running).live = true ∧
    s.chipStage = 2 := by decide +kernel

theorem witness_TierAnswersAndTimeouts_complete :
    let x := { aDesc 3 0 with acked := 1 }
    let y := { aDesc 3 1 with acked := 1 }
    let s := sMove x 1
    let t := sMove y 1
    Awake s ∧ inProgress s 0 4 = some x ∧ descDone s 0 x = true ∧ remoteCircuit s 0 x = none ∧ (s.rgn 0).seq.signals = [] ∧
    x.sigEn = false ∧ Awake t ∧ inProgress t 0 4 = some y ∧ descDone t 0 y = true ∧ remoteCircuit t 0 y = none ∧
    (t.rgn 0).seq.signals = [] ∧ y.sigEn = true ∧ semValue t y.sigRgn y.sigSem + y.sigN < 2 ^ 32 := by decide +kernel

theorem witness_TierAnswersAndTimeouts_scrub :
    let s := sets [(Reg.NEAR_SCRUB 0, Reg.NEAR_SCRUB_ENABLE, 1), (Reg.HERD_SCRUB 0, Reg.NEAR_SCRUB_ENABLE, 1)] sPart
    Awake s ∧ s.flag (Reg.NEAR_SCRUB 0) Reg.NEAR_SCRUB_ENABLE = true ∧ 402653183 < 64 * tierCap s 0 1 ∧ 402653183 + 1 = 64 * tierCap s 0 1 ∧ s.poison = [] ∧
    s.flag (Reg.HERD_SCRUB 0) Reg.NEAR_SCRUB_ENABLE = true ∧ 0 < 64 * tierCap s 0 2 ∧ s.chipStage = 2 := by decide +kernel

/-! ### The fold channel -/

/-- A channel of one target, one LUN, two planes, 201 blocks of 100 pages, 8,192 units, ready, with a buffer of 16 units. -/
def sFold (f : Fold → Fold) : State :=
  let s := sets [(Reg.FOLD_GEOM 0, Reg.FOLD_GEOM_TARGETS, 1), (Reg.FOLD_GEOM 0, Reg.FOLD_GEOM_BLOCKS, 200),
    (Reg.FOLD_GEOM 0, Reg.FOLD_GEOM_PAGES, 99), (Reg.FOLD_CAP 0, Reg.FOLD_CAP_UNITS, 8192),
    (Reg.FOLD_STATUS 0, Reg.FOLD_STATUS_READY, 1), (Reg.FOLD_STATUS 0, Reg.FOLD_STATUS_WBUF_UNITS, 16)] (sRun .running)
  s.modRgn 0 fun r => { r with fold := f r.fold }

/-- A request at the fold controller for tile 6. -/
def foldReq (write killed : Bool) (data : List Byte) : Req :=
  ⟨9, some 4, some 7, 3, 24576, 0, write, data, 0, some 0, none, killed, if write then none else some 1, none⟩
def sFoldReq (q : Req) (x : Desc) (f : Fold → Fold) : State := (sFold f).modRgn 0 fun r => { r with reqs := [q], descs := [x] }

theorem witness_FoldWritesProgramsAndReads_write :
    let q := foldReq true false (zs 4096)
    let h := sFoldReq q (aDesc 2 0) fun f => { f with hold := true }
    let s := sFoldReq q (aDesc 2 0) id
    Awake h ∧ (h.rgn 0).reqs.find? (fun y => y.id == 9) = some q ∧ q.tier = 3 ∧ q.write = true ∧ q.remote = none ∧
    q.killed = false ∧ (h.rgn 0).fold.hold = true ∧ 9 ∉ (h.rgn 0).fold.held ∧
    Awake s ∧ (s.rgn 0).reqs.find? (fun y => y.id == 9) = some q ∧ (s.rgn 0).fold.hold = false ∧
    s.flag (Reg.FOLD_STATUS 0) Reg.FOLD_STATUS_READ_ONLY = false ∧ (s.rgn 0).fold.wbuf.length < wbufLimit s 0 ∧
    pageFree s 0 5 = true ∧ q.desc ≠ none ∧ q.addr / 4096 < tierCap s 0 3 ∧ q.data.length = 4096 ∧ s.fld (Reg.FOLD_SEQ 0) Reg.FOLD_SEQ_ACKED + 1 < 2 ^ 32 := by
  refine ⟨by decide +kernel, rfl, rfl, rfl, rfl, rfl, rfl, by decide +kernel, by decide +kernel, rfl, rfl, by decide +kernel,
    by decide +kernel, by decide +kernel, by decide, by decide +kernel, List.length_replicate .., by decide +kernel⟩

/-- A write of unit 1 at page 5, whose program LUN 0 performs. -/
def aWrite : FoldWrite := ⟨1, 3, none, [], 5, false⟩

theorem witness_FoldWritesProgramsAndReads_program :
    let x : FoldUnit := ⟨1, 5, 4, 0, 3⟩
    let on := fun (spent : List Nat) => sFold fun f => { f with wbuf := [aWrite], units := [x], spent := spent, luns := [(0, .program 3)] }
    let s := on [5]
    let d := on [1, 3, 5]
    Awake s ∧ programOf s 0 1 = some aWrite ∧ (∃ p ∈ wordline s 0 aWrite.phys, p ≠ aWrite.phys ∧ pageDone s 0 p = false) ∧
    Awake d ∧ programOf d 0 1 = some aWrite ∧ aWrite.phys ∈ (d.rgn 0).fold.spent ∧
    (∀ y ∈ (d.rgn 0).fold.wbuf, y ≠ aWrite → y.phys ≠ aWrite.phys) ∧
    (∀ p ∈ wordline d 0 aWrite.phys, p ≠ aWrite.phys → pageDone d 0 p = true) ∧
    pageFree s 0 206 = true ∧ physBlock s 0 206 ≠ physBlock s 0 aWrite.phys ∧ unitOf (s.rgn 0).fold 1 = some x ∧ x.mask ≠ 0 ∧
    x.seq = aWrite.seq := by decide +kernel

theorem witness_FoldWritesProgramsAndReads_erase :
    let s := sFold id
    Awake s ∧ s.chipStage = 2 ∧ 200 < foldTotal s 0 ∧ (blockOf s 0 200).st < 4 ∧ unitsIn s 0 200 = [] ∧
    readInFlight s 0 200 = false ∧ oldPageIn s 0 200 = false ∧ lunIdle s 0 200 = true := by decide +kernel

theorem witness_FoldWritesProgramsAndReads_read :
    let q := foldReq false false []
    let u : FoldUnit := ⟨1, 5, 4, 0, 3⟩
    let s := sFoldReq q (aDesc 1 0) fun f => { f with units := [u], luns := [(0, .read 9)] }
    let r := sFold fun f => { f with units := [u] }
    let z := sFoldReq q (aDesc 1 0) id
    Awake s ∧ (s.rgn 0).reqs.find? (fun y => y.id == 9) = some q ∧ q.tier = 3 ∧ q.write = false ∧ q.remote = none ∧ q.killed = false ∧
    unitOf (s.rgn 0).fold (q.addr / 4096 / 4) = some u ∧ u.mask.getLsbD (q.addr / 4096 % 4) = true ∧
    u.poison.getLsbD (q.addr / 4096 % 4) = false ∧ q.desc = some 4 ∧ aDesc 1 0 ∈ (s.rgn 0).descs ∧ q.cmd = some 7 ∧
    s.cmd 7 = some (aRun .running) ∧ (aRun .running).live = true ∧ s.chipStage = 2 ∧ unitOf (z.rgn 0).fold (q.addr / 4096 / 4) = none ∧
    lunOp s 0 (lunOf s 0 (q.blk.getD (physBlock s 0 u.phys))) = some (.read 9) ∧ q.desc ≠ none ∧
    Awake r ∧ unitsIn r 0 (physBlock r 0 5) ≠ [] ∧ (blockOf r 0 (physBlock r 0 5)).scrub ≠ scrubPeriod r 0 ∧
    lunIdle r 0 (physBlock r 0 5) = true ∧ refreshWaits r 0 (physBlock r 0 5) = false := by decide +kernel

/-- Block 1 holds the unit at page 1 and is queued for refresh, or full, and is the least worn; block 2 is the most worn. -/
def sBlocks (st : Nat) : State :=
  (sFold fun f => { f with units := [⟨1, 5, 4, 0, 3⟩], refresh := [1], blocks := [⟨1, 0, 0, 0, st, 0, 0, false, 0⟩, ⟨2, 5000, 0, 0, 0, 0, 0, false, 0⟩] }).setFld
    (Reg.FOLD_LIMITS 0) Reg.FOLD_LIMITS_WL_DELTA 1000

/-- The same with no block queued for refresh. -/
def noRefresh (s : State) : State := s.modRgn 0 fun r => { r with fold := { r.fold with refresh := [] } }

theorem witness_FoldUpkeepKeepsData_relocate :
    let s := sBlocks 2
    let free := [400]
    let phys := (List.range (unitsIn s 0 1).length).map (blockPage s 0 2)
    Awake s ∧ ((s.rgn 0).fold.units.map FoldUnit.unit).Nodup ∧ (∀ u ∈ (s.rgn 0).fold.units, u.mask ≠ 0) ∧ lunIdle s 0 1 = true ∧
    1 ∈ (s.rgn 0).fold.refresh ∧ pagesOk pageFree s 0 1 free = true ∧
    Awake (noRefresh s) ∧ refreshWaits (noRefresh s) 0 1 = false ∧ lunIdle (noRefresh s) 0 1 = true ∧
    (blockOf (noRefresh s) 0 1).st = 2 ∧ pagesOk pageFree (noRefresh s) 0 1 free = true ∧
    pagesOk pageEmpty (noRefresh s) 0 1 phys = true ∧ unitsIn (noRefresh s) 0 1 ≠ [] ∧ (blockOf (noRefresh s) 0 2).st = 0 ∧
    (blockOf (noRefresh s) 0 1).pe + (noRefresh s).fld (Reg.FOLD_LIMITS 0) Reg.FOLD_LIMITS_WL_DELTA < maxPe ((noRefresh s).rgn 0).fold ∧
    (∀ b ∈ ((noRefresh s).rgn 0).fold.blocks, (unitsIn (noRefresh s) 0 b.blk ≠ [] → (blockOf (noRefresh s) 0 1).pe ≤ b.pe) ∧
      (b.st = 0 → b.pe ≤ (blockOf (noRefresh s) 0 2).pe)) := by
  decide +kernel

/-- Below 3 % of free blocks, with garbage collection next on the LUN of block 1. -/
theorem witness_FoldUpkeepKeepsData_scarce :
    let f := fun (b : Nat) => (⟨b, 0, 0, 0, 2, 0, 0, false, 0⟩ : FoldBlock)
    let s := sFold fun x => { x with units := [⟨1, 5, 4, 0, 3⟩], refresh := [7], slots := [(0, 3)], blocks := (List.range 199).map f }
    Awake s ∧ (blockOf s 0 1).st = 2 ∧ lunIdle s 0 1 = true ∧ refreshWaits s 0 1 = true ∧ collectsNext s 0 (lunOf s 0 1) = true ∧
    pagesOk pageFree s 0 1 [20000] = true := by decide +kernel

theorem witness_FoldUpkeepKeepsData_flush :
    let s := sFold fun f => { f with journal := 67108864 }
    let t := { sFold id with now := 60000000000 }
    let u := (sFold id).setFld (Reg.FOLD_STATUS 0) Reg.FOLD_STATUS_FLUSHING 1
    let r := sets [(Reg.FOLD_STATUS 0, Reg.FOLD_STATUS_READY, 0), (Reg.FOLD_STATUS 0, Reg.FOLD_STATUS_UNFORMATTED, 0)] (sFold id)
    Awake s ∧ 67108864 ≤ (s.rgn 0).fold.journal ∧ Awake t ∧ (t.rgn 0).fold.lastCkpt + 60000000000 ≤ t.now ∧
    Awake u ∧ u.flag (Reg.FOLD_STATUS 0) Reg.FOLD_STATUS_FLUSHING = true ∧ u.boot.pendingWarm = false ∧ u.chipStage = 2 ∧
    srcOff u (rgnSrc 0 36) = false ∧
    Awake r ∧ 3 ≤ r.stage 0 ∧ r.flag (Reg.FOLD_STATUS 0) Reg.FOLD_STATUS_UNFORMATTED = false ∧ foldTargets r 0 ≠ 0 ∧
    r.flag (Reg.FOLD_STATUS 0) Reg.FOLD_STATUS_READY = false ∧ (r.rgn 0).fold.lastSeq < 2 ^ 32 ∧
    ((r.rgn 0).fold.units.map FoldUnit.unit).Nodup := by decide +kernel

theorem witness_FoldUpkeepKeepsData_mailbox :
    let v := fun (op : Nat) => fields [(Reg.FOLD_MBX_CMD_OP, op), (Reg.FOLD_MBX_CMD_GO, 1)]
    let s := fun (op : Nat) (r : Bool) => sFold fun f => { f with mbxOp := some (op, 0, r) }
    let clean : State := (s 3 false).modPart 0 fun p => { p with allocs := [] }
    (∀ i ∈ [1, 2, 3, 4], Writes (.eland 0) (Reg.FOLD_MBX_CMD 0) (v i) sPart ∧ Reg.FOLD_MBX_CMD_GO.get (v i) = 1 ∧
      Reg.FOLD_MBX_CMD_OP.get (v i) = i ∧ Awake (s i true) ∧ (s i true).chipStage = 2 ∧
      ((s i false).rgn 0).fold.mbxOp = some (i, 0, false) ∧ ((s i true).rgn 0).fold.mbxOp = some (i, 0, true)) ∧
    argOk (s 1 false) 0 0 = true ∧ foldUsage clean 0 = 0 ∧ foldTotal clean 0 ≠ 0 ∧ (clean.rgn 0).fold.mbxOp = some (3, 0, false) ∧
    ((s 4 false).rgn 0).fold.badList.length ≤ Reg.FOLD_MBX_ARG_BLOCK.get (0 : Word) := by decide +kernel

end Sys2Proof.Tests
end

