-- ==== Sys2Proof/Tests/Witness5.lean ====
section
/-!
SUPPORT. For the statements about the cells, the array's monitors and the experts: states and operands that meet the hypotheses.
-/

namespace Sys2Proof.Tests

set_option Elab.async false

open Sys2Proof.Machine

/-! ### The cells -/

/-- A slot configuration: vector inputs 0 and 8 and the scalar local input go to the local output, and steering takes A at `a` and B at
input 1, with the local output as alternate set 0 and as merge output. -/
def aConfig (a : Nat) : List Byte :=
  zs 4 ++ leBytes 4 0x100 ++ zs 28 ++ leBytes 4 0x100 ++ zs 8 ++ [16, 0] ++ zs 46 ++ leBytes 16 (a + 2 ^ 4 + 2 ^ 11 + 2 ^ 12 * 0x100 + 2 ^ 24 * 0x100) ++ zs 16

/-- A micro-op of an operation, a format and 8 elements or one, from registers 0 and 1 to register 2. -/
def aUop (op fmt cnt aux : Nat) : BitVec 64 :=
  BitVec.ofNat 64 (2 ^ 58 * op + 2 ^ 54 * fmt + 2 ^ 42 * (cnt - 1) + 2 ^ 26 * 1 + 2 ^ 18 * 2 + aux)

/-- A cell whose slot 0 has a program of one micro-op. -/
def aCell (u : BitVec 64) : Cell :=
  { Cell.empty with slots := Cell.empty.slots.set 0 { SlotSt.empty with loaded := true, config := aConfig 0, prog := [u] } }

/-- Region 0 with every block active, slot 0 active, and some cells. -/
def sCells (l : List (Nat × Cell)) : State :=
  { ((sRun .running).setReg (Reg.RGN_BLOCK_STATE 0) (BitVec.ofNat 64 0x15555)).setFld (Reg.CTX_SLOT_STATE 0) (slotFld 0) slotActive with
    cells := l }

def aFlit : Flit := ⟨5, 0, false, false, false, 16, 0, false, none⟩

theorem witness_SteeredFlitsLeaveByTheirSet_pair :
    let c := fun (op i : Nat) => { (aCell 0).setQueue .vector i [aFlit] with pair := some (BitVec.ofNat 16 (4 * op)) }
    ∀ i ∈ [(0, 0), (1, 0), (2, 0), (3, 0), (4, 1)],
      let s := sCells [(0, c i.1 i.2)]
      let d := s.cell 0 0
      let x := d.slot 0
      Awake s ∧ d.pair = some (BitVec.ofNat 16 (4 * i.1)) ∧ blockRuns s 0 (cellBlk 0) = true ∧ ctlOp (4 * i.1) = i.1 ∧
      d.queue .vector i.2 = [aFlit] ∧ x.aIn = 0 ∧ x.bIn = 1 ∧ routeSet (routeEntry x .vector 0) = 256 ∧ x.alt (ctlArg 4 % 8) = 256 ∧
      x.mergeOut = 256 ∧ d.out .vector 8 = none ∧ heldBy d 8 = none ∧ outTo s 0 0 .vector 8 = .here ∧
      (d.setQueue .vector i.2 []).vin = Cell.empty.vin := by decide +kernel

theorem witness_SteeredFlitsLeaveByTheirSet_quiet : QuietCell Cell.empty ∧ QuietCell (aCell 0) := by
  unfold QuietCell
  decide +kernel

theorem witness_SteeredFlitsLeaveByTheirSet_local :
    let tok := fun (op arg : Nat) => { aFlit with data := BitVec.ofNat 128 (4 * op + 64 * arg) }
    let s := sCells [(0, (aCell 0).setOut .control 4 (some (tok 5 2)))]
    let t := sCells [(0, (aCell 0).setOut .control 4 (some (tok 6 9)))]
    Awake s ∧ localControl s 0 0 5 = some 148 ∧ Awake t ∧ localControl t 0 0 6 = some 600 ∧ ctlArg 600 % 256 = 9 ∧
    semValue t 0 9 < 2 ^ 32 - 1 := by decide +kernel

/-- A cell whose slot 0 takes its operand A from the west. -/
def westCell : Cell :=
  { Cell.empty with slots := Cell.empty.slots.set 0 { SlotSt.empty with loaded := true, config := aConfig 3 } }

theorem witness_AHopMovesOneToken_moves :
    let s := sCells [(0, (aCell 0).setOut .vector 1 (some aFlit)), (1, westCell)]
    let d := s.cell 0 1
    Awake s ∧ (s.cell 0 0).out .vector 1 = some aFlit ∧ blockRuns s 0 (0 / 64) = true ∧ outTo s 0 0 .vector 1 = .cell 0 1 3 ∧
    aFlit.bad = false ∧ aFlit.vlc.toNat ≤ 32 ∧ s.flag (Reg.CTX_FLUSH 0) (flushingFld aFlit.slot.val) = false ∧
    look (cellSlotState s 0 d) 1 (d.setQueue .vector 3 [aFlit]) .vector 3 = .wait ∧
    (s.cell 0 0).out .vector 0 = none ∧ blockRuns s 1 0 = false := by decide +kernel

theorem witness_AHopMovesOneToken_parity :
    let s := (sCells [(0, (aCell 0).setOut .vector 1 (some aFlit)), (1, westCell)]).setFld
      (Reg.FLT_SRC_SEV (rgnSrc 0 1)) Reg.FLT_SRC_SEV_SEV 2
    let g : Flit := { aFlit with data := 0, vlc := 0, perr := 0, sub := true }
    s.chipStage = 2 ∧ s.sev (rgnSrc 0 (3 * (1 / 64) + 1)) ≤ 2 ∧
    look (cellSlotState s 0 (s.cell 0 1)) 1 ((s.cell 0 1).setQueue .vector 3 [g]) .vector 3 = .wait ∧
    (s.cell 0 1).room .vector 3 = true := by decide +kernel

/-- A descriptor that takes link 0 of block 0. -/
def linkDesc (kind : Nat) : Desc := { aDesc kind 0 with bytes := leBytes 32 (leNat (descBytes kind 0) + 2 ^ 201) }

/-- A cell whose slot 0 is being loaded. -/
def loading : Cell := { Cell.empty with slots := Cell.empty.slots.set 0 { SlotSt.empty with own := some 1 } }

theorem witness_AHopMovesOneToken_injectTile :
    let d := { linkDesc 1 with next := 1, buf := [(0, [1])] }
    let s := (sCells [(0, loading)]).modRgn 0 fun r => { r with descs := [d] }
    (nextFlit d 0 0).all (fun x => look (cellSlotState s 0 (s.cell 0 0)) 0 ((s.cell 0 0).setQueue .vector 8 [x.2]) .vector 8 == .wait &&
      !s.flag (Reg.CTX_FLUSH 0) (flushingFld x.2.slot.val)) = true ∧ (nextFlit d 0 0).isSome = true ∧
    Awake s ∧ blockRuns s 0 0 = true ∧ QuietCell (s.cell 0 0) ∧ controlWaits s 0 0 = false ∧ (s.rgn 0).descs = [d] := by
  unfold QuietCell
  decide +kernel

theorem witness_AHopMovesOneToken_injectHeld :
    let s := (sCells [(0, loading)]).modRgn 0 fun r => { r with sclOut := [(0, aFlit)], ctlOut := [(0, aFlit)] }
    Awake s ∧ blockRuns s 0 0 = true ∧ QuietCell (s.cell 0 0) ∧ tileWaits s 0 0 = false ∧ aFlit.bad = false ∧ aFlit.vlc.toNat ≤ 32 ∧
    s.flag (Reg.CTX_FLUSH 0) (flushingFld aFlit.slot.val) = false ∧
    (∀ pl ∈ [Plane.scalar, .control], look (cellSlotState s 0 (s.cell 0 0)) 0 ((s.cell 0 0).setQueue pl 4 [aFlit]) pl 4 = .wait) ∧
    (s.rgn 0).sclOut.find? (fun q => q.1 == 0) = some (0, aFlit) ∧ (s.rgn 0).ctlOut.find? (fun q => q.1 == 0) = some (0, aFlit) := by
  unfold QuietCell
  decide +kernel

theorem witness_AHopMovesOneToken_eject :
    let s := (sCells [(7, (aCell 0).setOut .vector 8 (some aFlit))]).modRgn 0 fun r => { r with descs := [linkDesc 2] }
    Awake s ∧ blockRuns s 0 0 = true ∧ ejectReady s 0 0 0 = some (aFlit, linkDesc 2, 0) ∧ ejectTurn s 0 0 0 = true ∧
    QuietCell (s.cell 0 (ejectCell 0 0)) := by
  unfold QuietCell
  decide +kernel

theorem witness_AHopMovesOneToken_drops :
    let z := (sCells [(0, (aCell 0).setOut .vector 4 (some aFlit))]).modRgn 0 fun r => { r with plan := some 7 }
    Awake z ∧ (z.cell 0 0).out .vector 4 = some aFlit ∧ blockRuns z 0 (0 / 64) = true ∧ outTo z 0 0 .vector 4 = .closed 1 ∧
    (z.rgn 0).plan = some 7 ∧ z.chipStage = 2 := by decide +kernel

theorem witness_AHopMovesOneToken_command :
    let z := sCells [(0, (aCell 0).setOut .vector 4 (some aFlit))]
    z.cmd 7 = some (aRun .running) ∧ (aRun .running).id = 7 ∧ (aRun .running).phase = .running := ⟨rfl, rfl, rfl⟩

theorem witness_AHopMovesOneToken_quiet : QuietCell ((aCell 0).setOut .vector 1 (some aFlit)) ∧ QuietCell westCell := by
  unfold QuietCell
  decide +kernel

theorem witness_MicroOpsIssueAndAdvance_fire :
    ∀ o ∈ [opNop, opMma, opMov, opCvt, opMxscale, opSetp, opSeed, opAdd, opSub, opMul, opFma, opMax, opMin, opNeg, opAbs, opCmp, opSel,
        opExp2, opLog2, opRcp, opRsqrt, opSilu, opGelu, opSubexp, opRedRow, opRedCol, opNstat, opNfin,
        opFlags, opSummary],
      let s := sCells [(0, aCell (aUop o 0 8 (if o = opMxscale then 7 else 0)))]
      let u := uopAt (s.cell 0 0) 0
      MayFire s 0 0 0 o ∧ TokensTaken ((s.cell 0 0).slot 0) u ∧ u.ak ≠ 1 ∧ u.bk ≠ 1 ∧ u.dk ≠ 1 ∧ sendsFlits u = false ∧
        (o ≠ opFlags ∧ o ≠ opSummary → sendsTokens u = false) := by
  unfold MayFire MayIssue QuietCell TokensTaken
  decide +kernel

/-- ADD from the local vector output to the local vector output, and the flit for its second word. -/
theorem witness_MicroOpsIssueAndAdvance_tokens :
    let u : Uop := (aUop opAdd 0 8 0 ||| BitVec.ofNat 64 (2 ^ 41 + 2 ^ 25)) &&& ~~~ BitVec.ofNat 64 (2 ^ 18 * 63)
    let one := fun (c : Cell) (l : List Flit) => { c with slots := c.slots.set 0 { c.slots[0] with vtok := l } }
    let c := one (aCell u) [aFlit]
    let s := sCells [(0, c.setOut .vector 8 (some aFlit))]
    let w := sCells [(0, c)]
    let f := sCells [(0, one (aCell u) [aFlit, aFlit])]
    let x := fun (t : State) => (t.cell 0 0).slot 0
    uopAt (s.cell 0 0) 0 = u ∧ u.ak = 2 ∧ u.bk ≠ 1 ∧ u.dk = 2 ∧ flitsA u + flitsB u = 2 ∧ needsScalar u = false ∧
    MayIssue s 0 0 0 opAdd ∧ (x s).vtok.length + 1 = flitsA u + flitsB u ∧ (s.cell 0 0).out .vector 8 = some aFlit ∧ aFlit.slot = 0 ∧
    aFlit.bad = false ∧ MayIssue w 0 0 0 opAdd ∧ (x w).vtok.length < flitsA u + flitsB u ∧ (w.cell 0 0).out .vector 8 = none ∧
    MayIssue f 0 0 0 opAdd ∧ TokensTaken (x f) u ∧ sendsFlits u = true ∧
    routeSet (routeEntry (x f) .vector (localPort .vector)) = 2 ^ 8 ∧ outTo f 0 0 .vector 8 = .here := by
  unfold MayIssue QuietCell TokensTaken
  decide +kernel

theorem witness_MicroOpsIssueAndAdvance_others :
    let s := sCells [(0, { aCell 0 with bank := [(0, 0)] })]
    let z := (sCells [(0, aCell (aUop 0x3F 0 8 0))]).setFld (Reg.FLT_SRC_SEV (rgnSrc 0 0)) Reg.FLT_SRC_SEV_SEV 2
    Awake s ∧ blockRuns s 0 (cellBlk 0) = true ∧ ((s.cell 0 0).bank.any fun b => b.2 == 0) = true ∧
    Awake z ∧ uopBad (z.cell 0 0) 0 = true ∧ mayIssue z 0 0 0 0 = true ∧ z.sev (rgnSrc 0 (3 * cellBlk 0)) ≤ 2 ∧ z.chipStage = 2 := by
  decide +kernel

theorem witness_OperationsGiveTheirResults_int :
    ∀ o ∈ [opAdd, opSub, opMul, opFma, opMax, opMin, opNeg, opAbs],
      let s := sCells [(0, aCell (aUop o 6 1 0))]
      let u := uopAt (s.cell 0 0) 0
      MayFire s 0 0 0 o ∧ u.fmt = 6 ∧ u.cnt = 1 ∧ u.ak = 0 ∧ u.bk = 0 ∧ u.dk = 0 ∧ u.men = false ∧ u.bcast = 0 := by
  unfold MayFire MayIssue QuietCell
  decide +kernel

theorem witness_OperationsGiveTheirResults_move :
    ∀ o ∈ [opMov, opSel],
      let s := sCells [(0, aCell (aUop o 6 1 0))]
      let u := uopAt (s.cell 0 0) 0
      MayFire s 0 0 0 o ∧ u.fmt = 6 ∧ u.cnt = 1 ∧ u.ak = 0 ∧ u.men = false ∧ u.dk = 0 ∧ u.bk = 0 ∧ u.bcast = 0 := by
  unfold MayFire MayIssue QuietCell
  decide +kernel

theorem witness_OperationsGiveTheirResults_cmp :
    ∀ m : Fin 6,
      let s := sCells [(0, aCell (aUop opCmp 6 1 (4 * m.val) ||| BitVec.ofNat 64 (2 ^ 24 * 3 + 2 ^ 18 * 8)))]
      let u := uopAt (s.cell 0 0) 0
      MayFire s 0 0 0 opCmp ∧ u.fmt = 6 ∧ u.cnt = 1 ∧ u.ak = 0 ∧ u.men = false ∧ u.dk = 3 ∧ 8 ≤ u.d ∧ u.bk = 0 ∧ u.bcast = 0 ∧
        u.mode = m.val := by
  unfold MayFire MayIssue QuietCell
  decide +kernel

/-- The cell with a value in lane 0 of register 0. -/
def withLane0 (v : Nat) (c : Cell) : Cell := { c with regs := [(0, BitVec.ofNat 128 v)] }

theorem witness_OperationsGiveTheirResults_nan :
    ∀ o ∈ [opMov, opNeg, opAbs, opExp2, opLog2, opRcp, opRsqrt, opSilu, opGelu],
      let s := sCells [(0, withLane0 0x7FC00001 (aCell (aUop o 0 1 0)))]
      let c := s.cell 0 0
      let u := uopAt c 0
      MayFire s 0 0 0 o ∧ u.fmt = 0 ∧ u.cnt = 1 ∧ u.ak = 0 ∧ u.men = false ∧ u.dk = 0 ∧
        (decodeElem 0 (lane0Of c u.a).toNat).isNan = true := by
  unfold MayFire MayIssue QuietCell
  decide +kernel

theorem witness_OperationsGiveTheirResults_special :
    ∀ i ∈ [(opExp2, 0x7F800000), (opExp2, 0xFF800000), (opLog2, 0), (opLog2, 0x7F800000), (opRcp, 0), (opRcp, 0xFF800000),
        (opRsqrt, 0x7F800000), (opSilu, 0x7F800000), (opGelu, 0x7F800000)],
      let s := sCells [(0, withLane0 i.2 (aCell (aUop i.1 0 1 0)))]
      let c := s.cell 0 0
      let u := uopAt c 0
      MayFire s 0 0 0 i.1 ∧ u.fmt = 0 ∧ u.cnt = 1 ∧ u.ak = 0 ∧ u.men = false ∧ u.dk = 0 ∧ u.sat = false ∧
        lane0Of c u.a = BitVec.ofNat 32 i.2 := by
  unfold MayFire MayIssue QuietCell
  decide +kernel

theorem witness_OperationsGiveTheirResults_mma :
    let s := sCells [(0, aCell (aUop opMma 5 1 0))]
    let u := uopAt (s.cell 0 0) 0
    MayFire s 0 0 0 opMma ∧ u.fmt = 5 ∧ u.cnt = 1 ∧ u.ak = 0 ∧ u.men = false ∧ u.bk = 0 := by
  unfold MayFire MayIssue QuietCell
  decide +kernel

theorem witness_OperationsGiveTheirResults_send :
    ∀ o ∈ [opSetp, opSeed, opFlags, opSummary],
      let s := sCells [(0, aCell (aUop o 0 1 0))]
      let c := s.cell 0 0
      MayFire s 0 0 0 o ∧ (uopAt c 0).ak = 0 ∧ c.out .scalar 4 = none ∧ routeSet (routeEntry (c.slot 0) .scalar 4) = 16 := by
  unfold MayFire MayIssue QuietCell
  decide +kernel

/-! ### Monitors, defects and scan -/

theorem witness_ArrayMonitorsAndScan_monitors :
    let s := (sCells []).setFld (Reg.RGN_STALL_LIMIT 0) Reg.RGN_STALL_LIMIT_LIMIT 10
    let t := { s.modRgn 0 fun r => { r with plan := some 7, stepAt := 0 } with now := 10 }
    let w := sCells [(0, { Cell.empty with errs := [(128, 2)] })]
    Awake s ∧ s.domOn (rgnDom 0) = true ∧ s.chipStage = 2 ∧ stalls s 0 = false ∧ Awake t ∧ t.chipStage = 2 ∧ stalls t 0 = true ∧
    srcOff t (rgnSrc 0 27) = false ∧ Awake w ∧ w.chipStage = 2 ∧ wornGranule (w.cell 0 0) 2 = true ∧
    blockState w 0 4 ≠ 3 ∧ fenceDue w 0 4 .switchFault = true ∧ fenceDue w 0 4 .completionCheck = true ∧
    Assoc.wf cellDefault w.cells = true := by decide +kernel

theorem witness_ArrayMonitorsAndScan_nothing :
    let off := (sCells []).setDom (rgnDom 0) false
    let s := sCells []
    let failed := (sCells []).setFld (Reg.RGN_BLOCK_STATE 0) ⟨8, 2, .ro, 0⟩ 3
    Awake off ∧ off.domOn (rgnDom 0) = false ∧ Awake s ∧ s.chipStage = 2 ∧ wornGranule (s.cell 0 0) 2 = false ∧
    fenceDue s 0 4 .linkErrors = false ∧ Awake failed ∧ blockState failed 0 4 = 3 := by decide +kernel

/-- Block 0 of region 0 is frozen and the window addresses a word of cell 0. -/
def sScan (w : Nat) : State :=
  (sets [(Reg.SCAN_ADDR 0, Reg.SCAN_ADDR_WORD, w), (Reg.SCAN_CTRL 0, Reg.SCAN_CTRL_AUTO_INC, 1)] (sCells [])).modRgn 0 fun r =>
    { r with frozen := 1 }

theorem witness_ArrayMonitorsAndScan_scan :
    let s := sScan 0x103
    let z := sScan 0x7FFF
    Writes (.eland 0) (Reg.SCAN_DATA 0) 9 s ∧ scanTarget s 0 = some (0, 0x103) ∧ (0x103 - 0x100) % 3 = 0 ∧
    s.flag (Reg.SCAN_CTRL 0) Reg.SCAN_CTRL_AUTO_INC = true ∧ Writes (.eland 0) (Reg.SCAN_DATA 0) 9 z ∧ scanTarget z 0 = none ∧
    Awake s ∧ accessCheck (.eland 0) false (Reg.SCAN_DATA 0) 8 0 s = .ok ∧ accessCheck (.eland 0) false (Reg.SCAN_DATA 0) 8 0 z = .ok := by
  decide +kernel

/-- The window addresses a word of granule 2, which the field defect list of cell 0 names. -/
def sWorn : State := { sScan (0x1000 + 3 * 128) with cells := [(0, { Cell.empty with field := [2] })] }

theorem witness_ArrayMonitorsAndScan_retired : Writes (.eland 0) (Reg.SCAN_DATA 0) 9 sWorn ∧
    scanTarget sWorn 0 = some (0, 0x1000 + 3 * 128) ∧ scanRetired sWorn 0 0 (0x1000 + 3 * 128) = true := by
  refine ⟨by decide +kernel, by decide +kernel, ?_⟩
  have f : (sWorn.cell 0 0).field = [2] := by decide +kernel
  have r : 2 ∈ retired sWorn 0 0 := List.mem_append_right _ (f ▸ List.mem_singleton.mpr rfl)
  exact Bool.and_eq_true_iff.mpr ⟨by decide, List.contains_iff_mem.mpr r⟩

/-! ### Route jobs -/

/-- A route job of one token, one of four experts, weights by expert count, at near tiles 20,000 up; it waits for semaphore 1 and
adds 1 to semaphore 2. -/
def aJob (kind : Nat) : List Byte :=
  [0, BitVec.ofNat 8 kind, 0, 2, 3, 1, 1, 0] ++ leBytes 2 7 ++ leBytes 2 0 ++ [15, 0, 0, 0] ++ leBytes 4 1 ++ leBytes 4 20000 ++
    leBytes 4 20100 ++ leBytes 4 20200 ++ leBytes 4 20300 ++ leBytes 4 20400 ++ [1, 1, 2, 1] ++ zs 20

def sRoute (kind : Nat) : State :=
  ((sRun .running).setFld (semAddr 0 1) Reg.SYNC_SEM_VALUE 4).setFld (Reg.SEQ_STATUS 0) Reg.SEQ_STATUS_RUNNING 1
    |>.modRgn 0 fun r => { r with plan := some 7, seq := { r.seq with cmd := some 7, jobs := [aJob kind], jobIx := 0 } }

theorem witness_RouteJobsRun :
    ∀ k ∈ [1, 2], let s := sRoute k
      Awake s ∧ seqRunning s 0 = true ∧ (s.rgn 0).seq.jobs[(s.rgn 0).seq.jobIx]? = some (aJob k) ∧
      jWaitN (aJob k) ≤ semValue s 0 (jWaitSem (aJob k)) ∧ jWaitSem (aJob k) ≠ jSigSem (aJob k) ∧
      semValue s 0 (jSigSem (aJob k)) + jSigN (aJob k) < 2 ^ 32 ∧ (∀ r ∈ jobRanges (aJob k), r.1 + r.2 ≤ tierCap s 0 1) ∧
      s.poison = [] ∧ 0 < (jobReads s 0 (aJob k)).length ∧ (s.rgn 0).seq.cmd = some 7 ∧ s.cmd 7 = some (aRun .running) ∧
      (aRun .running).live = true ∧ s.chipStage = 2 ∧ jKind (aJob k) = k ∧
      jTokens (aJob k) (s.rgn 0).seq.shapes ≤ jRows (aJob k) := by decide +kernel

end Sys2Proof.Tests
end

