-- ==== Sys2Proof/Tests/Witness6.lean ====
section
/-!
SUPPORT. For the statements about the Axium port and lent memory: states and operands that meet the hypotheses.
-/

namespace Sys2Proof.Tests

set_option Elab.async false

open Sys2Proof.Machine

/-- Port 0 enabled, in a state of Table 14.3, with circuit 9 in a state, leading to partition 0 of chip 5. -/
def sPort (st circ : Nat) (f : Port → Port) : State :=
  modPort 0 f (sets [(Reg.FAB_PORT_CFG 0, Reg.FAB_PORT_CFG_ENABLE, 1), (Reg.FAB_PORT_STATUS 0, Reg.FAB_PORT_STATUS_STATE, st),
    (Reg.FAB_CIRC 0 9, Reg.FAB_CIRC_STATE, circ), (Reg.FAB_CIRC 0 9, Reg.FAB_CIRC_PEER_CHIP, 5)]
    ((sRun .running).modRgn 0 fun r => { r with plan := some 7 }))

/-- Circuit 9 with the time of its first PROBE, of its last message and of the PROBE not yet answered. -/
def aCirc (probed retry : Option Nat) : Circuit := ⟨9, 0, 0, probed, retry, some 7⟩

def aHdr : FlitHdr := ⟨4, 2, 9, 3, false⟩
def aFlit2 (q : BitVec 12) : AxFlit := ⟨0, q, 0, false, 9, 0, false, [], false⟩

theorem witness_LinksComeUpAndRetry_states :
    let d := sPort portDown circFree id
    let t := sPort portTraining circFree id
    let l := { sPort portJoined circBound (fun p => { p with circuits := [aCirc none none], replay := [aFlit2 1, aFlit2 2, aFlit2 3] }) with
      now := 1000 }
    Awake d ∧ portEnabled d 0 = true ∧ portState d 0 = portDown ∧ Awake t ∧ portState t 0 = portTraining ∧ t.sec.queue.length < 64 ∧
    Awake l ∧ portLinked ≤ portState l 0 ∧ portState l 0 ≤ portFailed ∧ l.chipStage = 2 ∧ downDue l 0 .lockLost = true ∧
    downDue l 0 .silence = true ∧ downDue l 0 .replays = false ∧ aCirc none none ∈ (l.rgn 0).port.circuits ∧
    circState l 0 9 = circBound ∧ linkOpen l 0 = true ∧ (l.rgn 0).port.waiting = [] ∧
    (l.rgn 0).port.replay = [aFlit2 1] ++ aFlit2 2 :: [aFlit2 3] ∧ (aFlit2 2).seq = aHdr.ack ∧ (∀ g ∈ [aFlit2 1], g.seq ≠ aHdr.ack) ∧
    circState l 0 aHdr.circuit.val = circBound := by decide +kernel

theorem witness_LinksComeUpAndRetry_timers :
    let b := { (sPort portJoined circBound (fun p => { p with circuits := [aCirc none none] })).modRgn 0 (fun r =>
      { r with reqs := [⟨9, some 4, some 7, 4, 0, 0, false, [], 0, some 0, some (9, 9), false, none, none⟩] }) with now := 10 ^ 7 }
    let g := { sPort portJoined circBinding (fun p => { p with circuits := [aCirc none (some 5)] }) with now := 10 ^ 7 }
    let p := { sPort portJoined circBound (fun p => { p with circuits := [aCirc (some 5) none] }) with now := 10 ^ 7 }
    Awake b ∧ circOf b 0 9 = some (aCirc none none) ∧ circState b 0 9 = circBound ∧ 0 < circUse b 0 9 ∧
    (aCirc none none).lastRx + probeTicks b 0 ≤ b.now ∧ (b.rgn 0).port.asks = [] ∧
    Awake g ∧ circOf g 0 9 = some (aCirc none (some 5)) ∧ circState g 0 9 = circBinding ∧ 5 ≤ g.now ∧
    (aCirc none (some 5)).first + circTimeout g 0 ≤ g.now ∧ g.cmd 7 = some (aRun .running) ∧
    Awake p ∧ circOf p 0 9 = some (aCirc (some 5) none) ∧ circState p 0 9 = circBound ∧ 5 + circTimeout p 0 ≤ p.now ∧
    p.chipStage = 2 ∧ (aRun .running).live = true := by decide +kernel

theorem witness_LinksComeUpAndRetry_hello :
    let l := tahrAsk (tqHello 0) (sPort portLinked circFree fun p => { p with signing := true })
    let h := sPort portHello circFree id
    let k := sPart.setFld Reg.FAB_CHIP_ID Reg.FAB_CHIP_ID_LOCKED 1
    let v := fields [(Reg.FAB_CHIP_ID_ID, 77), (Reg.FAB_CHIP_ID_VALID, 1)]
    Awake l ∧ (l.rgn 0).port.signing = true ∧ portState l 0 = portLinked ∧ (tahrQueue l (tqHello 0)).head? = some (tqHello 0) ∧
    Awake h ∧ portState h 0 = portHello ∧ Writes (.eland 0) Reg.FAB_CHIP_ID v k ∧
    k.flag Reg.FAB_CHIP_ID Reg.FAB_CHIP_ID_LOCKED = true ∧ Writes (.eland 0) Reg.FAB_CHIP_ID v sPart ∧
    sPart.flag Reg.FAB_CHIP_ID Reg.FAB_CHIP_ID_LOCKED = false := by decide +kernel

/-! ### Messages -/

/-- A message from partition 0 of chip 5 on circuit 9, of command tag 1, about tile 262,144 of the herd of region 0. -/
def aMsg (arg : Word) : AxMsg := ⟨9, 5, 0, 0, 9, 1, arg, mkGta 0 0 2 0 (4096 * 262144), zs 4096, []⟩

/-- Partition 0 has offered two lots, of which the first is lent over the circuit. -/
def anOffer (notice : Option Nat) : Offer := ⟨0, 3, 0, 262144, 2, [(1, 5, 9)], [], false, notice⟩
def sLots (l : List Offer) : State :=
  { (sPort portJoined circBound fun p => { p with circuits := [aCirc none none] }).modPart 0 (fun p =>
    { p with allocs := [⟨⟨0, 2, 262144, 524288⟩, .lots 3⟩] }) with offers := l, now := 100 }

theorem witness_MessagesAreServed_serve :
    let m := aMsg 0
    let s := sLots [anOffer none]
    let z := sPort portJoined circFree id
    let b := sPort portJoined circBinding id
    Awake s ∧ linkOpen s 0 = true ∧ circState s 0 m.circuit.val = circBound ∧ fromPeer s 0 m = true ∧ onBound s 0 m = true ∧
    serve s 0 m = .tile (some 0) ∧ s.poison = [] ∧ Awake z ∧ linkOpen z 0 = true ∧ onBound z 0 m = false ∧
    Awake b ∧ circState b 0 m.circuit.val = circBinding ∧ serve (sLots []) 0 m = .nak 3 ∧ s.chipStage = 2 := by decide +kernel

theorem witness_MessagesAreServed_poison :
    let s := { sLots [anOffer none] with poison := [tileAddr 0 2 262144 / 64 + 5] }
    let t := sLots [anOffer none]
    tilePoisoned s 0 2 262144 = true ∧ tilePoisoned t 0 2 262144 = false ∧ reqTile (aMsg 0) = 262144 ∧ gtaTier (aMsg 0).gta = 2 := by
  decide +kernel

theorem witness_MessagesAreServed_signals :
    let m := aMsg (5 + 256 * 3)
    let s := sLots []
    let z := s.modRgn 0 fun r => { r with plan := none }
    Awake s ∧ linkOpen s 0 = true ∧ onBound s 0 m = true ∧ taggedCmd s 0 m ≠ none ∧
    semValue s 0 (m.arg.toNat % 256) + m.arg.toNat / 256 % 16 < 2 ^ 32 ∧ onBound z 0 m = true ∧ linkOpen z 0 = true ∧
    taggedCmd z 0 m = none := by decide +kernel

theorem witness_MessagesAreServed_lots :
    let ask := aMsg (3 + 2 ^ 32 * 1)
    let ret := aMsg (3 + 2 ^ 32 * 1 + 2 ^ 40 * 1)
    let s := sLots [anOffer none]
    let w := sLots [anOffer (some 50)]
    let b : Borrow := ⟨0, 0, 0, 5, 9, 1, 3, some 50, true⟩
    let r := { sLots [] with borrows := [b] }
    Awake s ∧ linkOpen s 0 = true ∧ onBound s 0 ask = true ∧ (∀ o ∈ (sLots []).offers, o.id ≠ 3) ∧ anOffer none ∈ s.offers ∧
    BitVec.ofNat 32 (ask.arg.toNat % 2 ^ 32) = (anOffer none).id ∧ (∀ y ∈ s.offers, y.id = 3 → y = anOffer none) ∧
    s.partOf 0 = some 0 ∧ ask.arg.toNat / 2 ^ 32 % 512 = 1 ∧ (∀ i, i < 1 → 2 + i ∈ idleLots s (anOffer none)) ∧
    srcOff s (rgnSrc 0 44) = false ∧ s.offers.find? (fun o => o.id == 3 && o.rgn == 0) = some (anOffer none) ∧ onBound s 0 ret = true ∧
    w.offers.find? (fun o => o.id == 3 && o.rgn == 0) = some (anOffer (some 50)) ∧ 50 ≤ w.now ∧ b ∈ r.borrows ∧ 50 ≤ r.now := by
  decide +kernel

/-- A tile request and an ask on circuit 9, both with REQ_ID 9. -/
def farReq (write : Bool) : Req := ⟨9, some 4, some 7, 4, 0, 0, write, [], 0, some 0, some (9, 9), false, none, none⟩

theorem witness_MessagesAreServed_answers :
    let m := aMsg 0
    let s := fun (w : Bool) => (sLots []).modRgn 0 fun r => { r with reqs := [farReq w], descs := [aDesc 1 0] }
    (∀ w ∈ [false, true], Answered 0 m (farReq w) (s w) ∧ aDesc 1 0 ∈ ((s w).rgn 0).descs ∧ (farReq w).desc = some (aDesc 1 0).id) ∧
    (s false).cmd 7 = some (aRun .running) ∧ (aRun .running).live = true ∧ (s false).chipStage = 2 := by decide +kernel

theorem witness_MessagesAreServed_hello :
    let m := aMsg 0
    let a : AxAsk := ⟨9, 0, 0x20, none, none, 0, 0⟩
    let s := sPort portHello circFree fun p => { p with asks := [a], helloValid := true }
    Awake s ∧ linkOpen s 0 = true ∧ helloAsk s 0 m = some a ∧ portState s 0 = portHello ∧ (s.rgn 0).port.helloValid = true ∧
    s.chipStage = 2 := by decide +kernel

theorem witness_MessagesAreServed_grant :
    let m := aMsg 0
    let a : AxAsk := ⟨9, 9, 0x08, some 7, none, 3, 0⟩
    let e : Extent := ⟨0, 4, 0, 262144⟩
    let d := { aRun .running with extents := [e] }
    let s := { sPort portJoined circBound (fun p => { p with asks := [a] }) with cmds := [d] }
    Awake s ∧ linkOpen s 0 = true ∧ onBound s 0 m = true ∧
    (s.rgn 0).reqs.find? (fun q => q.remote == some (m.circuit.val, m.reqId.toNat)) = none ∧
    (s.rgn 0).port.asks.find? (fun x => x.circuit == m.circuit.val && x.id == m.reqId && x.type != axHello) = some a ∧ a.type = 0x08 ∧
    a.cmd = some 7 ∧ s.cmd 7 = some d ∧ d.extents = e :: [] := by decide +kernel

end Sys2Proof.Tests
end

