-- ==== Sys2Proof/Tests/Witness7.lean ====
section
/-!
SUPPORT. For the statements about power, resets and bring-up: states and operands that meet the hypotheses.
-/

namespace Sys2Proof.Tests

set_option Elab.async false

open Sys2Proof.Machine

/-! ### Power, cooling and the rack -/

def withPwr (f : Power → Power) (s : State) : State := { s with pwr := f s.pwr }
def withPins (f : Pins → Pins) (s : State) : State := { s with pins := f s.pins }

/-- The chip is up under a policy with some FLAGS, watchdog ticks and hold ticks, at a time. -/
def sPol (flags wdt now : Nat) : State :=
  { withPwr (fun p => { p with policy := splice (splice p.policy 1 [BitVec.ofNat 8 flags]) 0x18 (leBytes 4 wdt ++ leBytes 4 50) }) sUp with now := now }

theorem witness_PowerKeepsItsLimits_pins :
    let f := withPins (fun p => { p with pwrfailN := false }) sUp
    let d := withPins (fun p => { p with coolantOk := false }) sUp
    let w := sUp.setFld Reg.PWR_COOL_CFG Reg.PWR_COOL_CFG_ENABLE 1
    Awake sUp ∧ sUp.pwr.shut = false ∧ sUp.chipStage = 2 ∧ sUp.pins.pwrfailN = true ∧ Awake f ∧ f.chipStage = 2 ∧
    f.pins.pwrfailN = false ∧ f.fatal = false ∧ f.boot.pendingWarm = false ∧ (∀ n : Rgn, (f.rgn n).fold.held = []) ∧
    f.cmds = [] ∧ sUp.pins.coolantOk = true ∧ flowLoss sUp = false ∧ d.pins.coolantOk = false ∧
    d.pwr.flowOk = none ∧ flowReads d = true ∧ w.flag Reg.PWR_COOL_CFG Reg.PWR_COOL_CFG_ENABLE = true ∧ w.pwr.badReads < 2 ∧
    (withPwr (fun p => { p with badReads := 2 }) w).pwr.badReads = 2 := by decide +kernel

theorem witness_PowerKeepsItsLimits_stopped :
    let s := withPins (fun p => { p with pwrfailN := false }) (sUp.setFld Reg.FLT_STATUS Reg.FLT_STATUS_FATAL 1)
    Awake s ∧ s.chipStage = 2 ∧ s.pins.pwrfailN = false ∧ s.fatal = true := by decide +kernel

theorem witness_PowerKeepsItsLimits_trips :
    let t := { withPwr (fun p => { p with tripAt := some 7 }) sUp with now := 7 }
    let r := t.setFld (Reg.FOLD_STATUS 3) Reg.FOLD_STATUS_FLUSHING 1
    let w := sPol 1 100 100
    let u := withPwr (fun p => { p with wdtExpired := some 40 }) (sPol 1 100 100)
    sUp.pwr.tripAt = none ∧ Awake t ∧ t.pwr.tripAt = some 7 ∧ t.pwr.shut = false ∧ anyFlushing t = false ∧
    anyFlushing r = true ∧ r.now < 7 + 2500000 ∧ Awake w ∧ wdtTicks w ≠ 0 ∧ w.pwr.wdtExpired = none ∧
    w.pwr.wdtFrom + wdtTicks w ≤ w.now ∧ Awake u ∧ u.pwr.wdtExpired = some 40 ∧ 40 + polNat u 0x1C 4 ≤ u.now ∧
    u.flag Reg.PWR_STATUS Reg.PWR_STATUS_UNATTENDED = false ∧ u.chipStage = 2 := by decide +kernel

theorem witness_PowerKeepsItsLimits_volts :
    let s := fun (k core : Nat) => withPwr (fun p => { p with changes := [(0, k)], vddCore := core }) sUp
    let a := withPwr (fun p => { p with vddAsked := some 800 }) sUp
    let v : Word := 0x5A5A
    Awake (s 30 700) ∧ (s 30 700).pwr.changes = (0, 30) :: [] ∧ vAct (s 30 700) 0 < 30 ∧
    (s 30 700).pwr.vddCore < coreFor (max (vAct (s 30 700) 0 + 1) (topCode (s 30 700))) ∧
    coreFor (max (vAct (s 30 950) 0 + 1) (topCode (s 30 950))) ≤ (s 30 950).pwr.vddCore ∧ 3 < vAct (s 3 700) 0 ∧
    Awake a ∧ a.pwr.vddAsked = some 800 ∧ a.pwr.vddAsked ≠ some 900 ∧ Writes (.eland 0) Reg.PWR_RM_KICK v sUp ∧
    Reg.PWR_RM_KICK_KEY.get v = 0x5A5A ∧ Writes (.eland 0) Reg.PWR_RM_KICK 1 sUp ∧ Reg.PWR_RM_KICK_KEY.get 1 ≠ 0x5A5A := by
  decide +kernel

theorem witness_PowerKeepsItsLimits_idle :
    let on := fun (s : State) => s.setReg (Reg.RGN_BLOCK_STATE 0) (BitVec.ofNat 64 0x15555)
    let g := on (sPol 8 0 100000000)
    let w := withPwr (fun p => { p with wake := 1 }) sUp
    let d := sPol 20 0 100
    Awake g ∧ polGate g = true ∧ 3 ≤ g.stage 0 ∧ rgnIdle g 0 = true ∧ blocksReady g 0 = true ∧
    (g.rgn 0).idleFrom + polNat g 0x10 4 ≤ g.now ∧ polGate sUp = false ∧ Awake w ∧ w.pwr.wake.getLsbD 0 = true ∧
    serviceOn w 0 = true ∧ blockState w 0 4 = 0 ∧ w.flt.latched = [] ∧ Assoc.wf cellDefault w.cells = true ∧
    Awake d ∧ polDeepIdle d = true ∧ polBallast d = false ∧ d.chipStage = 2 ∧ d.minimal = false ∧ d.pwr.shut = false ∧
    d.flag Reg.PWR_STATUS Reg.PWR_STATUS_DEEP_IDLE = false ∧ d.pwr.lastActive + polNat d 0x14 4 ≤ d.now := by decide +kernel

theorem witness_PowerKeepsItsLimits_deep :
    let d := sPol 20 0 100
    let b := withCmds [{ aRun .accepted with span := [0] }] d
    (∀ n : Rgn, rgnIdle d n = true) ∧ noCommand d = true ∧ polL0p d = true ∧ linkUp d = true ∧
    (∀ n : Rgn, rgnIdle b n = true) ∧ noCommand b = false := by decide +kernel

/-! ### Resets and bring-up. Whether a bundle verifies rests on the signature functions, which Config leaves free. -/

/-- The chip runs at stage 0, booting from the companion or from flash, with empty flash slots. -/
def sBoot (src : Nat) : State :=
  let s := State.reset.setFld Reg.BOOT_STATUS Reg.BOOT_STATUS_SRC src
  { s with sec := { s.sec with flash := Vector.replicate 2 [] } }

theorem witness_ResetsAndBringUpAct_resets :
    let off := withPins (fun p => { p with porN := false }) sUp
    let fl := sUp.setFld (Reg.FOLD_STATUS 3) Reg.FOLD_STATUS_FLUSHING 1
    let tr := withPwr (fun p => { p with tripAt := some 7 }) sUp
    sUp.pins.porN = true ∧ off.pins.porN = false ∧ off.fld Reg.BOOT_STATUS Reg.BOOT_STATUS_ATTEMPTS ≠ 3 ∧
    (∀ n : Rgn, (sUp.rgn n).fold.wbuf = []) ∧ Awake sUp ∧ sUp.chipStage = 2 ∧ sUp.pwr.tripAt = none ∧ anyFlushing sUp = false ∧
    Awake fl ∧ fl.pwr.tripAt = none ∧ anyFlushing fl = true ∧ Awake tr ∧ tr.pwr.tripAt.isSome = true := by decide +kernel

theorem witness_ResetsAndBringUpAct_writes :
    let w := fields [(Reg.BOOT_CTRL_WARM, 1), (Reg.BOOT_CTRL_KEY, 0xA5)]
    let c := fields [(Reg.BOOT_CTRL_CLEAR_ATTEMPTS, 1), (Reg.BOOT_CTRL_KEY, 0xA5)]
    let d := fields [(Reg.BOOT_CTRL_CLEAR_ATTEMPTS, 1)]
    let i := fields [(Reg.BOOT_IMG_CTRL_GO, 1), (Reg.BOOT_IMG_CTRL_TILES, 9)]
    let s := sBoot 1
    Writes (.eland 0) Reg.BOOT_CTRL w sUp ∧ Reg.BOOT_CTRL_WARM.get w = 1 ∧ Reg.BOOT_CTRL_CLEAR_ATTEMPTS.get w = 0 ∧
    Reg.BOOT_CTRL_KEY.get w = 0xA5 ∧ Writes (.eland 0) Reg.BOOT_CTRL c sUp ∧ Reg.BOOT_CTRL_WARM.get c = 0 ∧
    Reg.BOOT_CTRL_CLEAR_ATTEMPTS.get c = 1 ∧ Reg.BOOT_CTRL_KEY.get c = 0xA5 ∧ Writes (.eland 0) Reg.BOOT_CTRL d sUp ∧
    Reg.BOOT_CTRL_KEY.get d ≠ 0xA5 ∧ Writes (.eland 0) Reg.BOOT_IMG_CTRL i s ∧ Reg.BOOT_IMG_CTRL_GO.get i = 1 ∧
    companionBoot s = true ∧ s.chipStage = 0 ∧ s.minimal = false ∧ imgState s = 0 := by decide +kernel

theorem witness_ResetsAndBringUpAct_images :
    let s := (sBoot 1).setFld Reg.BOOT_IMG_CTRL Reg.BOOT_IMG_CTRL_STATE 1
    let v := (sBoot 1).setFld Reg.BOOT_IMG_CTRL Reg.BOOT_IMG_CTRL_STATE 2
    let f := sBoot 0
    Awake s ∧ imgState s = 1 ∧ s.chipStage = 0 ∧ bundleCheck s (imageRead s []) = some 1 ∧ Awake v ∧ v.chipStage = 0 ∧
    v.minimal = false ∧ v.boot.pendingWarm = false ∧ companionBoot v = true ∧ imgState v = 2 ∧ imgState s ≠ 2 ∧ Awake f ∧
    f.chipStage = 0 ∧ f.minimal = false ∧ f.boot.pendingWarm = false ∧ companionBoot f = false ∧ f.pwr.tripAt = none ∧
    anyFlushing f = false ∧ bundleCheck f (flashBundle f 0) = some 1 ∧ bundleCheck f (flashBundle f 1) ≠ none := by decide +kernel

theorem witness_ResetsAndBringUpAct_stages :
    let c := sets [(Reg.BOOT_STATUS, Reg.BOOT_STATUS_CHIP_STAGE, 1), (Reg.TAITH_STATUS, Reg.TAITH_STATUS_LINK_UP, 1)] State.reset
    let w := { State.reset with now := State.reset.fld Reg.BOOT_WDT Reg.BOOT_WDT_TICKS }
    Awake c ∧ linkUp c = true ∧ c.boot.upAt = none ∧ c.boot.pendingWarm = false ∧ c.minimal = false ∧ c.chipStage = 1 ∧
    Awake w ∧ w.chipStage < 2 ∧ w.minimal = false ∧ w.boot.pendingWarm = false ∧ w.pwr.tripAt = none ∧ anyFlushing w = false ∧
    w.boot.start + w.fld Reg.BOOT_WDT Reg.BOOT_WDT_TICKS ≤ w.now ∧
    State.reset.now < State.reset.boot.start + State.reset.fld Reg.BOOT_WDT Reg.BOOT_WDT_TICKS := by decide +kernel

/-- A geometry of 4 targets of 2 LUNs, with 4 planes, 2,000 blocks of 2,000 pages; and one of no target. -/
theorem witness_ResetsAndBringUpAct_geometry : ∃ g b, geomOk g = true ∧ geomOk b = false :=
  ⟨fields [(Reg.FOLD_GEOM_TARGETS, 4), (Reg.FOLD_GEOM_LUNS, 1), (Reg.FOLD_GEOM_PLANES, 1), (Reg.FOLD_GEOM_BLOCKS, 1999),
    (Reg.FOLD_GEOM_PAGES, 1999)], 0, by decide +kernel⟩

/-- Region 0 at a stage of its bring-up, with every block on. -/
def sStage (st herd : Nat) : State :=
  (sets [(Reg.BOOT_RGN 0, Reg.BOOT_RGN_STAGE, st), (Reg.BOOT_RGN 0, Reg.BOOT_RGN_HERD_OK, herd)] sUp).setReg (Reg.RGN_BLOCK_STATE 0)
    (BitVec.ofNat 64 0x15555)

theorem witness_ResetsAndBringUpAct_regions :
    let h := sStage 2 0
    let f := sStage 2 1
    let n := sStage 3 1
    let m := sets [(Reg.BOOT_RGN 0, Reg.BOOT_RGN_NEAR_OK, 1), (Reg.BOOT_RGN 0, Reg.BOOT_RGN_MIGRATING, 1)] (sStage 3 1)
    let v := fields [(Reg.BOOT_RGN_CFG_MIGRATE, 1)]
    Awake h ∧ inBringUp h 0 = true ∧ h.stage 0 = 2 ∧ h.flag (Reg.BOOT_RGN 0) Reg.BOOT_RGN_HERD_OK = false ∧ blocksReady h 0 = true ∧
    failedBlocks h 0 < 2 ∧ Awake f ∧ inBringUp f 0 = true ∧ f.stage 0 = 2 ∧ f.flag (Reg.BOOT_RGN 0) Reg.BOOT_RGN_HERD_OK = true ∧
    (f.rgn 0).fold.fences = [] ∧ failedBlocks f 0 < 2 ∧ Awake n ∧ inBringUp n 0 = true ∧ n.stage 0 = 3 ∧
    n.flag (Reg.BOOT_RGN 0) Reg.BOOT_RGN_NEAR_OK = false ∧ n.fld (Reg.BOOT_RGN 0) Reg.BOOT_RGN_NEAR_FAIL = 0 ∧
    Awake m ∧ m.stage 0 = 3 ∧ migrating m 0 = true ∧ rgnRetired m 0 = true ∧ Writes (.eland 0) Reg.BOOT_RGN_CFG v m ∧
    Reg.BOOT_RGN_CFG_MIGRATE.get v ≠ 0 := by decide +kernel

end Sys2Proof.Tests
end

