-- ==== Sys2Proof/Tests/Witness8.lean ====
section
/-!
SUPPORT. For the statements about the root of trust, management, register access and the Taith link: states and operands that
meet the hypotheses.
-/

namespace Sys2Proof.Tests

set_option Elab.async false

open Sys2Proof.Machine

/-! ### Mailbox and management. Whether a token or a bundle verifies rests on the signature functions, which Config leaves free. -/

def withSec (f : Security → Security) (s : State) : State := { s with sec := f s.sec }

/-- An operation in the mailbox at the head of Tahr's queue. -/
def sMbx (op index : Nat) (failed : Bool) : State :=
  withSec (fun c => { c with mbxOp := some ⟨op, index, 0, failed⟩, queue := [tqMailbox] }) sUp

theorem witness_MailboxAndManagementAct_start :
    ∀ k ∈ [1, 2, 3, 4, 5], let v := fields [(Reg.TAHR_MBX_CMD_OP, k), (Reg.TAHR_MBX_CMD_GO, 1)]
      Writes (.eland 0) Reg.TAHR_MBX_CMD v sUp ∧ Reg.TAHR_MBX_CMD_GO.get v = 1 ∧
      sUp.flag Reg.TAHR_MBX_CMD Reg.TAHR_MBX_CMD_BUSY = false ∧ sUp.chipStage = 2 ∧ Reg.TAHR_MBX_CMD_OP.get v = k := by decide +kernel

/-- The first `k` lines of the window kept for a reader that is no command. -/
def cached (k : Nat) (s : State) : State := { s with taith := { s.taith with held := (List.range k).map fun i => (none, 64 * i, zs 64) } }

theorem witness_MailboxAndManagementAct_done :
    (∀ x ∈ [(1, 4, false), (2, 9, false), (2, 10, false), (2, 10, true), (3, 0, false), (4, 0, false), (5, 0, false), (6, 0, false)],
      let s := sMbx x.1 x.2.1 x.2.2
      Awake s ∧ s.sec.mbxOp = some ⟨x.1, x.2.1, 0, x.2.2⟩ ∧ s.sec.queue.head? = some tqMailbox ∧ mbxBufOk 0 1 s = true ∧
      mbxBufOk 0 5 s = true) ∧
    (readCompanion true none (winBase (sMbx 2 10 false) + bufOff 0) 1 (cached 1 (sMbx 2 10 false))).2 = some (zs 64) := by decide +kernel

theorem gather_isSome (k : Nat) : ∀ (line : Nat) (s : State), s.taith.cache = [] →
    (∀ i, i < k → (lineAt true none s.taith (line + 64 * i)).isSome) → (gather true none line k s).2.isSome := by
  induction k with
  | zero => intro line s _ _; simp [gather]
  | succ k ih =>
    intro line s hc h
    obtain ⟨b, hb⟩ := Option.isSome_iff_exists.mp (h 0 (by omega))
    have hs : modTaith (cacheUse line) s = s := by simp [modTaith, cacheUse, cacheGet, hc]
    have := ih (line + 64) s hc (fun i hi => by
      have := h (i + 1) (by omega)
      rwa [show line + 64 * (i + 1) = line + 64 + 64 * i by omega] at this)
    simp only [Nat.mul_zero, Nat.add_zero] at hb
    simp [gather, hb, hs, this]

theorem witness_MailboxAndManagementAct_token :
    (∃ b, (readCompanion true none (winBase (sMbx 4 0 false) + bufOff 0) 320 (cached 320 (sMbx 4 0 false))).2 = some b) ∧
    tokenRefused (sMbx 4 0 false) [] = some 3 := by
  refine ⟨Option.isSome_iff_exists.mp (gather_isSome 320 _ _ rfl fun i hi => ?_), by decide +kernel⟩
  have hz : winBase (sMbx 4 0 false) + bufOff 0 = 0 := by decide +kernel
  have : ((cached 320 (sMbx 4 0 false)).taith.held.find? fun h => h.1 == none && h.2.1 == 64 * i).isSome := by
    rw [List.find?_isSome]
    exact ⟨(none, 64 * i, zs 64), List.mem_map.mpr ⟨i, List.mem_range.mpr hi, rfl⟩, by simp⟩
  obtain ⟨x, hx⟩ := Option.isSome_iff_exists.mp this
  rw [hz, Nat.zero_add]
  unfold lineAt
  rw [if_pos rfl, hx]
  rfl

theorem witness_MailboxAndManagementAct_mctp :
    let st := fun (checked pldm : Bool) (now : Nat) =>
      { withSec (fun c => { c with staging := some ⟨[], checked, pldm, 5⟩ }) sUp with now := now }
    let b := withCmds [{ entry .mgmt 0x91 0 [] with phase := .running }] sUp
    Awake State.reset ∧ mctpUp State.reset = false ∧ mctpUp sUp = true ∧ pldmHeld sUp = false ∧ fwBusy sUp = false ∧
    mctpUp (st true true 6) = true ∧ pldmHeld (st true true 6) = true ∧ mctpUp b = true ∧ fwBusy b = true ∧
    Awake (st false true 6000000005) ∧ (5 : Nat) + 6000000000 ≤ (st false true 6000000005).now ∧ (st true true 6).now < 5 + 6000000000 ∧
    companionBoot (st true true 6) = false ∧ (st true true 6).sec.current ≤ 1 ∧ (st true true 6).chipStage = 2 := by decide +kernel

/-! ### Register access -/

theorem witness_BadAccessesReadZeroAndAreLogged_bad :
    let s := sets [(Reg.FLT_RING_CFG, Reg.FLT_RING_CFG_ENABLE, 1), (Reg.FLT_RING_CFG, Reg.FLT_RING_CFG_SIZE, 8)] sUp
    Awake s ∧ s.chipStage = 2 ∧ ((4 : Nat) ≠ 8 ∨ 12 % 8 ≠ 0) ∧ s.sev 0 ≤ 2 ∧ (s.setFld (Reg.FLT_SRC_SEV 18) Reg.FLT_SRC_SEV_SEV 2).sev 18 = 2 ∧
    s.sev 0 = 1 ∧ ringRoom s = true ∧ (∀ x ∈ s.flt.kept, x.source ≠ 0) := by decide +kernel

/-- Registers of the chip with no effect of their own. -/
def plainRegs : List Nat := [Reg.PWR_COOL_CFG, Reg.TAITH_KA, Reg.TAITH_LOSS_CFG, Reg.BOOT_IMG_ADDR]

theorem witness_BadAccessesReadZeroAndAreLogged_good :
    let off := { sUp with pwr := { sUp.pwr with domains := 0 } }
    Awake off ∧ accessCheck (.eland 0) false (Reg.PWR_COOL_CFG) 8 0 sUp = .ok ∧ (∀ n, unalias Reg.PWR_COOL_CFG ≠ Reg.SCAN_DATA n) ∧
    accessCheck (.eland 0) false (Reg.RGN_RATE 3) 8 0 off = .silent ∧ accessCheck (.eland 0) true (Reg.RGN_STALL_LIMIT 3) 8 0 off = .silent ∧
    ∀ b ∈ plainRegs, accessCheck (.eland 0) true b 8 5 sUp = .ok ∧ PlainReg (unalias b) := by
  unfold PlainReg
  decide +kernel

/-! ### The Taith link -/

theorem witness_TaithMessagesAndLossAct_registers :
    let off := sUp.setDom (rgnDom 3) false
    Linked sUp ∧ accessCheck .companion false Reg.PWR_COOL_CFG 8 0 sUp = .ok ∧ rgnOf (unalias Reg.PWR_COOL_CFG) = none ∧
    Linked off ∧ accessCheck .companion false (Reg.RGN_RATE 3) 8 0 off = .silent ∧ accessCheck .companion false 12 8 0 sUp = .bad ∧
    sUp.chipStage = 2 ∧ accessCheck .companion true (Reg.RGN_STALL_LIMIT 3) 8 5 off = .silent ∧
    ∀ b ∈ plainRegs, accessCheck .companion true b 8 5 sUp = .ok ∧ PlainReg (unalias b) := by
  unfold PlainReg
  decide +kernel

theorem witness_TaithMessagesAndLossAct_messages :
    let p := { sPkg with poison := [herdAddr 0 (4096 * 40000) / 64] }
    let r : RdReq := ⟨5, 640, true, none, []⟩
    let s := { sUp with taith := { sUp.taith with reads := [r] } }
    Linked sPkg ∧ herdHolder sPkg 0 39999 = none ∧ herdHolder sPkg 0 40000 = some 0 ∧ herdAddr 0 (4096 * 40000) / 64 ∉ sPkg.poison ∧
    Linked p ∧ herdAddr 0 (4096 * 40000) / 64 ∈ p.poison ∧ (∀ q ∈ sUp.taith.reads, q.window = true → q.addr ≠ 640) ∧
    Linked s ∧ s.taith.reads.find? (fun r => r.tag == 5) = some r ∧ (∀ u ∈ sUp.mgmtCq.unacked, u.1 ≠ 5) ∧
    (∀ p, ∀ u ∈ (sUp.part p).cq.unacked, u.1 ≠ 5) ∧ sUp.taith.waiting = [] ∧ msgClass 0x1F ≠ 1 := by decide +kernel

theorem witness_TaithMessagesAndLossAct_loss :
    let l := { sPkg with taith := { sPkg.taith with lossAt := some 5 }, now := 10 ^ 10 }
    let c := l.setFld Reg.TAITH_LOSS_CFG Reg.TAITH_LOSS_CFG_PARK_TICKS 10
    let z := l.setFld Reg.TAITH_LOSS_CFG Reg.TAITH_LOSS_CFG_PARK_TICKS 0
    let k := { sUp with now := 10 ^ 10 }
    let d := sUp.setFld Reg.TAITH_STATUS Reg.TAITH_STATUS_LINK_UP 0
    let v : Word := 1
    Linked k ∧ k.taith.lastTx + kaPeriod k ≤ k.now ∧ sUp.now < sUp.taith.lastTx + kaPeriod sUp ∧ k.taith.lastRx + kaTimeout k ≤ k.now ∧
    sUp.now < sUp.taith.lastRx + kaTimeout sUp ∧ Awake c ∧ c.taith.lossAt = some 5 ∧
    c.fld Reg.TAITH_LOSS_CFG Reg.TAITH_LOSS_CFG_PARK_TICKS = 10 ∧ 5 + 10 ≤ c.now ∧ c.chipStage = 2 ∧ aSession ∈ (c.part 0).sessions ∧
    aSession.st = .opened ∧ busy c 0 aSession.handle = false ∧ z.fld Reg.TAITH_LOSS_CFG Reg.TAITH_LOSS_CFG_PARK_TICKS = 0 ∧
    Awake d ∧ linkUp d = false ∧ d.domOn (chipDom 3) = true ∧ Writes (.eland 0) Reg.TAITH_RESUME v sUp ∧ linkUp sUp = true := by
  decide +kernel

theorem witness_TaithMessagesAndLossAct_resume :
    let s := sPart.modPart 0 fun p => { p with stopped := true }
    let d := sUp.setFld Reg.TAITH_STATUS Reg.TAITH_STATUS_LINK_UP 0
    let v : Word := 1
    Writes (.eland 0) Reg.TAITH_RESUME v s ∧ linkUp s = true ∧ v.getLsbD 0 = true ∧ (s.part 0).stopped = true ∧
    shadowed (s.part 0).cq = 0 ∧ v.getLsbD 1 = false ∧ Writes (.eland 0) Reg.TAITH_RESUME v d ∧ linkUp d = false := by decide +kernel

end Sys2Proof.Tests
end

