-- ==== Sys2Proof/WellFormed.lean ====
section
/-!
DEFINITION. Well-formed commands: the operands that arrive from outside in the sizes the spec gives them. Only data
whose size the spec fixes is checked; a bad address, width or field value is not ill-formed, because the spec says what
the device does with it.
-/

namespace Sys2Proof

/-- A register access is 1, 2, 4, 8 or more bytes, a power of two that the WIDTH code of Table 17.5 can tell. -/
def widthOk (w : Nat) : Bool := decide (w ∈ [1, 2, 4, 8, 16, 32, 64])

/-- A register address is below 2^32 (Table 13.2). -/
def addrOk (a : Nat) : Bool := decide (a < 2 ^ 32)

/-- An Axium message: no data, or a tile, with a byte-enable block or none (Table 14.4). -/
def AxMsg.ok (m : AxMsg) : Bool :=
  decide (m.data.length = 0 ∨ m.data.length = 4096) && decide (m.enables.length = 0 ∨ m.enables.length = 512)

/-- One window's measurements: 16 regions and 16 stacks at most (R386). -/
def PowerSample.ok (m : PowerSample) : Bool :=
  decide (m.rgnPower.length = 16) && decide (m.rgnTemp.length = 16) && decide (m.hbmTemp.length ≤ 16)

/-- The checks of one command. -/
def WellFormed : Instr → Bool
  | .registerWrite _ a w _ => addrOk a && widthOk w
  | .rcRead _ a w => addrOk a && widthOk w
  | .badRead _ a w => addrOk a && widthOk w
  | .regRd _ a _ => addrOk a
  | .regWr a _ _ => addrOk a
  | .herdWr _ _ _ d _ => decide (d.length = 64)
  | .data _ err d _ => err || decide (d.length = 64)
  | .hello _ nonce short => short || decide (nonce.length = 32)
  | .axiumAck _ m => m.ok
  | .nak _ m => m.ok
  | .tileGet _ m => m.ok
  | .tilePut _ m => m.ok
  | .tileData _ m => m.ok
  | .syncSignal _ m => m.ok
  | .lendAsk _ m => m.ok
  | .lendGrant _ m => m.ok
  | .lendRecall _ m => m.ok
  | .lendReturn _ m => m.ok
  | .probe _ m => m.ok
  | .powerWindow m => m.ok
  | _ => true

end Sys2Proof
end

