-- ==== Sys2Proof/Tests/Slice0.lean ====
section
/-!
SUPPORT. The author's own tests: each check of WellFormed refuses an ill-formed command, the register file after reset reads as
the spec's tables say, and single steps give the results of the spec's worked examples and tables.
-/

namespace Sys2Proof.Tests

set_option Elab.async false

open Sys2Proof.Machine

/-- The next state of an outcome, or the state it started from. -/
def after (s : State) : Host.Outcome State Fault Refusal → State
  | .next t => t
  | _ => s

/-! ### WellFormed -/

theorem test_wf_register_address : WellFormed (.registerWrite .companion (2 ^ 32) 8 0) = false ∧
    WellFormed (.rcRead .companion (2 ^ 32) 8) = false ∧ WellFormed (.badRead .companion (2 ^ 32) 8) = false ∧
    WellFormed (.regRd 0 (2 ^ 32) ⟨3, 0⟩) = false ∧ WellFormed (.regWr (2 ^ 32) 0 ⟨3, 0⟩) = false ∧
    WellFormed (.registerWrite .companion 8 8 0) = true := by decide

theorem test_wf_register_width : WellFormed (.registerWrite .companion 8 3 0) = false ∧ WellFormed (.rcRead .companion 8 0) = false ∧
    WellFormed (.badRead .companion 8 128) = false ∧ WellFormed (.badRead .companion 8 4) = true := by decide

theorem test_wf_herd_line : WellFormed (.herdWr 0 0 0 [] ⟨3, 0⟩) = false ∧ WellFormed (.herdWr 0 0 0 (zs 64) ⟨3, 0⟩) = true := by decide

theorem test_wf_data_line : WellFormed (.data 0 false [] ⟨3, 0⟩) = false ∧ WellFormed (.data 0 true [] ⟨3, 0⟩) = true := by decide

theorem test_wf_hello_nonce : WellFormed (.hello 0 [] false) = false ∧ WellFormed (.hello 0 [] true) = true := by decide

/-- A message with one byte of data, and one with one byte of enables: neither is a tile or a byte-enable block. -/
def shortMsg : AxMsg := { aMsg 0 with data := [0] }
def shortBlock : AxMsg := { aMsg 0 with data := [], enables := [0] }

theorem test_wf_axium : ∀ m ∈ [shortMsg, shortBlock],
    ∀ i ∈ [Instr.axiumAck 0 m, .nak 0 m, .tileGet 0 m, .tilePut 0 m, .tileData 0 m, .syncSignal 0 m, .lendAsk 0 m, .lendGrant 0 m,
      .lendRecall 0 m, .lendReturn 0 m, .probe 0 m], WellFormed i = false := by decide

theorem test_wf_axium_good : WellFormed (.probe 0 { aMsg 0 with data := [] }) = true := by decide

theorem test_wf_window : WellFormed (.powerWindow ⟨0, 0, [], [], 0, []⟩) = false ∧
    WellFormed (.powerWindow ⟨0, 0, List.replicate 16 0, List.replicate 16 0, 0, []⟩) = true := by decide

/-! ### Reset -/

/-- Of the chip domains only 6 is off after a start, for debug is locked (Table 16.2). -/
theorem test_reset_chip_domains : ∀ k : Fin 8, State.reset.domOn (chipDom k) = decide (k ≠ 6) := by decide +kernel

/-- Until the first POWER_POLICY the device runs the reset profile (before R388). -/
theorem test_reset_profile : polRamp State.reset = true ∧ polBallast State.reset = false ∧ polGate State.reset = false ∧
    polNat State.reset 0x04 2 = 950 ∧ polNat State.reset 0x06 2 = 50 ∧ polNat State.reset 0x08 2 = 50 ∧ polNat State.reset 0x0A 2 = 0 ∧
    polNat State.reset 0x0C 2 = 300 ∧ polNat State.reset 0x0E 2 = 250 ∧ polNat State.reset 0x10 4 = 100000000 ∧
    polNat State.reset 0x14 4 = 0 ∧ polNat State.reset 0x18 4 = 0 ∧ (∀ n : Fin 16, polVSet State.reset n.val = 25) ∧
    polNat State.reset 0x30 2 = 0 ∧ polNat State.reset 0x32 1 = 100 := by decide +kernel

/-- On an empty queue a step is one tick of local time. -/
theorem test_idle_tick : step State.reset = .next { State.reset with now := 1 } := rfl

/-! ### Addresses: the worked examples 'locating cell (141, 40)' and 'decoding addresses' -/

theorem test_cell_of_example : cellAt 21 16 = 64 * 8 + 5 ∧ gxOf (64 * 8 + 5) = 21 ∧ gyOf (64 * 8 + 5) = 16 := by decide

theorem test_addresses_of_example : unalias 0x013810F8 = Reg.FLT_SRC_SEV 275 ∧ Reg.FLT_SRC_SEV 275 = 0x31898 ∧
    Reg.BAR_STATE 63 = 0x703F8 ∧ (findReg 0x01D30218).map (fun r => (r.1.name, r.2)) = some ("KV_WALK_LIST", 1) := by decide +kernel

theorem test_accesses_of_example : accessCheck (.service 3) false 0x013810F8 8 0 sUp = .ok ∧
    accessCheck .companion false 0x01D30248 8 0 sUp = .bad ∧ accessCheck (.eland 0) false 0x00023800 8 0 sUp = .bad ∧
    accessCheck (.eland 1) false 0x00050024 4 0 sUp = .bad ∧ accessCheck .companion false 0x012B0018 8 0 sUp = .silent ∧
    accessCheck (.eland 1) false 0x000703F8 8 0 sUp = .ok := by decide +kernel

/-! ### Cells -/

/-- The control tokens of 'three flits steered in slot 2': select with set 1, drop, pass. -/
theorem test_control_tokens : [0x46, 0x0A, 0x02].map (fun t => (t % 4, ctlOp t, ctlArg t, ctlUnit t)) =
    [(2, 1, 1, false), (2, 2, 0, false), (2, 0, 0, false)] := by decide

/-- 'One MXFP4 step': 1.25 and a sum of 2 at scale 2 give 5.25. -/
theorem test_mxfp4_step :
    (macSteps (product 11 [0x7E, 0x81] [0x71C3] [0x1E24] 0 0) (macDepth 11) 4 1 0 (0x3FA00000, Flags.none)).1 = 0x40A80000 := by
  decide +kernel

/-! ### Plans: 'a fixed tiled product' and 'a ragged batch' -/

def productEntry : Nat := 0x381 + 2 ^ 64 * 0x00010BFF + 2 ^ 96 * 0x00020BFF + 2 ^ 128 * 0x00030FFF

theorem test_product_entry : eType productEntry = 1 ∧ eSlot productEntry = 0 ∧ eRed productEntry = true ∧ eNdim productEntry = 3 ∧
    dimTile productEntry 0 = 192 ∧ dimTile productEntry 2 = 256 ∧ entryIters productEntry [] = 24 := by decide

def raggedEntry : Nat :=
  0x701 + 2 ^ 64 * (0 + 16 * 31 + 2 ^ 16 * 3) + 2 ^ 96 * (15 + 16 * 1151 + 2 ^ 16 * 1) + 2 ^ 128 * (15 + 16 * 255 + 2 ^ 16 * 2)

theorem test_ragged_entry : entryIters raggedEntry [37] = 12 ∧ dimExtent raggedEntry [37] 0 1 = 5 ∧ eExt raggedEntry = true := by decide

/-! ### Experts: 'overflow and a drop' -/

theorem test_overflow_and_a_drop :
    let r := placeRows 2 2 [[2, 0, 4, 1], [2, 0, 5, 3], [2, 0, 5, 4], [0, 2, 5, 1], [2, 0, 5, 4]] (List.replicate 6 ⟨0, 0, 0⟩)
    r.1 = [some [(2, 0), (0, 0)], some [(2, 1), (0, 1)], some [(5, 0), (4, 0)], some [(5, 1), (1, 0)], none] ∧
    r.2 = [⟨2, 0, 3⟩, ⟨1, 1, 0⟩, ⟨2, 0, 3⟩, ⟨0, 0, 0⟩, ⟨1, 1, 0⟩, ⟨2, 2, 1⟩] := by decide

/-! ### Tiers: 'cutting a herd quota' -/

/-- A session parked in the herd from tile `t`, with `k` seconds to live, and the tiles of its park copy. -/
def parkedFor (h k : Nat) : Session := { aParked with handle := BitVec.ofNat 32 h, ttl := 100000000 * k }
def sQuota : State :=
  let s := sPart.modPart 0 fun p => { p with
    sessions := [parkedFor 0x104 40, parkedFor 0x31 40, parkedFor 0x290 5, parkedFor 0x77 300],
    allocs := [⟨⟨0, 2, 50000, 12000⟩, .park 0x104⟩, ⟨⟨0, 2, 100000, 15000⟩, .park 0x31⟩, ⟨⟨0, 2, 120000, 9000⟩, .park 0x290⟩,
      ⟨⟨0, 2, 140000, 20000⟩, .park 0x77⟩, ⟨⟨0, 2, 200000, 234000⟩, .alloc⟩] }
  withCmds [mgmtCmd 0x43 ([0, 2, 1, 0] ++ zs 4 ++ leBytes 8 260000)] s

theorem test_quota_reclaims_by_expiry :
    let t := after sQuota (execQuotaSet .mgmt (choose 0 0) sQuota)
    usage sQuota 0 2 = 290000 ∧ (t.part 0).sessions.map Session.handle = [0x77] ∧ usage t 0 2 = 254000 ∧ quotaOf t 0 2 = 260000 ∧
    t.cmds.map Cmd.detail = [3] := by decide +kernel

/-! ### Fold: 'a power failure on region 11' -/

theorem test_write_buffer_limit :
    wbufUnits (sets [(Reg.FOLD_GEOM 11, Reg.FOLD_GEOM_TARGETS, 8), (Reg.FOLD_GEOM 11, Reg.FOLD_GEOM_PLANES, 1),
      (Reg.FOLD_GEOM 11, Reg.FOLD_GEOM_TPROG_MAX, 250), (Reg.FOLD_GEOM 11, Reg.FOLD_GEOM_TBERS_MAX, 60)] sUp) 11 = 128 := by
  decide +kernel

/-! ### Faults: 'corrected errors faster than the ring is read', at the end of the burst -/

/-- The kept store as the example leaves it, with the ring read up to record 50. -/
def sKept : State :=
  let m := mkReport 275 1 false false false ⟨none, 0, 0⟩ sUp
  let f := { m with serial := 0x12A02 }
  let l := { m with serial := 0x12A28, lost := 36, count := 37 }
  let o := { mkReport 18 1 false false false ⟨none, 0, 0⟩ sUp with serial := 0x12A03 }
  let s := sets [(Reg.FLT_RING_PTR, Reg.FLT_RING_PTR_HEAD, 51), (Reg.FLT_RING_PTR, Reg.FLT_RING_PTR_TAIL, 40),
    (Reg.FLT_SRC_STAT 275, Reg.FLT_SRC_STAT_KEPT, 2), (Reg.FLT_SRC_STAT 18, Reg.FLT_SRC_STAT_KEPT, 1)] sRing
  { s with flt := { s.flt with kept := [⟨18, o, none⟩, ⟨275, f, some l⟩] } }

theorem test_kept_records_drain_by_source :
    let t := after sKept (execKeptDrain sKept)
    let b := t.load (herdAddr (ringRgn t) (64 * 40)) 64
    t.fld Reg.FLT_RING_PTR Reg.FLT_RING_PTR_TAIL = 41 ∧ t.flt.kept.map Kept.source = [275] ∧
    leAt b 0 4 = 0x12A03 ∧ leAt b 4 2 = 18 ∧ leAt b 0x16 1 = 1 ∧ leAt b 0x1C 4 = 0 := by decide +kernel

theorem test_kept_record_counts_the_lost :
    let s := { sKept with flt := { sKept.flt with kept := sKept.flt.kept.filterMap fun k => k.last.map fun r => ⟨275, r, none⟩ } }
    let t := after s (execKeptDrain s)
    let b := t.load (herdAddr (ringRgn t) (64 * 40)) 64
    t.flt.kept = [] ∧ leAt b 0 4 = 0x12A28 ∧ leAt b 4 2 = 275 ∧ leAt b 0x16 1 = 37 ∧ leAt b 0x1C 4 = 36 := by decide +kernel

/-! ### Signals: Table 20.9 -/

theorem test_signals_while_por_n_is_low :
    (Signal.axTx 3).level sPor = some .electricalIdle ∧ (Signal.nandWpN 5).level sPor = some .low ∧
    Signal.xspiCsN.level sPor = some .high ∧ Signal.jtagTdo.level sPor = some .highImpedance ∧
    Signal.errN.level sPor = some .released := by decide +kernel

theorem test_signals_after_por_n :
    Signal.avsClk.level State.reset = none ∧ (Signal.ddrResetN 0).level State.reset = some .low ∧
    (Signal.ddrOther 0).level (sets [(Reg.BOOT_RGN 0, Reg.BOOT_RGN_HERD_OK, 1)] State.reset) = none ∧
    (Signal.nandCeN 0).level (sets [(Reg.BOOT_RGN 0, Reg.BOOT_RGN_HERD_OK, 1)] State.reset) = some .highImpedance := by
  decide +kernel

end Sys2Proof.Tests
end

section
/-!
PROOFS. Register addresses, what a read clears, and what a write of a plain register and of some registers with rows of
their own does (19_registers.md).
-/

namespace Sys2Proof.Machine

/-! ### Addresses -/

theorem rgnOf_eq_some {a : Nat} {n : Rgn} (h : rgnOf a = some n) : rgnBase n ≤ a ∧ a < rgnBase n + 0x100000 := by
  unfold rgnOf at h
  split at h
  · obtain rfl := Option.some.inj h
    simp only [rgnBase]
    omega
  · cases h

theorem rgnOf_rgnBase_add (n : Rgn) {o : Nat} (h : o < 0x100000) : rgnOf (rgnBase n + o) = some n := by
  have hn := n.isLt
  unfold rgnOf
  rw [dif_pos (by simp only [rgnBase]; omega)]
  exact congrArg some (Fin.ext (by simp only [rgnBase]; omega))

theorem unalias_chip {a : Nat} (h : rgnOf a = none) : unalias a = a := by simp [unalias, h]

theorem rgnOf_scanData (n : Rgn) : rgnOf (Reg.SCAN_DATA n) = some n := rgnOf_rgnBase_add n (by decide)

/-- Past the fault and interrupt block of a region, every address is its own (R454). -/
theorem unalias_past_block {a : Nat} {n : Rgn} (hn : rgnOf a = some n) (h : 0x90000 ≤ a - rgnBase n) : unalias a = a := by
  simp only [unalias, hn]
  rw [if_neg (by omega), if_neg (by omega), if_neg (by omega), if_neg (by omega)]

theorem scanData_sub_base (n : Rgn) : Reg.SCAN_DATA n - rgnBase n = 0xb0018 := Nat.add_sub_cancel_left ..

theorem unalias_scanData (n : Rgn) : unalias (Reg.SCAN_DATA n) = Reg.SCAN_DATA n :=
  unalias_past_block (rgnOf_scanData n) (by rw [scanData_sub_base]; decide)

/-! ### Reads -/

theorem getLsbD_accMask {a : Acc} {f : Fld} {k : Nat} :
    ∀ {fs : List Fld}, f ∈ fs → f.acc = a → f.mask.getLsbD k = true → (accMask a fs).getLsbD k = true := by
  intro fs
  induction fs with
  | nil => intro h; cases h
  | cons g gs ih =>
    intro hm ha hk
    rcases List.mem_cons.mp hm with rfl | hm
    · simp [accMask, ha, hk]
    · have := ih hm ha hk
      unfold accMask
      split <;> simp [this]

/-- Fields of an access type read zero in a value whose bits of that type are masked off. -/
theorem Fld.get_and_not_accMask {a : Acc} {f : Fld} {fs : List Fld} (hm : f ∈ fs) (ha : f.acc = a) (v : Word) :
    f.get (v &&& ~~~ accMask a fs) = 0 := by
  apply Nat.eq_of_testBit_eq
  intro i
  rw [Fld.testBit_get, Nat.zero_testBit]
  by_cases hi : i < f.w ∧ f.lo + i < 64
  · have : f.mask.getLsbD (f.lo + i) = true := by simp [Fld.getLsbD_mask, hi]
    simp [getLsbD_accMask hm ha this]
  · by_cases hw : i < f.w
    · rw [BitVec.getLsbD_of_ge _ _ (by omega), Bool.and_false]
    · simp [hw]

/-- A read of a register other than SCAN_DATA clears its RC fields and leaves the rest of the machine alone (R447). -/
theorem readEffect_plain {u : Nat} (h : ∀ n, u ≠ Reg.SCAN_DATA n) (s : State) :
    readEffect u s = s.setReg u (clearRc (fieldsAt u) (s.reg u)) := by
  unfold readEffect
  split
  · rw [if_neg (h _)]
  · rfl

theorem readEffect_of_eq_scanData {u : Nat} {n : Rgn} (hn : rgnOf u = some n) (h : u = Reg.SCAN_DATA n) (s : State) :
    readEffect u s = scanAfter n s := by
  simp only [readEffect, hn, if_pos h]

/-- A read of SCAN_DATA moves the scan address instead (R122). -/
theorem readEffect_scanData (n : Rgn) : readEffect (Reg.SCAN_DATA n) = scanAfter n :=
  funext fun s => readEffect_of_eq_scanData (rgnOf_scanData n) rfl s

theorem readReg_snd (who : Requester) (a width : Nat) (s : State) :
    (readReg who a width s).2 = guardRead who a width (readEffect (unalias a)) s := by
  cases h : accessCheck who false a width 0 s <;> simp only [readReg, guardRead, h]

theorem sameButRegs_setReg (s : State) (a : Nat) (v : Word) : SameButRegs [a] s (s.setReg a v) :=
  ⟨rfl, fun _ hb => reg_setReg_other s (by simpa using hb) v⟩

/-! ### Writes -/

theorem writeRgn_plain (who : Requester) {n : Rgn} {u : Nat} (hn : rgnOf u = some n) (h : PlainReg u) (v : Word) (s : State) :
    writeRgn who n (u - rgnBase n) v s = plainWrite u v s := by
  obtain ⟨hl, hr⟩ := h.1 n hn
  have hb := (rgnOf_eq_some hn).1
  simp only [List.mem_cons, List.not_mem_nil, or_false, not_or] at hl
  have hu : rgnBase n + (u - rgnBase n) = u := by omega
  have ho : ¬ (0x20000 ≤ u - rgnBase n ∧ u - rgnBase n < 0x20060) := by omega
  simp only [writeRgn, hu, ho, hl, if_false]

theorem writeChip_plain {u : Nat} (hn : rgnOf u = none) (h : PlainReg u) (a : Nat) (v : Word) (s : State) :
    writeChip a u v s = plainWrite u v s := by
  obtain ⟨hl, hEn, hQ, hSev, hRing, hBar⟩ := h.2 hn
  simp only [List.mem_cons, List.not_mem_nil, or_false, not_or] at hl
  have out {lo hi lo' hi' : Nat} (h : u < lo ∨ hi ≤ u) (h1 : lo ≤ lo') (h2 : hi' ≤ hi) : ¬ (lo' ≤ u ∧ u < hi') := by omega
  have out' {lo hi : Nat} {p : Prop} (h : u < lo ∨ hi ≤ u) : ¬ (lo ≤ u ∧ u < hi ∧ p) := by omega
  simp (disch := decide) only [writeChip, hl, if_false, out hEn, out hSev, out hRing, out' hQ, out' hBar]

theorem valueOf_plain {u : Nat} (h : u < 0x20800 ∨ 0x20C80 ≤ u) (who : Requester) (v : Word) (s : State) :
    valueOf who u v s = v := by
  unfold valueOf
  split
  · rw [if_neg (by omega)]
  · rfl

/-- A write of a register with no effect of its own is a plain write of its fields (R446). -/
theorem writeEffect_plain {a : Nat} (h : PlainReg (unalias a)) (who : Requester) (v : Word) (s : State) :
    writeEffect who a v s = plainWrite (unalias a) v s := by
  cases hn : rgnOf (unalias a) with
  | some n => simp only [writeEffect, hn, writeRgn_plain who hn h]
  | none =>
    obtain ⟨_, _, hq, _⟩ := h.2 hn
    simp only [writeEffect, hn, valueOf_plain hq, writeChip_plain hn h]

theorem writeEffect_of_eq_scanData {u : Nat} {n : Rgn} (hn : rgnOf u = some n) (h : u = Reg.SCAN_DATA n) (who : Requester) (v : Word)
    (s : State) : writeEffect who u v s = doScanWrite n v s := by
  have hb : u = rgnBase n + 0xb0018 := h
  have hu : rgnBase n + (u - rgnBase n) = u := by omega
  have ho : ¬ (0x20000 ≤ u - rgnBase n ∧ u - rgnBase n < 0x20060) := by omega
  have past : 0x90000 ≤ u - rgnBase n := by omega
  have apart {o : Nat} (ho : o ≠ 0xb0018) : u ≠ rgnBase n + o := by omega
  simp (disch := decide) only [writeEffect, unalias_past_block hn past, hn, writeRgn, hu, ho, if_pos h, if_false, Reg.SEQ_CTRL,
    Reg.CMD_CQ_MOD, Reg.FOLD_MBX_CMD, Reg.FAB_PORT_CFG, Reg.SYNC_FORCE, Reg.CTX_LOAD, Reg.CTX_FLUSH, Reg.SCAN_CTRL, apart]

/-- A write of SCAN_DATA is the scan write (R123). -/
theorem writeEffect_scanData (n : Rgn) (who : Requester) (v : Word) : writeEffect who (Reg.SCAN_DATA n) v = doScanWrite n v :=
  funext fun s => writeEffect_of_eq_scanData (rgnOf_scanData n) rfl who v s

/-- A chip register beside those of the event queues takes the value that the write brings (R450). -/
theorem writeEffect_chip {a : Nat} (hn : rgnOf a = none) (hq : a < 0x20800 ∨ 0x20C80 ≤ a) (who : Requester) (v : Word) (s : State) :
    writeEffect who a v s = writeChip a a v s := by
  simp only [writeEffect, unalias_chip hn, hn, valueOf_plain hq]

theorem writeEffect_fabChipId (who : Requester) (v : Word) : writeEffect who Reg.FAB_CHIP_ID v = doChipId v :=
  funext fun s => writeEffect_chip (by decide) (by decide) who v s

theorem writeEffect_pwrRmKick (who : Requester) (v : Word) : writeEffect who Reg.PWR_RM_KICK v = doRmKick v :=
  funext fun s => writeEffect_chip (by decide) (by decide) who v s

theorem writeEffect_taithResume (who : Requester) (v : Word) : writeEffect who Reg.TAITH_RESUME v = doResume v :=
  funext fun s => writeEffect_chip (by decide) (by decide) who v s

end Sys2Proof.Machine
end

section
/-!
PROOFS. What the fault and interrupt units may change, one report of a chip source and the reports that follow it, and the
record that stands in the ring (17_faults.md).
-/

namespace Sys2Proof.Machine

/-! ### What the fault unit may change -/

/-- COUNT and LAST_SERIAL of a source read as before. -/
def SameTally (src : Nat) (s t : State) : Prop :=
  t.fld (Reg.FLT_SRC_STAT src) Reg.FLT_SRC_STAT_COUNT = s.fld (Reg.FLT_SRC_STAT src) Reg.FLT_SRC_STAT_COUNT ∧
  t.fld (Reg.FLT_SRC_STAT src) Reg.FLT_SRC_STAT_LAST_SERIAL = s.fld (Reg.FLT_SRC_STAT src) Reg.FLT_SRC_STAT_LAST_SERIAL

theorem SameTally.trans {src : Nat} {s t u : State} (h : SameTally src s t) (g : SameTally src t u) : SameTally src s u :=
  ⟨g.1.trans h.1, g.2.trans h.2⟩

theorem SameTally.of_reg {src : Nat} {s t : State} (h : t.reg (Reg.FLT_SRC_STAT src) = s.reg (Reg.FLT_SRC_STAT src)) :
    SameTally src s t := by
  simp only [SameTally, State.fld, h, and_self]

/-- The fault and interrupt units work on their own registers and state: nothing outside them differs but memory, no
severity differs, and COUNT and LAST_SERIAL of the source `src` read as before. -/
structure FaultFrame (src : Nat) (s t : State) : Prop where
  outside : ∀ b, b < 0x20000 ∨ 0x40000 ≤ b → t.reg b = s.reg b
  severity : ∀ j, j < 1024 → t.sev j = s.sev j
  tally : SameTally src s t
  machine : SameMachine s { t with mem := s.mem }

/-- A field of FLT_SRC_STAT beside COUNT and LAST_SERIAL. -/
abbrev BesideTally (f : Fld) : Prop := f.lo + f.w ≤ 8 ∨ 16 ≤ f.lo ∧ f.lo + f.w ≤ 32

/-- A register of the fault and interrupt units that is neither a severity nor the state of the source `src`. -/
def UnitReg (src a : Nat) : Prop := 0x20000 ≤ a ∧ a < 0x40000 ∧ (a < 0x31000 ∨ 0x33000 ≤ a) ∧ a ≠ Reg.FLT_SRC_STAT src

/-- The state `s` with the registers, fault and interrupt units, level of ERR_N and free counter of `u`. -/
def withUnitsOf (u s : State) : State :=
  { s with regs := u.regs, flt := u.flt, pins := { s.pins with errN := u.pins.errN }, free := u.free }

theorem sameMachine_trans {s t u : State} (h : SameMachine s { t with mem := s.mem }) (g : SameMachine t { u with mem := t.mem }) :
    SameMachine s { u with mem := s.mem } :=
  calc { u with mem := s.mem }
    _ = withUnitsOf u { t with mem := s.mem } := congrArg (fun x : State => { x with mem := s.mem }) g
    _ = withUnitsOf u (withUnitsOf t s) := congrArg (withUnitsOf u) h

namespace FaultFrame

variable {src : Nat} {s t u : State}

theorem refl (src : Nat) (s : State) : FaultFrame src s s := ⟨fun _ _ => rfl, fun _ _ => rfl, ⟨rfl, rfl⟩, rfl⟩

theorem trans (h : FaultFrame src s t) (g : FaultFrame src t u) : FaultFrame src s u where
  outside b hb := (g.outside b hb).trans (h.outside b hb)
  severity j hj := (g.severity j hj).trans (h.severity j hj)
  tally := h.tally.trans g.tally
  machine := sameMachine_trans h.machine g.machine

theorem ite {p : Prop} [Decidable p] (ht : FaultFrame src s t) (hu : FaultFrame src s u) :
    FaultFrame src s (if p then t else u) := by
  split
  · exact ht
  · exact hu

theorem setReg (h : FaultFrame src s t) {a : Nat} (ha : UnitReg src a) (v : Word) : FaultFrame src s (t.setReg a v) := by
  obtain ⟨hlo, hhi, hsev, hst⟩ := ha
  refine h.trans ⟨fun b hb => reg_setReg_other t (by omega) v, fun j hj => ?_, .of_reg (reg_setReg_other t hst.symm v), rfl⟩
  have : Reg.FLT_SRC_SEV j ≠ a := by simp only [Reg.FLT_SRC_SEV]; omega
  simp only [State.sev, fld_setReg_other t this]

theorem setFld (h : FaultFrame src s t) {a : Nat} (ha : UnitReg src a) (f : Fld) (x : Nat) : FaultFrame src s (t.setFld a f x) :=
  h.setReg ha _

theorem bump (h : FaultFrame src s t) {a : Nat} (ha : UnitReg src a) (f : Fld) (k : Nat) : FaultFrame src s (t.bump a f k) :=
  h.setReg ha _

/-- A field beside COUNT and LAST_SERIAL of any source may change. -/
theorem setStat (h : FaultFrame src s t) {j : Nat} (hj : j < 1024) {f : Fld} (hf : BesideTally f) (x : Nat) :
    FaultFrame src s (t.setFld (Reg.FLT_SRC_STAT j) f x) := by
  by_cases e : j = src
  · subst e
    refine h.trans ⟨fun b hb => reg_setFld_other t ?_ f x, fun i hi => ?_, ⟨?_, ?_⟩, rfl⟩
    · simp only [Reg.FLT_SRC_STAT]; omega
    · have : Reg.FLT_SRC_SEV i ≠ Reg.FLT_SRC_STAT j := by simp only [Reg.FLT_SRC_SEV, Reg.FLT_SRC_STAT]; omega
      simp only [State.sev, fld_setFld_other t this]
    · exact fld_setFld_apart t _ _ _ x (by decide) (by simp only [Reg.FLT_SRC_STAT_COUNT]; omega)
    · exact fld_setFld_apart t _ _ _ x (by decide) (by simp only [Reg.FLT_SRC_STAT_LAST_SERIAL]; omega)
  · exact h.setFld (by simp only [UnitReg, Reg.FLT_SRC_STAT]; omega) f x

theorem setFlt (h : FaultFrame src s t) (g : Faults) : FaultFrame src s { t with flt := g } :=
  h.trans ⟨fun _ _ => rfl, fun _ _ => rfl, ⟨rfl, rfl⟩, rfl⟩

theorem setErrN (h : FaultFrame src s t) (b : Bool) : FaultFrame src s { t with pins := { t.pins with errN := b } } :=
  h.trans ⟨fun _ _ => rfl, fun _ _ => rfl, ⟨rfl, rfl⟩, rfl⟩

theorem store (h : FaultFrame src s t) (a : Nat) (l : List Byte) : FaultFrame src s (t.store a l) :=
  h.trans ⟨fun _ _ => rfl, fun _ _ => rfl, ⟨rfl, rfl⟩, rfl⟩

/-! ### The operations of the fault and interrupt units -/

theorem unitReg_irq (src : Nat) {a : Nat} (h : 0x20000 ≤ a ∧ a < 0x31000) : UnitReg src a := by
  simp only [UnitReg, Reg.FLT_SRC_STAT]; omega

theorem setPend (h : FaultFrame src s t) {j : Nat} (hj : j < 2048) (on : Bool) : FaultFrame src s (Machine.setPend j on t) :=
  (h.setReg (unitReg_irq src (by simp only [Reg.IRQ_PEND_SET]; omega)) _).setReg
    (unitReg_irq src (by simp only [Reg.IRQ_PEND_CLR]; omega)) _

theorem irqListed_lt {j : Nat} (h : irqListed j = true) : j < 2048 := by
  refine Nat.lt_of_not_le fun hj => ?_
  have h1024 : ¬ j < 1024 := by omega
  have h1044 : ¬ j < 1044 := by omega
  have h1216 : ¬ j < 1216 := by omega
  simp only [irqListed, h1024, h1044, h1216, if_false, decide_false, Bool.and_false, Bool.false_and, Bool.or_false,
    Bool.false_eq_true] at h

theorem irqFold (h : FaultFrame src s t) (count : Bool) (j : Nat) (data : Word) :
    FaultFrame src s (Machine.irqFold count j data t) := by
  unfold Machine.irqFold
  split
  next hl =>
    have hj := irqListed_lt hl
    have cnt : UnitReg src (Reg.IRQ_SRC_CNT j) := unitReg_irq src (by simp only [Reg.IRQ_SRC_CNT]; omega)
    exact setPend (setFlt (ite (h.bump cnt _ 1) h) _) hj true
  next => exact h

theorem driveErr (h : FaultFrame src s t) (level : Bool) : FaultFrame src s (Machine.driveErr level t) :=
  (h.setErrN level).setFld (unitReg_irq src (by decide)) _ _

theorem settleErr (h : FaultFrame src s t) : FaultFrame src s (Machine.settleErr t) := ite h (h.driveErr _)

theorem pulseErr (h : FaultFrame src s t) : FaultFrame src s (Machine.pulseErr t) :=
  ((h.setFlt _).setFld (unitReg_irq src (by decide)) _ _).driveErr _

theorem setSince (h : FaultFrame src s t) (j k : Nat) : FaultFrame src s (Machine.setSince j k t) := h.setFlt _

theorem ringThreshold (h : FaultFrame src s t) : FaultFrame src s (Machine.ringThreshold t) :=
  ite (ite h ((h.setFlt _).irqFold _ _ _)) (h.setFlt _)

theorem ringWrite (h : FaultFrame src s t) (r : Report) (kept : Bool) : FaultFrame src s (Machine.ringWrite r kept t) := by
  have ptr : UnitReg src Reg.FLT_RING_PTR := unitReg_irq src (by decide)
  exact ringThreshold (ite (((h.store _ _).setFld ptr _ _).setFld ptr _ _) ((h.store _ _).setFld ptr _ _))

theorem showKept (h : FaultFrame src s t) {j : Nat} (hj : j < 1024) : FaultFrame src s (Machine.showKept j t) :=
  (h.setStat hj (by decide) _).setFld (unitReg_irq src (by decide)) _ _

theorem keepReport (h : FaultFrame src s t) {r : Report} (hr : r.source < 1024) : FaultFrame src s (Machine.keepReport r t) := by
  have stat : UnitReg src Reg.FLT_RING_STAT := unitReg_irq src (by decide)
  have besideLost : BesideTally Reg.FLT_SRC_STAT_LOST := by decide
  exact showKept (ite (((h.setFlt _).setStat hr besideLost _).bump stat _ _) (h.setFlt _)) hr

theorem recordReport (h : FaultFrame src s t) {r : Report} (hr : r.source < 1024) :
    FaultFrame src s (Machine.recordReport r t).1 := by
  unfold Machine.recordReport
  dsimp only
  split
  · exact (h.setSince _ _).ringWrite _ _
  · exact keepReport (setSince (ite (h.setFld (unitReg_irq src (by decide)) _ _) h) _ _) hr

theorem stopGrace (h : FaultFrame src s t) (j : Nat) : FaultFrame src s (Machine.stopGrace j t) := h.setFlt _

theorem startGrace (h : FaultFrame src s t) (j cls : Nat) (info : FaultInfo) : FaultFrame src s (Machine.startGrace j cls info t) :=
  h.setFlt _

/-- PENDING and EFF of a source change, and ESCALATED where the report is an escalation. -/
theorem setPending (h : FaultFrame src s t) {j : Nat} (hj : j < 1024) (e : Nat) (esc : Bool) :
    let p := (t.setFld (Reg.FLT_SRC_STAT j) Reg.FLT_SRC_STAT_PENDING 1).setFld (Reg.FLT_SRC_STAT j) Reg.FLT_SRC_STAT_EFF e
    FaultFrame src s (if esc then p.setFld (Reg.FLT_SRC_STAT j) Reg.FLT_SRC_STAT_ESCALATED 1 else p) := by
  have hp := (h.setStat hj (f := Reg.FLT_SRC_STAT_PENDING) (by decide) 1).setStat hj (f := Reg.FLT_SRC_STAT_EFF) (by decide) e
  exact ite (hp.setStat hj (by decide) 1) hp

theorem pendReport (h : FaultFrame src s t) {j : Nat} (hj : j < 1024) (eff : Nat) (esc : Bool) (info : FaultInfo) :
    FaultFrame src s (Machine.pendReport j eff esc info t) := by
  have status : UnitReg src Reg.FLT_STATUS := unitReg_irq src (by decide)
  have hs (e : Nat) := (h.setPending hj e esc).setFld status Reg.FLT_STATUS_ANY_PENDING 1
  exact ite ((hs _).startGrace _ _ _) ((hs _).stopGrace _)

end FaultFrame

/-! ### One report of a chip source -/

/-- The effective severity of a report (R400). -/
def Due.eff (d : Due) (s : State) : Nat := d.esc.getD (s.sev d.src)

def Due.report (d : Due) (s : State) : Report := mkReport d.src (d.eff s) d.esc.isSome d.forced d.latched d.info s

/-- The report is numbered and counted (R400). -/
def Due.counted (d : Due) (s : State) : State :=
  ((s.setReg Reg.FLT_STATUS (Reg.FLT_STATUS_NEXT_SERIAL.put (s.reg Reg.FLT_STATUS) ((d.report s).serial.toNat + 1))).bump
    (Reg.FLT_SRC_STAT d.src) Reg.FLT_SRC_STAT_COUNT 1).setFld (Reg.FLT_SRC_STAT d.src) Reg.FLT_SRC_STAT_LAST_SERIAL
    (d.report s).serial.toNat

/-- The counted report is recorded or kept, at severity 1 and above (R401); and whether source 18 follows. -/
def Due.logged (d : Due) (s : State) : State × Bool :=
  if 1 ≤ d.eff s then recordReport (d.report s) (d.counted s) else (setSince d.src (d.report s).count (d.counted s), false)

/-- ERR_N pulses for a source with PIN set (R411). -/
def Due.pulsed (d : Due) (s : State) : State :=
  let u := (d.logged s).1
  if 1 ≤ d.eff s ∧ u.flag (Reg.FLT_SRC_SEV d.src) Reg.FLT_SRC_SEV_PIN then pulseErr u else u

/-- The source is pending at severity 2 and above (R407). -/
def Due.pended (d : Due) (s : State) : State :=
  if 2 ≤ d.eff s then
    irqFold (!d.latched) d.src (BitVec.ofNat 64 ((d.report s).serial.toNat + d.eff s * 2 ^ 32))
      (pendReport d.src (d.eff s) d.esc.isSome d.info (d.pulsed s))
  else d.pulsed s

/-- The whole report of a chip source, with the chip-fatal stop at severity 5 (R406). -/
def Due.taken (d : Due) (s : State) : State :=
  settleErr (if d.eff s = 5 then chipFatal (d.report s) (s.flag Reg.FLT_RING_PTR Reg.FLT_RING_PTR_PHASE) (d.pended s)
    else d.pended s)

/-- A chip source contains nothing and raises no source but 18 (R403, R414). -/
theorem takeReports_chip {d : Due} (h : d.src < 64) (k : Nat) (todo : List Due) (s : State) :
    takeReports (k + 1) (d :: todo) s =
      takeReports k (todo ++ if (d.logged s).2 then [Due.plain 18] else []) (d.taken s) := by
  have hr : srcRgn d.src = none := if_neg (by omega)
  have hc : ¬ 64 ≤ d.src := by omega
  simp only [takeReports, hr, hc, and_false, if_false]
  rfl

theorem Due.counted_frame {d : Due} (hd : d.src < 1024) {src : Nat} (hne : src ≠ d.src) (s : State) :
    FaultFrame src s (d.counted s) := by
  have stat : UnitReg src (Reg.FLT_SRC_STAT d.src) := by simp only [UnitReg, Reg.FLT_SRC_STAT]; omega
  exact (((FaultFrame.refl src s).setReg (FaultFrame.unitReg_irq src (by decide)) _).bump stat _ _).setFld stat _ _

theorem Due.logged_frame {d : Due} (hd : d.src < 1024) (src : Nat) (s : State) : FaultFrame src (d.counted s) (d.logged s).1 := by
  unfold Due.logged
  split
  · exact (FaultFrame.refl src _).recordReport hd
  · exact (FaultFrame.refl src _).setSince _ _

theorem Due.pended_frame {d : Due} (hd : d.src < 1024) (src : Nat) (s : State) : FaultFrame src (d.counted s) (d.pended s) := by
  have hl := Due.logged_frame hd src s
  have hp : FaultFrame src (d.counted s) (d.pulsed s) := .ite hl.pulseErr hl
  exact .ite ((hp.pendReport hd _ _ _).irqFold _ _ _) hp

/-- Short of a chip-fatal stop, a report changes nothing outside the fault and interrupt units but memory. -/
theorem Due.taken_frame {d : Due} (hd : d.src < 1024) (src : Nat) {s : State} (h5 : d.eff s ≠ 5) :
    FaultFrame src (d.counted s) (d.taken s) := by
  unfold Due.taken
  rw [if_neg h5]
  exact (Due.pended_frame hd src s).settleErr

/-! ### The chip-fatal stop -/

theorem reg_holdAndFlush {a : Nat} (h : a < 0x80000) (s : State) : (holdAndFlush s).reg a = s.reg a := by
  unfold holdAndFlush
  refine List.foldlRecOn (motive := fun t : State => t.reg a = s.reg a) allRgns _ rfl fun t ht n _ => ?_
  have hn : a ≠ Reg.FOLD_STATUS n := by simp only [Reg.FOLD_STATUS, rgnBase]; omega
  dsimp only
  split
  · rw [reg_setFld_other _ hn]; exact ht
  · exact ht

theorem FaultFrame.copyFatal {src : Nat} {s : State} (b : List Byte) :
    ∀ {ks : List Nat} {t : State}, (∀ k ∈ ks, k < 8) → FaultFrame src s t → FaultFrame src s (Machine.copyFatal b t ks) := by
  intro ks
  induction ks with
  | nil => intro t _ h; exact h
  | cons k ks ih =>
    intro t hk h
    have hk' := hk k (List.mem_cons_self ..)
    refine ih (fun j hj => hk j (List.mem_cons_of_mem _ hj)) (h.setReg (FaultFrame.unitReg_irq src ?_) _)
    simp only [Reg.FLT_FATAL]
    omega

theorem chipFatal_tally {src : Nat} (hs : src < 1024) (r : Report) (phase : Bool) (s : State) :
    SameTally src s (chipFatal r phase s) := by
  have hold : SameTally src s (holdAndFlush s) := .of_reg (reg_holdAndFlush (by simp only [Reg.FLT_SRC_STAT]; omega) s)
  have copied := FaultFrame.copyFatal (r.bytes phase false) (fun k hk => List.mem_range.mp hk) (FaultFrame.refl src (holdAndFlush s))
  exact hold.trans ((copied.setFld (FaultFrame.unitReg_irq src (by decide)) _ _).driveErr _).tally

/-- At every severity a report counts its source once. -/
theorem Due.taken_tally {d : Due} (hd : d.src < 1024) {src : Nat} (hs : src < 1024) (s : State) :
    SameTally src (d.counted s) (d.taken s) := by
  have hp := (Due.pended_frame hd src s).tally
  refine SameTally.trans ?_ (FaultFrame.settleErr (.refl src _)).tally
  split
  · exact hp.trans (chipFatal_tally hs ..)
  · exact hp

/-! ### The reports of source 18 that follow -/

theorem eq_of_mem_follow {full : Bool} {e : Due} (h : e ∈ if full then [Due.plain 18] else []) : e = Due.plain 18 := by
  split at h
  · exact List.mem_singleton.mp h
  · cases h

/-- Reports of source 18 raise no other source: what holds between the states around each holds between the first and the last. -/
theorem takeReports_full {R : State → State → Prop} (hrefl : ∀ s, R s s) (htrans : ∀ s t u, R s t → R t u → R s u)
    (hstep : ∀ s, R s ((Due.plain 18).taken s)) :
    ∀ (k : Nat) (todo : List Due) (s : State), (∀ d ∈ todo, d = Due.plain 18) → R s (takeReports k todo s) := by
  intro k
  induction k with
  | zero => intro todo s _; exact hrefl s
  | succ k ih =>
    intro todo s h
    cases todo with
    | nil => exact hrefl s
    | cons d todo =>
      obtain rfl := h d (List.mem_cons_self ..)
      rw [takeReports_chip (by decide)]
      refine htrans _ _ _ (hstep s) (ih _ _ fun e he => ?_)
      rcases List.mem_append.mp he with he | he
      · exact h e (List.mem_cons_of_mem _ he)
      · exact eq_of_mem_follow he

theorem takeReports_full_tally {src : Nat} (hs : src < 1024) (hne : src ≠ 18) {k : Nat} {todo : List Due} {s : State}
    (h : ∀ d ∈ todo, d = Due.plain 18) : SameTally src s (takeReports k todo s) :=
  takeReports_full (R := SameTally src) (fun _ => ⟨rfl, rfl⟩) (fun _ _ _ => SameTally.trans)
    (fun s => (Due.counted_frame (d := Due.plain 18) (by decide) hne s).tally.trans (Due.taken_tally (by decide) hs s)) k todo s h

theorem takeReports_full_frame {src : Nat} (hne : src ≠ 18) {k : Nat} {todo : List Due} {s : State}
    (h : ∀ d ∈ todo, d = Due.plain 18) (h18 : s.sev 18 ≤ 2) : FaultFrame src s (takeReports k todo s) := by
  refine takeReports_full (R := fun s t => s.sev 18 ≤ 2 → FaultFrame src s t) (fun s _ => .refl src s) ?_ ?_ k todo s h h18
  · intro s t u hst htu hs
    have ht := (hst hs).severity 18 (by decide)
    exact (hst hs).trans (htu (ht ▸ hs))
  · intro s hs
    have h5 : (Due.plain 18).eff s ≠ 5 := by
      show s.sev 18 ≠ 5
      omega
    exact (Due.counted_frame (d := Due.plain 18) (by decide) hne s).trans (Due.taken_frame (by decide) src h5)

/-! ### A report of a chip source, and what follows it -/

theorem fld_lt (s : State) (a : Nat) (f : Fld) : s.fld a f < 2 ^ f.w := Nat.mod_lt _ (Nat.two_pow_pos _)

/-- Counting a report touches FLT_STATUS and the state registers of the sources only. -/
theorem Due.counted_reg {d : Due} (hd : d.src < 1024) {a : Nat} (h : a ≠ Reg.FLT_STATUS) (ha : a < 0x33000 ∨ 0x40000 ≤ a)
    (s : State) : (d.counted s).reg a = s.reg a := by
  have hd : a ≠ Reg.FLT_SRC_STAT d.src := by simp only [Reg.FLT_SRC_STAT]; omega
  unfold Due.counted
  rw [reg_setFld_other _ hd, bump_eq, reg_setFld_other _ hd, reg_setReg_other _ h]

theorem Due.counted_count (d : Due) (s : State) :
    (d.counted s).fld (Reg.FLT_SRC_STAT d.src) Reg.FLT_SRC_STAT_COUNT =
      min (s.fld (Reg.FLT_SRC_STAT d.src) Reg.FLT_SRC_STAT_COUNT + 1) 255 := by
  have hst : Reg.FLT_SRC_STAT d.src ≠ Reg.FLT_STATUS := by simp only [Reg.FLT_SRC_STAT, Reg.FLT_STATUS]; omega
  unfold Due.counted
  rw [fld_setFld_apart _ _ _ _ _ (by decide) (by decide), bump_eq, fld_setFld_same _ _ _ _ (by decide), fld_setReg_other _ hst]
  exact Nat.mod_eq_of_lt (Nat.lt_succ_of_le (Nat.min_le_right ..))

theorem Due.counted_lastSerial (d : Due) (s : State) :
    (d.counted s).fld (Reg.FLT_SRC_STAT d.src) Reg.FLT_SRC_STAT_LAST_SERIAL = s.fld Reg.FLT_STATUS Reg.FLT_STATUS_NEXT_SERIAL := by
  have hlt := fld_lt s Reg.FLT_STATUS Reg.FLT_STATUS_NEXT_SERIAL
  unfold Due.counted
  rw [fld_setFld_same _ _ _ _ (by decide)]
  show s.fld Reg.FLT_STATUS Reg.FLT_STATUS_NEXT_SERIAL % 2 ^ 32 % 2 ^ 32 = _
  rw [Nat.mod_mod]
  exact Nat.mod_eq_of_lt hlt

section
variable {d : Due} (hd : d.src < 64) (k : Nat) (s : State)
include hd

/-- Taken alone, a report of a chip source is followed by reports of source 18 at most. -/
theorem takeReports_chip_alone : ∃ todo, (∀ e ∈ todo, e = Due.plain 18) ∧
    takeReports (k + 1) [d] s = takeReports k todo (d.taken s) := by
  refine ⟨_, fun e he => ?_, takeReports_chip hd k [] s⟩
  rw [List.nil_append] at he
  exact eq_of_mem_follow he

theorem takeReports_chip_counts (h18 : d.src ≠ 18) :
    let st := Reg.FLT_SRC_STAT d.src
    let t := takeReports (k + 1) [d] s
    t.fld st Reg.FLT_SRC_STAT_COUNT = min (s.fld st Reg.FLT_SRC_STAT_COUNT + 1) 255 ∧
      t.fld st Reg.FLT_SRC_STAT_LAST_SERIAL = s.fld Reg.FLT_STATUS Reg.FLT_STATUS_NEXT_SERIAL := by
  obtain ⟨todo, htodo, he⟩ := takeReports_chip_alone hd k s
  have hd' : d.src < 1024 := by omega
  obtain ⟨hc, hl⟩ := (Due.taken_tally hd' hd' s).trans (takeReports_full_tally (k := k) hd' h18 htodo)
  dsimp only
  rw [he, hc, hl]
  exact ⟨d.counted_count s, d.counted_lastSerial s⟩

theorem takeReports_chip_frame {src : Nat} (hne : src ≠ d.src) (hne18 : src ≠ 18) (h5 : d.eff s ≠ 5) (h18 : s.sev 18 ≤ 2) :
    FaultFrame src s (takeReports (k + 1) [d] s) := by
  obtain ⟨todo, htodo, he⟩ := takeReports_chip_alone hd k s
  have hd' : d.src < 1024 := by omega
  have taken := (Due.counted_frame hd' hne s).trans (Due.taken_frame hd' src h5)
  have h18' := taken.severity 18 (by decide)
  rw [he]
  exact taken.trans (takeReports_full_frame hne18 htodo (h18' ▸ h18))

end

/-! ### The record in the ring -/

theorem length_leBytes (n : Nat) : ∀ v, (leBytes n v).length = n := by
  induction n with
  | zero => intro v; rfl
  | succ n ih => intro v; simp [leBytes, ih]

theorem Report.length_bytes (r : Report) (phase kept : Bool) : (r.bytes phase kept).length = 64 := by
  simp [Report.bytes, length_leBytes]

/-- Where the next record of the fault ring goes (R413). -/
def ringTail (s : State) : Nat :=
  herdAddr (ringRgn s) (4096 * s.fld Reg.FLT_RING_CFG Reg.FLT_RING_CFG_BASE + 64 * s.fld Reg.FLT_RING_PTR Reg.FLT_RING_PTR_TAIL)

theorem mem_irqFold (count : Bool) (j : Nat) (data : Word) (s : State) : (irqFold count j data s).mem = s.mem := by
  unfold irqFold
  split
  · cases count <;> rfl
  · rfl

theorem mem_ringThreshold (s : State) : (ringThreshold s).mem = s.mem := by
  unfold ringThreshold
  dsimp only
  split
  · split
    · rfl
    · exact mem_irqFold ..
  · rfl

theorem mem_ringWrite (r : Report) (kept : Bool) (s : State) :
    (ringWrite r kept s).mem = (s.store (ringTail s) (r.bytes (s.flag Reg.FLT_RING_PTR Reg.FLT_RING_PTR_PHASE) kept)).mem := by
  unfold ringWrite
  dsimp only
  rw [mem_ringThreshold, apply_ite State.mem]
  simp only [setFld_mem, ite_self]
  rfl

theorem mem_settleErr (s : State) : (settleErr s).mem = s.mem := by
  unfold settleErr
  split <;> rfl

theorem mem_pulsed (d : Due) (s : State) : (d.pulsed s).mem = (d.logged s).1.mem := by
  unfold Due.pulsed
  dsimp only
  split <;> rfl

theorem takeReports_nil (k : Nat) (s : State) : takeReports k [] s = s := by
  cases k <;> rfl

theorem ringRoom_congr {s t : State} (hc : t.reg Reg.FLT_RING_CFG = s.reg Reg.FLT_RING_CFG)
    (hp : t.reg Reg.FLT_RING_PTR = s.reg Reg.FLT_RING_PTR)
    (hq : ∀ n, t.reg (Reg.RGN_BLOCK_STATE n) = s.reg (Reg.RGN_BLOCK_STATE n)) : ringRoom t = ringRoom s := by
  have size : ringSize t = ringSize s := by simp only [ringSize, State.fld, hc]
  have used : ringUsed t = ringUsed s := by simp only [ringUsed, State.fld, size, hp]
  unfold ringRoom
  rw [used, size]
  simp only [ringEnabled, ringRgn, State.quarantined, State.flag, State.fld, hc, hq]

theorem ringTail_congr {s t : State} (hc : t.reg Reg.FLT_RING_CFG = s.reg Reg.FLT_RING_CFG)
    (hp : t.reg Reg.FLT_RING_PTR = s.reg Reg.FLT_RING_PTR) : ringTail t = ringTail s := by
  simp only [ringTail, ringRgn, State.fld, hc, hp]

section
variable {d : Due} (hd : d.src < 64) {s : State}
include hd

theorem Due.counted_ringCfg : (d.counted s).reg Reg.FLT_RING_CFG = s.reg Reg.FLT_RING_CFG :=
  Due.counted_reg (by omega) (by decide) (by decide) s

theorem Due.counted_ringPtr : (d.counted s).reg Reg.FLT_RING_PTR = s.reg Reg.FLT_RING_PTR :=
  Due.counted_reg (by omega) (by decide) (by decide) s

theorem Due.counted_ringRoom : ringRoom (d.counted s) = ringRoom s :=
  ringRoom_congr (Due.counted_ringCfg hd) (Due.counted_ringPtr hd) fun n =>
    Due.counted_reg (by omega) (by simp only [Reg.RGN_BLOCK_STATE, Reg.FLT_STATUS, rgnBase]; omega)
      (by simp only [Reg.RGN_BLOCK_STATE, rgnBase]; omega) s

variable (hroom : ringRoom s = true) (hkept : ∀ x ∈ s.flt.kept, x.source ≠ d.src)
include hroom hkept

/-- With room in the ring and nothing kept of its source, a report is recorded at once. -/
theorem Due.logged_room (he : 1 ≤ d.eff s) :
    d.logged s = (ringWrite (d.report s) false (setSince d.src 0 (d.counted s)), false) := by
  have room : ringRoom (d.counted s) = true := (Due.counted_ringRoom hd).trans hroom
  have none : ((d.counted s).flt.kept.any fun x => x.source == (d.report s).source) = false := by
    simp only [List.any_eq_false, beq_iff_eq]
    exact hkept
  unfold Due.logged
  rw [if_pos he]
  simp only [recordReport, room, none]
  rfl

/-- The record of a report of severity 1 stands at the ring's TAIL, and is all that changes in memory (R413). -/
theorem takeReports_chip_record (he : d.eff s = 1) (k : Nat) :
    (takeReports (k + 1) [d] s).mem =
      (s.store (ringTail s) ((d.report s).bytes (s.flag Reg.FLT_RING_PTR Reg.FLT_RING_PTR_PHASE) false)).mem := by
  have hl := Due.logged_room hd hroom hkept (show 1 ≤ d.eff s by omega)
  have taken : (d.taken s).mem = (d.logged s).1.mem := by
    rw [Due.taken, mem_settleErr, if_neg (by omega), Due.pended, if_neg (by omega), mem_pulsed]
  have tail : ringTail (setSince d.src 0 (d.counted s)) = ringTail s :=
    ringTail_congr (Due.counted_ringCfg hd) (Due.counted_ringPtr hd)
  have phase : (setSince d.src 0 (d.counted s)).flag Reg.FLT_RING_PTR Reg.FLT_RING_PTR_PHASE =
      s.flag Reg.FLT_RING_PTR Reg.FLT_RING_PTR_PHASE :=
    congrArg (fun w => Reg.FLT_RING_PTR_PHASE.get w != 0) (Due.counted_ringPtr hd)
  have alone : takeReports (k + 1) [d] s = d.taken s := by
    rw [takeReports_chip hd, hl]
    exact takeReports_nil k _
  rw [alone, taken, hl, mem_ringWrite, tail, phase]
  rfl

end

/-! ### Bad accesses -/

/-- The report of a bad access (R445, Table 17.5). -/
def accessDue (who : Requester) (write : Bool) (width a : Nat) : Due :=
  ⟨0, none, false, false,
    ⟨none, 0, BitVec.ofNat 128 (requesterNum who + 64 * bit write + 128 * width.log2 + 2 ^ 64 * a)⟩, ST_INTERNAL⟩

/-- With the chip at stage 2 a bad access is one report of source 0, whatever its severity. -/
theorem badAccess_up {s : State} (hup : s.chipStage = 2) (who : Requester) (write : Bool) (width a : Nat) :
    badAccess (requesterNum who) write width a s = takeReports reportFuel [accessDue who write width a] s := by
  have listed : ¬ ¬ srcListed 0 = true := by decide
  have on : ¬ srcOff s 0 = true := by simp [srcOff, srcRgn]
  unfold badAccess raiseDetail raise raiseWith
  rw [if_neg listed, if_neg on]
  dsimp only
  rw [if_neg (by omega)]
  rfl

theorem byte_of_mem {s t : State} (h : t.mem = s.mem) (a : Nat) : t.byte a = s.byte a := by
  unfold State.byte
  rw [h]

theorem sameBytesBut_of_store {s t : State} {a : Nat} {l : List Byte} (h : t.mem = (s.store a l).mem) :
    SameBytesBut a l.length s t :=
  fun b hb => (byte_of_mem h b).trans (byte_store_outside s a l hb)

theorem holds_of_store {s t : State} {a : Nat} {l : List Byte} (h : t.mem = (s.store a l).mem) : Holds t a l :=
  fun k hk => (byte_of_mem h (a + k)).trans (byte_store_inside s a l hk)

end Sys2Proof.Machine
end

section
/-!
PROOFS. Bad accesses, and what good reads and writes do to their registers (01_device.md, 19_registers.md).
-/

namespace Sys2Proof.Machine

theorem accessCheck_bad {a width : Nat} (h : width ≠ 8 ∨ a % 8 ≠ 0) (who : Requester) (write : Bool) (v : Word) (s : State) :
    accessCheck who write a width v s = .bad := if_pos h

theorem readReg_bad {who : Requester} {a width : Nat} {s : State} (h : accessCheck who false a width 0 s = .bad) :
    readReg who a width s = (0, badAccess (requesterNum who) false width a s) := by simp only [readReg, h]

theorem readReg_silent {who : Requester} {a width : Nat} {s : State} (h : accessCheck who false a width 0 s = .silent) :
    readReg who a width s = (0, s) := by simp only [readReg, h]

theorem readReg_ok {who : Requester} {a width : Nat} {s : State} (h : accessCheck who false a width 0 s = .ok) :
    readReg who a width s = (regValue s (unalias a), readEffect (unalias a) s) := by simp only [readReg, h]

theorem writeReg_eq (who : Requester) (a width : Nat) (v : Word) :
    writeReg who a width v = guardWrite who a width v (writeEffect who a v) := rfl

/-- Writes, reads that clear and plain reads that are bad all come to the one report of source 0 (R445). -/
theorem exec_badAccess {s : State} (hs : Awake s) {a width : Nat} (h : width ≠ 8 ∨ a % 8 ≠ 0) (who : Requester) (v : Word) :
    ∀ i ∈ [((1 : Nat), Instr.registerWrite who a width v), (0, .rcRead who a width), (0, .badRead who a width)],
      ∃ write, i.1 = bit write ∧ exec i.2 s = .next (badAccess (requesterNum who) write width a s) := by
  have hread := readReg_bad (accessCheck_bad h who false 0 s)
  have hbad : isBadRead who a width s = true := by simp [isBadRead, accessCheck_bad h]
  intro i hi
  simp only [List.mem_cons, List.not_mem_nil, or_false] at hi
  rcases hi with rfl | rfl | rfl
  · exact ⟨true, rfl, by simp [live_awake _ hs, writeReg, guardWrite, accessCheck_bad h]⟩
  · exact ⟨false, rfl, by simp [live_awake _ hs, hread]⟩
  · exact ⟨false, rfl, by simp [live_awake _ hs, hread, hbad]⟩

section
variable {s : State} (hup : s.chipStage = 2) (who : Requester) (write : Bool) (width a : Nat)
include hup

theorem badAccess_counts :
    let st := Reg.FLT_SRC_STAT 0
    let t := badAccess (requesterNum who) write width a s
    t.fld st Reg.FLT_SRC_STAT_COUNT = min (s.fld st Reg.FLT_SRC_STAT_COUNT + 1) 255 ∧
      t.fld st Reg.FLT_SRC_STAT_LAST_SERIAL = s.fld Reg.FLT_STATUS Reg.FLT_STATUS_NEXT_SERIAL := by
  rw [badAccess_up hup]
  exact takeReports_chip_counts (d := accessDue who write width a) (show 0 < 64 by decide) 71 s (show 0 ≠ 18 by decide)

/-- Nothing outside the fault and interrupt units differs but memory; the frame is taken beside source 0, which is counted. -/
theorem badAccess_frame (h0 : s.sev 0 ≤ 2) (h18 : s.sev 18 ≤ 2) :
    FaultFrame 1 s (badAccess (requesterNum who) write width a s) := by
  have h5 : (accessDue who write width a).eff s ≠ 5 := by
    show s.sev 0 ≠ 5
    omega
  rw [badAccess_up hup]
  exact takeReports_chip_frame (show 0 < 64 by decide) 71 s (show 1 ≠ 0 by decide) (by decide) h5 h18

theorem badAccess_record (h1 : s.sev 0 = 1) (hroom : ringRoom s = true) (hkept : ∀ x ∈ s.flt.kept, x.source ≠ 0) :
    (badAccess (requesterNum who) write width a s).mem =
      (s.store (ringTail s) ((mkReport 0 1 false false false (accessDue who write width a).info s).bytes
        (s.flag Reg.FLT_RING_PTR Reg.FLT_RING_PTR_PHASE) false)).mem := by
  have report : (accessDue who write width a).report s = mkReport 0 1 false false false (accessDue who write width a).info s :=
    congrArg (fun eff => mkReport 0 eff false false false (accessDue who write width a).info s) h1
  rw [badAccess_up hup, ← report]
  exact takeReports_chip_record (d := accessDue who write width a) (show 0 < 64 by decide) hroom hkept h1 71

end

/-- Settles O59, by the one report that a bad access comes to, and by the effect that the access check lets a good one have. -/
theorem badAccessesReadZeroAndAreLogged : Obligations.BadAccessesReadZeroAndAreLogged := by
  unfold Obligations.BadAccessesReadZeroAndAreLogged
  refine ⟨fun who a width v s hs hup hbad => ⟨?badReadsZero, fun i hi => ?badReported⟩, fun who a v s hs =>
    ⟨fun h => ⟨?silentReadsZero, ?silentRead⟩, fun h => ?silentWrite, fun h hscan => ⟨?woReadsZero, ?notBad, ?rcCleared⟩,
      fun h hplain => ?plainWritten, fun i hi => ?ownRow, fun n => ⟨?scanWritten, ?scanRead⟩⟩⟩
  case badReadsZero => rw [readReg_bad (accessCheck_bad hbad who false 0 s)]
  case badReported =>
    obtain ⟨write, hw, he⟩ := exec_badAccess hs hbad who v i hi
    obtain ⟨count, serial⟩ := badAccess_counts hup who write width a
    rw [hw]
    refine ⟨_, he, count, serial, fun h0 h18 => ?_, fun h1 hroom hkept => ?_⟩
    · have frame := badAccess_frame hup who write width a h0 h18
      exact ⟨frame.outside, frame.machine⟩
    · have record := badAccess_record hup who write width a h1 hroom hkept
      have bytes := sameBytesBut_of_store record
      rw [Report.length_bytes] at bytes
      exact ⟨bytes, holds_of_store record⟩
  case silentReadsZero => rw [readReg_silent h]
  case silentRead => rw [exec_rcRead, live_awake _ hs, readReg_silent h]
  case silentWrite => simp [live_awake _ hs, writeReg, guardWrite, h]
  case woReadsZero =>
    intro f hf hwo
    rw [readReg_ok h]
    exact Fld.get_and_not_accMask hf hwo _
  case notBad =>
    have good : isBadRead who a 8 s = false := by simp only [isBadRead, h]; rfl
    simp [live_awake _ hs, good]
  case rcCleared =>
    have read := readEffect_plain hscan s
    refine ⟨_, by rw [exec_rcRead, live_awake _ hs, readReg_ok h, read], sameButRegs_setReg .., ?_⟩
    exact reg_setReg_same ..
  case plainWritten =>
    have written : writeReg who a 8 v s = plainWrite (unalias a) v s := (guardWrite_ok h).trans (writeEffect_plain hplain who v s)
    refine ⟨_, by rw [exec_registerWrite, live_awake _ hs, written, plainWrite], sameButRegs_setReg .., ?_⟩
    exact reg_setReg_same ..
  case ownRow =>
    simp only [List.mem_cons, List.not_mem_nil, or_false] at hi
    rcases hi with rfl | rfl | rfl
    · rw [exec_registerWrite, exec_fabChipId, writeReg_eq, writeEffect_fabChipId]
    · rw [exec_registerWrite, exec_pwrRmKick, writeReg_eq, writeEffect_pwrRmKick]
    · rw [exec_registerWrite, exec_taithResume, writeReg_eq, writeEffect_taithResume]
  case scanWritten => rw [exec_registerWrite, exec_scanDataWrite, writeReg_eq, writeEffect_scanData]
  case scanRead =>
    rw [exec_rcRead, exec_scanDataRead]
    refine congrArg (live s) (funext fun s => ?_)
    rw [readReg_snd, unalias_scanData, readEffect_scanData]

end Sys2Proof.Machine
end

section
/-!
PROOFS. The table sequencer: its program counter and loop counters, the registers that the start of a plan writes, and what a
JUMP does (05_sequencer.md).
-/

namespace Sys2Proof.Machine

/-! ### Registers -/

theorem Fld.get_lt (f : Fld) (v : Word) : f.get v < 2 ^ f.w := Nat.mod_lt _ (Nat.two_pow_pos _)

theorem sameButRegs_weaken {l m : List Nat} {s t : State} (h : SameButRegs l s t) (sub : l ⊆ m) : SameButRegs m s t :=
  ⟨h.1, fun a ha => h.2 a fun hm => ha (sub hm)⟩

theorem sameButRegs_trans {l : List Nat} {s t u : State} (h : SameButRegs l s t) (g : SameButRegs l t u) : SameButRegs l s u := by
  refine ⟨?_, fun a ha => (g.2 a ha).trans (h.2 a ha)⟩
  calc u
    _ = { t with regs := u.regs } := g.1
    _ = { s with regs := u.regs } := congrArg (fun x : State => { x with regs := u.regs }) h.1

@[simp] theorem reg_modRgn (n : Nat) (f : Region → Region) (s : State) (a : Nat) : (s.modRgn n f).reg a = s.reg a := rfl

@[simp] theorem plainWrite_poison (a : Nat) (v : Word) (s : State) : (plainWrite a v s).poison = s.poison := by
  rw [plainWrite, setReg_poison]

theorem reg_plainWrite_other {a b : Nat} (h : b ≠ a) (v : Word) (s : State) : (plainWrite a v s).reg b = s.reg b := by
  rw [plainWrite, reg_setReg_other s h]

/-! ### The program counter -/

theorem jTarget_le_last (e : Nat) : jTarget e ≤ seqLast := Nat.le_of_lt_succ (Nat.mod_lt _ (by decide))

theorem setPc_entry {pc : Nat} (h : pc ≤ seqLast) (n : Rgn) (s : State) :
    setPc n pc s = s.setFld (Reg.SEQ_STATUS n) Reg.SEQ_STATUS_PC pc := if_pos h

theorem setPc_past {pc : Nat} (h : seqLast < pc) (n : Rgn) (s : State) :
    setPc n pc s = modSeq n.val (fun q => { q with past := true }) s := if_neg (Nat.not_le.mpr h)

theorem reg_setPc_other {n : Rgn} {a : Nat} (h : a ≠ Reg.SEQ_STATUS n) (pc : Nat) (s : State) : (setPc n pc s).reg a = s.reg a := by
  unfold setPc
  split
  · exact reg_setFld_other s h _ _
  · rfl

theorem sameButRegs_setPc {pc : Nat} (h : pc ≤ seqLast) (n : Rgn) (s : State) : SameButRegs [Reg.SEQ_STATUS n] s (setPc n pc s) := by
  rw [setPc_entry h]
  exact sameButRegs_setReg ..

/-- Where the sequencer continues makes no difference to whether a plan runs. -/
@[simp] theorem seqRunning_setPc (n : Rgn) (pc : Nat) (s : State) : seqRunning (setPc n pc s) n = seqRunning s n := by
  unfold setPc
  split
  · simp only [seqRunning, State.flag, fld_setFld_apart s _ Reg.SEQ_STATUS_PC Reg.SEQ_STATUS_RUNNING _ (by decide) (by decide)]
  · rfl

theorem seqPc_setPc {pc : Nat} (h : pc ≤ seqLast) (n : Rgn) (s : State) : seqPc (setPc n pc s) n = pc := by
  rw [setPc_entry h, seqPc, fld_setFld_same _ _ _ _ (by decide)]
  exact Nat.mod_eq_of_lt (Nat.lt_succ_of_le h)

theorem past_setPc {pc : Nat} (h : seqLast < pc) (n : Rgn) (s : State) : ((setPc n pc s).rgn n).seq.past = true := by
  rw [setPc_past h, modSeq, rgn_modRgn_same]

/-! ### Entries -/

theorem atType_runs {s : State} {n : Rgn} {ty : Nat} (hat : atEntry s n = true) (hgood : entryFault s n = none)
    (hty : eType (seqEntry s n) = ty) (f : Nat → State → State) : atType ty n f s = f (seqEntry s n) s := by
  simp [atType, hat, hgood, hty]

theorem seqRunning_of_atEntry {s : State} {n : Rgn} (h : atEntry s n = true) : seqRunning s n = true := by
  simp only [atEntry, Bool.and_eq_true] at h
  obtain ⟨⟨⟨running, _⟩, _⟩, _⟩ := h
  exact running

/-! ### Loop counters -/

theorem seqLoop_ne_status (n : Rgn) : Reg.SEQ_LOOP n ≠ Reg.SEQ_STATUS n := by
  simp [Reg.SEQ_LOOP, Reg.SEQ_STATUS]

theorem ctrFld_in_reg {k : Nat} (h : k < 4) : (ctrFld k).lo + (ctrFld k).w ≤ 64 := by
  simp only [ctrFld]; omega

theorem ctrFld_apart {j k : Nat} (h : k ≠ j) :
    (ctrFld j).lo + (ctrFld j).w ≤ (ctrFld k).lo ∨ (ctrFld k).lo + (ctrFld k).w ≤ (ctrFld j).lo := by
  simp only [ctrFld]; omega

theorem jCtr_lt (e : Nat) : jCtr e < 4 := Nat.mod_lt _ (by decide)

/-- What a counted JUMP leaves in its counter: one less than it held, or than COUNT where it held 0 (R129). -/
def passesLeft (s : State) (n : Rgn) (e : Nat) : Nat :=
  let c := s.fld (Reg.SEQ_LOOP n) (ctrFld (jCtr e))
  (if c = 0 then jCount e else c) - 1

theorem passesLeft_lt (s : State) (n : Rgn) (e : Nat) : passesLeft s n e < 2 ^ 16 := by
  have hold : s.fld (Reg.SEQ_LOOP n) (ctrFld (jCtr e)) < 2 ^ 16 := Fld.get_lt _ _
  have hcount : jCount e < 2 ^ 16 := Nat.mod_lt _ (by decide)
  simp only [passesLeft]
  split <;> omega

/-- The state after the counter of a JUMP has been stored. -/
def countPass (n : Rgn) (e : Nat) (s : State) : State := s.setFld (Reg.SEQ_LOOP n) (ctrFld (jCtr e)) (passesLeft s n e)

theorem fld_countPass_same (n : Rgn) (e : Nat) (s : State) :
    (countPass n e s).fld (Reg.SEQ_LOOP n) (ctrFld (jCtr e)) = passesLeft s n e := by
  rw [countPass, fld_setFld_same _ _ _ _ (ctrFld_in_reg (jCtr_lt e))]
  exact Nat.mod_eq_of_lt (passesLeft_lt s n e)

theorem fld_countPass_other (n : Rgn) {e k : Nat} (hk : k < 4) (h : k ≠ jCtr e) (s : State) :
    (countPass n e s).fld (Reg.SEQ_LOOP n) (ctrFld k) = s.fld (Reg.SEQ_LOOP n) (ctrFld k) :=
  fld_setFld_apart s _ _ _ _ (ctrFld_in_reg hk) (ctrFld_apart h)

theorem sameButRegs_countPass (n : Rgn) (e : Nat) (s : State) : SameButRegs [Reg.SEQ_LOOP n] s (countPass n e s) :=
  sameButRegs_setReg ..

@[simp] theorem seqRunning_countPass (n : Rgn) (e : Nat) (s : State) : seqRunning (countPass n e s) n = seqRunning s n := by
  simp only [seqRunning, State.flag, countPass, fld_setFld_other s (seqLoop_ne_status n).symm]

theorem fld_seqLoop_setPc (n : Rgn) (pc : Nat) (s : State) (f : Fld) :
    (setPc n pc s).fld (Reg.SEQ_LOOP n) f = s.fld (Reg.SEQ_LOOP n) f :=
  congrArg f.get (reg_setPc_other (seqLoop_ne_status n) pc s)

/-! ### JUMP (R129) -/

theorem seqJump_always {e : Nat} (h : jAlways e = true) (n : Rgn) (s : State) : seqJump n e s = setPc n (jTarget e) s := if_pos h

theorem seqJump_counted {e : Nat} (h : jAlways e = false) (n : Rgn) (s : State) :
    seqJump n e s = setPc n (if passesLeft s n e = 0 then seqPc s n + 1 else jTarget e) (countPass n e s) := by
  rw [seqJump, h]
  rfl

/-- A JUMP writes only the program counter and its loop counter. -/
theorem sameRegsBut_seqJump (n : Rgn) (e : Nat) (s : State) :
    SameRegsBut [Reg.SEQ_STATUS n, Reg.SEQ_LOOP n] s (seqJump n e s) := by
  intro a ha
  simp only [List.mem_cons, List.not_mem_nil, or_false, not_or] at ha
  obtain ⟨status, loop⟩ := ha
  cases h : jAlways e with
  | true => rw [seqJump_always h, reg_setPc_other status]
  | false => rw [seqJump_counted h, reg_setPc_other status, countPass, reg_setFld_other s loop]

theorem seqRunning_seqJump (n : Rgn) (e : Nat) (s : State) : seqRunning (seqJump n e s) n = seqRunning s n := by
  cases h : jAlways e with
  | true => rw [seqJump_always h, seqRunning_setPc]
  | false => rw [seqJump_counted h, seqRunning_setPc, seqRunning_countPass]

/-- Where there is an entry to continue at, nothing but the two registers differs. -/
theorem sameButRegs_seqJump {n : Rgn} {e : Nat} {s : State} (h : jAlways e = true ∨ passesLeft s n e ≠ 0 ∨ seqPc s n < seqLast) :
    SameButRegs [Reg.SEQ_STATUS n, Reg.SEQ_LOOP n] s (seqJump n e s) := by
  cases ha : jAlways e with
  | true =>
    rw [seqJump_always ha]
    exact sameButRegs_weaken (sameButRegs_setPc (jTarget_le_last e) n s) (by simp)
  | false =>
    have entry : (if passesLeft s n e = 0 then seqPc s n + 1 else jTarget e) ≤ seqLast := by
      split
      next zero =>
        obtain hall | hleft | hpc := h
        · rw [ha] at hall; cases hall
        · exact absurd zero hleft
        · exact hpc
      next => exact jTarget_le_last e
    rw [seqJump_counted ha]
    have count := sameButRegs_countPass n e s
    have move := sameButRegs_setPc entry n (countPass n e s)
    exact sameButRegs_trans (sameButRegs_weaken count (by simp)) (sameButRegs_weaken move (by simp))

theorem fld_seqLoop_seqJump {e : Nat} (h : jAlways e = false) (n : Rgn) (s : State) (f : Fld) :
    (seqJump n e s).fld (Reg.SEQ_LOOP n) f = (countPass n e s).fld (Reg.SEQ_LOOP n) f := by
  rw [seqJump_counted h, fld_seqLoop_setPc]

theorem seqPc_seqJump_back {n : Rgn} {e : Nat} {s : State} (h : jAlways e = false) (hleft : passesLeft s n e ≠ 0) :
    seqPc (seqJump n e s) n = jTarget e := by
  rw [seqJump_counted h, if_neg hleft, seqPc_setPc (jTarget_le_last e)]

theorem seqPc_seqJump_on {n : Rgn} {e : Nat} {s : State} (h : jAlways e = false) (hleft : passesLeft s n e = 0)
    (hpc : seqPc s n < seqLast) : seqPc (seqJump n e s) n = seqPc s n + 1 := by
  rw [seqJump_counted h, if_pos hleft, seqPc_setPc hpc]

theorem past_seqJump {n : Rgn} {e : Nat} {s : State} (h : jAlways e = false) (hleft : passesLeft s n e = 0)
    (hpc : seqPc s n = seqLast) : ((seqJump n e s).rgn n).seq.past = true := by
  rw [seqJump_counted h, if_pos hleft, past_setPc (hpc ▸ Nat.lt_succ_self _)]

/-! ### What the start of a plan writes (R146) -/

/-- Writing registers that a predicate allows, one for each element of a list, changes no other register and poisons no line. -/
theorem foldl_setReg_frame {α : Type} {p : Nat → Prop} {f : State → α → Nat} {g : State → α → Word} (h : ∀ t x, p (f t x)) :
    ∀ (l : List α) (s : State),
      (l.foldl (fun t x => t.setReg (f t x) (g t x)) s).poison = s.poison ∧
      ∀ a, ¬ p a → (l.foldl (fun t x => t.setReg (f t x) (g t x)) s).reg a = s.reg a := by
  intro l
  induction l with
  | nil => exact fun s => ⟨rfl, fun _ _ => rfl⟩
  | cons x xs ih =>
    intro s
    obtain ⟨poison, regs⟩ := ih (s.setReg (f s x) (g s x))
    exact ⟨poison, fun a ha => (regs a ha).trans (reg_setReg_other s (fun e => ha (by rw [e]; exact h s x)) _)⟩

theorem initSems_frame (n : Rgn) (base : Nat) (s : State) :
    (initSems n base s).poison = s.poison ∧ ∀ a, ¬ rgnBase n + 0x90000 ≤ a → (initSems n base s).reg a = s.reg a := by
  have sem (i : Nat) : rgnBase n + 0x90000 ≤ semAddr n i := Nat.le_add_right _ _
  obtain ⟨poison0, regs0⟩ := foldl_setReg_frame (f := fun _ i => semAddr n i) (g := fun _ _ => 0) (fun _ i => sem i) (List.range 256) s
  obtain ⟨poison1, regs1⟩ := foldl_setReg_frame (p := fun a => rgnBase n + 0x90000 ≤ a)
    (f := fun t k => semAddr n (planNat t n base (0x440 + 8 * k) 1))
    (g := fun t k => BitVec.ofNat 64 (planNat t n base (0x444 + 8 * k) 4)) (fun _ _ => sem _) (List.range (min 256 _)) _
  exact ⟨poison1.trans poison0, fun a ha => (regs1 a ha).trans (regs0 a ha)⟩

/-- The start of a plan: the semaphores, the sequencer's state, and SEQ_STATUS, SEQ_LOOP and MOE_STATUS. -/
theorem seqStart_idle {n : Rgn} {s : State} (h : seqRunning s n = false) : ∃ base f status waiting, seqStart n s =
    (((((initSems n base s).modRgn n f).setReg (Reg.SEQ_STATUS n) status).setReg (Reg.SEQ_LOOP n) 0).setFld
      (Reg.MOE_STATUS n) Reg.MOE_STATUS_JOB 0).setFld (Reg.MOE_STATUS n) Reg.MOE_STATUS_WAITING waiting :=
  ⟨_, _, _, _, if_neg (Bool.eq_false_iff.mp h)⟩

/-- Starting a plan poisons no line and writes SEQ_STATUS, SEQ_LOOP, MOE_STATUS and the semaphores. -/
theorem seqStart_frame {n : Rgn} {s : State} (h : seqRunning s n = false) :
    (seqStart n s).poison = s.poison ∧
    ∀ a, a ≠ Reg.SEQ_STATUS n → a ≠ Reg.SEQ_LOOP n → a ≠ Reg.MOE_STATUS n → ¬ rgnBase n + 0x90000 ≤ a →
      (seqStart n s).reg a = s.reg a := by
  obtain ⟨base, f, status, waiting, start⟩ := seqStart_idle h
  obtain ⟨poison, regs⟩ := initSems_frame n base s
  rw [start]
  refine ⟨?_, fun a hstatus hloop hmoe hsem => ?_⟩
  · rw [setFld_poison, setFld_poison, setReg_poison, setReg_poison, modRgn_poison, poison]
  · rw [reg_setFld_other _ hmoe, reg_setFld_other _ hmoe, reg_setReg_other _ hloop, reg_setReg_other _ hstatus, reg_modRgn, regs a hsem]

/-- It leaves all four loop counters at 0 (R129). -/
theorem reg_seqLoop_seqStart {n : Rgn} {s : State} (h : seqRunning s n = false) : (seqStart n s).reg (Reg.SEQ_LOOP n) = 0 := by
  obtain ⟨base, f, status, waiting, start⟩ := seqStart_idle h
  have moe : Reg.SEQ_LOOP n ≠ Reg.MOE_STATUS n := by simp [Reg.SEQ_LOOP, Reg.MOE_STATUS]
  rw [start, reg_setFld_other _ moe, reg_setFld_other _ moe, reg_setReg_same]

/-! ### GO of SEQ_CTRL -/

/-- What cannot be read at the start of a plan rests on the poisoned lines and on the walk and route job registers. -/
theorem takenBad_congr {n : Rgn} {s t : State} (hpoison : t.poison = s.poison)
    (hregs : ∀ a, rgnBase n + 0x30200 ≤ a → a < rgnBase n + 0x30308 → t.reg a = s.reg a) : takenBad t n = takenBad s n := by
  have cfg {k : Nat} (hk : k < 4) : t.reg (Reg.KV_WALK_CFG n k) = s.reg (Reg.KV_WALK_CFG n k) := by
    apply hregs <;> simp only [Reg.KV_WALK_CFG] <;> omega
  have list {k : Nat} (hk : k < 4) : t.reg (Reg.KV_WALK_LIST n k) = s.reg (Reg.KV_WALK_LIST n k) := by
    apply hregs <;> simp only [Reg.KV_WALK_LIST] <;> omega
  have jobs : t.reg (Reg.MOE_JOBS n) = s.reg (Reg.MOE_JOBS n) := by
    apply hregs <;> simp only [Reg.MOE_JOBS] <;> omega
  have enabled := List.filter_congr fun k hk => congrArg (fun v => Reg.KV_WALK_CFG_EN.get v != 0) (cfg (List.mem_range.mp hk))
  have ranges : takenRanges t n = takenRanges s n := by
    simp only [takenRanges, State.flag, State.fld, enabled, jobs]
    refine congrArg (· ++ _) (List.map_congr_left fun k hk => ?_)
    rw [list (List.mem_range.mp (List.mem_filter.mp hk).1)]
  simp only [takenBad, ranges, nearPoisoned, hpoison]

theorem takenBad_plainWrite_seqCtrl (n : Rgn) (v : Word) (s : State) : takenBad (plainWrite (Reg.SEQ_CTRL n) v s) n = takenBad s n :=
  takenBad_congr (plainWrite_poison ..) fun a _ _ => reg_plainWrite_other (by simp only [Reg.SEQ_CTRL]; omega) v s

theorem takenBad_seqStart {n : Rgn} {s : State} (h : seqRunning s n = false) : takenBad (seqStart n s) n = takenBad s n := by
  obtain ⟨poison, regs⟩ := seqStart_frame h
  exact takenBad_congr poison fun a _ _ => regs a (by simp only [Reg.SEQ_STATUS]; omega) (by simp only [Reg.SEQ_LOOP]; omega)
    (by simp only [Reg.MOE_STATUS]; omega) (by omega)

theorem seqRunning_plainWrite_seqCtrl (n : Rgn) (v : Word) (s : State) :
    seqRunning (plainWrite (Reg.SEQ_CTRL n) v s) n = seqRunning s n := by
  have status : Reg.SEQ_STATUS n ≠ Reg.SEQ_CTRL n := by simp [Reg.SEQ_STATUS, Reg.SEQ_CTRL]
  simp only [seqRunning, State.flag, State.fld, reg_plainWrite_other status]

/-- Where everything that it takes at its start can be read, GO starts the plan and does nothing more. -/
theorem seqGo_starts {n : Rgn} {s : State} (idle : seqRunning s n = false) (good : takenBad s n = none) :
    seqGo n s = seqStart n s := by
  simp [seqGo, idle, takenBad_seqStart idle, good]

theorem exec_seqGo_alone {who : Requester} {n : Rgn} {v : Word} {s : State} (hw : Writes who (Reg.SEQ_CTRL n) v s)
    (hgo : Reg.SEQ_CTRL_GO.get v = 1) (habort : Reg.SEQ_CTRL_ABORT.get v = 0) :
    exec (.seqGo who n v) s = .next (seqGo n (plainWrite (Reg.SEQ_CTRL n) v s)) := by
  obtain ⟨awake, ok⟩ := hw
  rw [exec_seqGo, live_awake _ awake, if_pos hgo, guardWrite_ok ok]
  simp [doSeqCtrl, hgo, habort]

/-- Settles O41: a JUMP is the store of its counter and a move of the program counter, and GO starts a plan with SEQ_LOOP at 0. -/
theorem jumpsCountTheirPasses : Obligations.JumpsCountTheirPasses := by
  unfold Obligations.JumpsCountTheirPasses
  refine ⟨fun n s awake hat hgood hty => ?jump, fun who n v s hw hgo habort idle good => ?go⟩
  case jump =>
    refine ⟨seqJump n (seqEntry s n) s, ?runs, sameRegsBut_seqJump n _ s, ?running, sameButRegs_seqJump, fun ha => ⟨?target, ?kept⟩,
      fun ha => ⟨?counted, fun k hk hne => ?others, seqPc_seqJump_back ha, seqPc_seqJump_on ha, past_seqJump ha⟩⟩
    case runs => rw [exec_jump, live_awake _ awake, atType_runs hat hgood hty]
    case running => rw [seqRunning_seqJump, seqRunning_of_atEntry hat]
    case target => rw [seqJump_always ha, seqPc_setPc (jTarget_le_last _)]
    case kept => rw [seqJump_always ha, reg_setPc_other (seqLoop_ne_status n)]
    case counted => rw [fld_seqLoop_seqJump ha, fld_countPass_same]; rfl
    case others => rw [fld_seqLoop_seqJump ha, fld_countPass_other n hk hne]
  case go =>
    have idle' := (seqRunning_plainWrite_seqCtrl n v s).trans idle
    have good' := (takenBad_plainWrite_seqCtrl n v s).trans good
    refine ⟨_, exec_seqGo_alone hw hgo habort, fun k _ => ?_⟩
    rw [seqGo_starts idle' good', State.fld, reg_seqLoop_seqStart idle']
    simp [Fld.get]

end Sys2Proof.Machine
end

section
/-!
PROOFS. The registers of a ring, the raise of an interrupt source, and what a write of TAIL does (11_commands.md).
-/

namespace Sys2Proof.Machine

/-! ### Where the registers of the rings lie -/

/-- An address among the ring registers of the management ring or of a region (Tables 11.10 to 11.13). -/
abbrev RingReg (a : Nat) : Prop :=
  0x60100 ≤ a ∧ a < 0x60160 ∨ 0x01000000 ≤ a ∧ 0x20000 ≤ a % 0x100000 ∧ a % 0x100000 < 0x20060

/-- The lowest ring register of an owner. -/
def ringBase : RingOwner → Nat
  | .rgn n => rgnBase n + 0x20000
  | .mgmt => 0x60100

theorem ringRegs_eq (o : RingOwner) (k : Nat) : ringRegs o k =
    ⟨ringBase o + 32 * k, ringBase o + 32 * k + 8, ringBase o + 32 * k + 16, ringBase o + 32 * k + 24⟩ := by
  cases o <;> simp only [ringRegs, ringBase, Reg.CMD_RING_CFG, Reg.CMD_RING_HEAD, Reg.CMD_RING_TAIL, Reg.CMD_RING_STAT,
    Reg.MGT_RING_CFG, Reg.MGT_RING_HEAD, Reg.MGT_RING_TAIL, Reg.MGT_RING_STAT, RingRegs.mk.injEq, true_and] <;> omega

theorem ringReg_of_lt (o : RingOwner) {i : Nat} (h : i < 0x60) : RingReg (ringBase o + i) := by
  cases o <;> simp only [ringBase, rgnBase] <;> omega

section
variable (o : RingOwner) {k : Nat} (hk : k < 3)
include hk

theorem ringReg_cfg : RingReg (ringRegs o k).cfg := by
  simpa only [ringRegs_eq] using ringReg_of_lt o (i := 32 * k) (by omega)

theorem ringReg_head : RingReg (ringRegs o k).head := by
  simpa only [ringRegs_eq, Nat.add_assoc] using ringReg_of_lt o (i := 32 * k + 8) (by omega)

theorem ringReg_tail : RingReg (ringRegs o k).tail := by
  simpa only [ringRegs_eq, Nat.add_assoc] using ringReg_of_lt o (i := 32 * k + 16) (by omega)

theorem ringReg_stat : RingReg (ringRegs o k).stat := by
  simpa only [ringRegs_eq, Nat.add_assoc] using ringReg_of_lt o (i := 32 * k + 24) (by omega)

end

theorem submission_lt {s : State} {r : Ring} {o : RingOwner} {k : Nat} (h : submission s r = some (o, k)) : k < 2 := by
  cases r with
  | mgmt => obtain ⟨rfl, rfl⟩ := Prod.mk.inj (Option.some.inj h); decide
  | part p j =>
    obtain ⟨_, _, he⟩ := Option.map_eq_some_iff.mp h
    obtain ⟨rfl, rfl⟩ := Prod.mk.inj he
    exact j.isLt

/-! ### Interrupt sources -/

theorem reg_irqFold (count : Bool) (j : Nat) (data : Word) (s : State) {a : Nat} (ha : RingReg a) :
    (irqFold count j data s).reg a = s.reg a :=
  ((FaultFrame.refl 0 s).irqFold count j data).outside a (by omega)

theorem irqPending_setPend (j : Nat) (s : State) : (setPend j true s).irqPending j = true := by
  have apart : Reg.IRQ_PEND_SET (j / 64) ≠ Reg.IRQ_PEND_CLR (j / 64) := by
    simp only [Reg.IRQ_PEND_SET, Reg.IRQ_PEND_CLR]; omega
  have bit : j % 64 < 64 := Nat.mod_lt _ (by decide)
  simp [State.irqPending, setPend, reg_setReg_other _ apart, bit]

theorem irqPending_irqRaise {j : Nat} (h : irqListed j = true) (data : Word) (s : State) :
    (irqRaise j data s).irqPending j = true := by
  rw [irqRaise, irqFold, if_pos h]
  exact irqPending_setPend j _

theorem irqListed_doorbell : ∀ n : Rgn, irqListed (evRgn n.val 2) = true := by decide

/-! ### TAIL of a submission ring (R280) -/

/-- The commands, memory, the partitions and the management ring's stop are as before. -/
structure SameWork (s t : State) : Prop where
  cmds : t.cmds = s.cmds
  mem : t.mem = s.mem
  parts : t.parts = s.parts
  mgmtStop : t.mgmtStop = s.mgmtStop

theorem SameWork.trans {s t u : State} (h : SameWork s t) (g : SameWork t u) : SameWork s u :=
  ⟨g.cmds.trans h.cmds, g.mem.trans h.mem, g.parts.trans h.parts, g.mgmtStop.trans h.mgmtStop⟩

theorem sameWork_irqFold (count : Bool) (j : Nat) (data : Word) (s : State) : SameWork s (irqFold count j data s) := by
  unfold irqFold
  split
  · cases count <;> exact ⟨rfl, rfl, rfl, rfl⟩
  · exact ⟨rfl, rfl, rfl, rfl⟩

/-- The end of deep idle changes only registers and the power unit (R385). -/
theorem sameWork_endDeepIdle (s : State) : SameWork s (endDeepIdle s) := by
  unfold endDeepIdle
  dsimp only
  split
  · split <;> exact ⟨rfl, rfl, rfl, rfl⟩
  · exact ⟨rfl, rfl, rfl, rfl⟩

theorem reg_endDeepIdle (s : State) {a : Nat} (ha : RingReg a) : (endDeepIdle s).reg a = s.reg a := by
  have power : a ≠ Reg.PWR_STATUS := by simp only [Reg.PWR_STATUS]; omega
  have link : a ≠ Reg.TAITH_STATUS := by simp only [Reg.TAITH_STATUS]; omega
  unfold endDeepIdle
  dsimp only
  split
  · split
    · rw [reg_setFld_other _ link, reg_setFld_other _ power]; rfl
    · rw [reg_setFld_other _ power]; rfl
  · rfl

@[simp] theorem reg_clearFetchStop (r : Ring) (s : State) (a : Nat) : (clearFetchStop r s).reg a = s.reg a := by
  cases r <;> rfl

@[simp] theorem clearFetchStop_cmds (r : Ring) (s : State) : (clearFetchStop r s).cmds = s.cmds := by cases r <;> rfl

@[simp] theorem clearFetchStop_mem (r : Ring) (s : State) : (clearFetchStop r s).mem = s.mem := by cases r <;> rfl

theorem sessions_clearFetchStop (r : Ring) (s : State) (q : Part) :
    ((clearFetchStop r s).part q).sessions = (s.part q).sessions := by
  cases r with
  | mgmt => rfl
  | part p k =>
    by_cases h : q = p
    · subst h; simp [clearFetchStop]
    · simp only [clearFetchStop, part_modPart_other _ h]

theorem fetchStopped_clearFetchStop (r : Ring) (s : State) : fetchStopped (clearFetchStop r s) r = false := by
  cases r with
  | mgmt => rfl
  | part p k => simp [fetchStopped, clearFetchStop, k.isLt]

theorem fetchStopped_congr {s t : State} (hp : t.parts = s.parts) (hm : t.mgmtStop = s.mgmtStop) (r : Ring) :
    fetchStopped t r = fetchStopped s r := by
  cases r <;> simp only [fetchStopped, State.part, hp, hm]

theorem part_of_parts {s t : State} (h : t.parts = s.parts) (q : Part) : t.part q = s.part q := by
  simp only [State.part, h]

/-- The state in which a good TAIL stands and its entries are shown. -/
def tailShown (g : RingRegs) (i : Nat) (s : State) : State := showRing g (s.setFld g.tail Reg.CMD_RING_TAIL_INDEX i)

section
variable (o : RingOwner) (k i : Nat) (s : State)

theorem rTail_setFld (hi : i < 2 ^ 14) : rTail (s.setFld (ringRegs o k).tail Reg.CMD_RING_TAIL_INDEX i) (ringRegs o k) = i := by
  rw [rTail, fld_setFld_same _ _ _ _ (by decide)]
  exact Nat.mod_eq_of_lt hi

theorem rSize_setFld_tail (f : Fld) :
    rSize (s.setFld (ringRegs o k).tail f i) (ringRegs o k) = rSize s (ringRegs o k) := by
  have apart : (ringRegs o k).cfg ≠ (ringRegs o k).tail := by simp only [ringRegs_eq]; omega
  rw [rSize, rSize, fld_setFld_other _ apart]

theorem rHead_setFld_tail (f : Fld) :
    rHead (s.setFld (ringRegs o k).tail f i) (ringRegs o k) = rHead s (ringRegs o k) := by
  have apart : (ringRegs o k).head ≠ (ringRegs o k).tail := by simp only [ringRegs_eq]; omega
  rw [rHead, rHead, fld_setFld_other _ apart]

theorem tail_tailShown (hi : i < 2 ^ 14) :
    (tailShown (ringRegs o k) i s).fld (ringRegs o k).tail Reg.CMD_RING_TAIL_INDEX = i := by
  have apart : (ringRegs o k).tail ≠ (ringRegs o k).stat := by simp only [ringRegs_eq]; omega
  rw [tailShown, showRing, fld_setFld_other _ apart]
  exact rTail_setFld o k i s hi

theorem pending_tailShown (hi : i < 2 ^ 14) :
    (tailShown (ringRegs o k) i s).fld (ringRegs o k).stat Reg.CMD_RING_STAT_PENDING =
      (i + rSize s (ringRegs o k) - rHead s (ringRegs o k)) % rSize s (ringRegs o k) % 2 ^ Reg.CMD_RING_STAT_PENDING.w := by
  rw [tailShown, showRing, fld_setFld_same _ _ _ _ (by decide), rUsed, rTail_setFld o k i s hi, rSize_setFld_tail, rHead_setFld_tail]

end

/-- What lies around the new TAIL: the ring may fetch again, and a partition's ring raises the doorbell event of its lead region. -/
def rung (r : Ring) (o : RingOwner) (g : RingRegs) (s : State) : State :=
  let u := endDeepIdle (clearFetchStop r s)
  match o with
  | .rgn n => irqRaise (evRgn n.val 2) (u.reg g.tail) u
  | .mgmt => u

section
variable (r : Ring) (o : RingOwner) (g : RingRegs) (s : State)

theorem sameWork_rung : SameWork (clearFetchStop r s) (rung r o g s) := by
  have idle := sameWork_endDeepIdle (clearFetchStop r s)
  cases o with
  | mgmt => exact idle
  | rgn n => exact idle.trans (sameWork_irqFold ..)

theorem reg_rung {a : Nat} (ha : RingReg a) : (rung r o g s).reg a = s.reg a := by
  have idle := (reg_endDeepIdle (clearFetchStop r s) ha).trans (reg_clearFetchStop r s a)
  cases o with
  | mgmt => exact idle
  | rgn n => exact (reg_irqFold true _ _ _ ha).trans idle

end

theorem doTail_good {r : Ring} {o : RingOwner} {k : Nat} {v : Word} {s : State}
    (h : Reg.CMD_RING_TAIL_INDEX.get v < rSize s (ringRegs o k)) :
    doTail r o k v s = rung r o (ringRegs o k) (tailShown (ringRegs o k) (Reg.CMD_RING_TAIL_INDEX.get v) s) := by
  rw [doTail, if_pos h]
  cases o <;> rfl

theorem doTail_bad {r : Ring} {o : RingOwner} {k : Nat} {v : Word} {s : State}
    (h : rSize s (ringRegs o k) ≤ Reg.CMD_RING_TAIL_INDEX.get v) :
    doTail r o k v s = s.setFld (ringRegs o k).stat Reg.CMD_RING_STAT_DB_ERR 1 := if_neg (Nat.not_lt.mpr h)

/-- Settles O17: a doorbell is the store of TAIL with what it shows, between the end of a failed fetch and the doorbell event. -/
theorem doorbellMovesTail : Obligations.DoorbellMovesTail := by
  unfold Obligations.DoorbellMovesTail
  intro who r o k v s hsub
  dsimp only
  intro ⟨awake, ok⟩
  have hk := submission_lt hsub
  have run : exec (.doorbell who r v) s = .next (doTail r o k v s) := by
    rw [exec_doorbell, live_awake _ awake, hsub]
    exact congrArg _ (guardWrite_ok ok)
  have hi : Reg.CMD_RING_TAIL_INDEX.get v < 2 ^ 14 := Reg.CMD_RING_TAIL_INDEX.get_lt v
  refine ⟨fun hlt => ⟨_, run, ?_⟩, fun hge => ⟨_, run, ?_⟩⟩
  · rw [doTail_good hlt]
    generalize hu : tailShown (ringRegs o k) (Reg.CMD_RING_TAIL_INDEX.get v) s = u
    have shown : SameWork s u := hu ▸ ⟨rfl, rfl, rfl, rfl⟩
    have work := sameWork_rung r o (ringRegs o k) u
    refine ⟨?tail, ?pending, ?fetch, ?cmds, ?mem, ?event, ?sessions⟩
    case tail =>
      rw [State.fld, reg_rung _ _ _ _ (ringReg_tail o (by omega)), ← hu]
      exact tail_tailShown o k _ s hi
    case pending =>
      rw [State.fld, reg_rung _ _ _ _ (ringReg_stat o (by omega)), ← hu]
      exact pending_tailShown o k _ s hi
    case fetch =>
      rw [fetchStopped_congr work.parts work.mgmtStop]
      exact fetchStopped_clearFetchStop r u
    case cmds => exact work.cmds.trans ((clearFetchStop_cmds r u).trans shown.cmds)
    case mem => exact work.mem.trans ((clearFetchStop_mem r u).trans shown.mem)
    case event => rintro n rfl; exact irqPending_irqRaise (irqListed_doorbell n) _ _
    case sessions =>
      intro q
      rw [part_of_parts work.parts, sessions_clearFetchStop, part_of_parts shown.parts]
  · have apart : (ringRegs o k).tail ≠ (ringRegs o k).stat := by simp only [ringRegs_eq]; omega
    rw [doTail_bad hge]
    refine ⟨?_, fld_setFld_other _ apart .., sameButRegs_setReg ..⟩
    rw [State.flag, fld_setFld_same _ _ _ _ (by decide)]
    rfl

end Sys2Proof.Machine
end

section
/-!
PROOFS. Completion records: what writing one may change, bytes written within a tile under a partition's key, the record that
stands in a ring in the herd tier, and rejection (11_commands.md).
-/

namespace Sys2Proof.Machine

/-! ### What writing a record may change -/

/-- The state `s` with what the writing of a record may change as in `u`. -/
def withRecordOf (u s : State) : State :=
  { s with regs := u.regs, mem := u.mem, keys := u.keys, parts := u.parts, flt := u.flt, taith := u.taith, mgmtCq := u.mgmtCq }

/-- The partition `x` with the client counters, completion ring and replay marks of `y`. -/
def Partition.withRecordOf (y x : Partition) : Partition :=
  { x with clients := y.clients, overflow := y.overflow, cq := y.cq, replay := y.replay, stopped := y.stopped }

/-- Writing a record of a ring owner's completion ring works on registers, memory, the link, the interrupt unit, completion
rings and client counters; the management ring's records go to the window, and no byte of memory differs. -/
structure RecordFrame (o : RingOwner) (s t : State) : Prop where
  machine : t = withRecordOf t s
  part : ∀ q, t.part q = (t.part q).withRecordOf (s.part q)
  window : o = .mgmt → t.mem = s.mem

namespace RecordFrame

variable {o : RingOwner} {s t u : State}

theorem refl (o : RingOwner) (s : State) : RecordFrame o s s := ⟨rfl, fun _ => rfl, fun _ => rfl⟩

theorem trans (h : RecordFrame o s t) (g : RecordFrame o t u) : RecordFrame o s u where
  machine := calc u
    _ = Machine.withRecordOf u t := g.machine
    _ = Machine.withRecordOf u (Machine.withRecordOf t s) := congrArg _ h.machine
  part q := calc u.part q
    _ = (u.part q).withRecordOf (t.part q) := g.part q
    _ = (u.part q).withRecordOf ((t.part q).withRecordOf (s.part q)) := congrArg _ (h.part q)
  window ho := (g.window ho).trans (h.window ho)

theorem ite {c : Prop} [Decidable c] (ht : RecordFrame o s t) (hu : RecordFrame o s u) :
    RecordFrame o s (if c then t else u) := by
  split
  · exact ht
  · exact hu

theorem setReg (h : RecordFrame o s t) (a : Nat) (v : Word) : RecordFrame o s (t.setReg a v) :=
  h.trans ⟨rfl, fun _ => rfl, fun _ => rfl⟩

theorem setFld (h : RecordFrame o s t) (a : Nat) (f : Fld) (x : Nat) : RecordFrame o s (t.setFld a f x) := h.setReg a _

theorem setFlt (h : RecordFrame o s t) (f : Faults) : RecordFrame o s { t with flt := f } :=
  h.trans ⟨rfl, fun _ => rfl, fun _ => rfl⟩

theorem modTaith (h : RecordFrame o s t) (f : Taith → Taith) : RecordFrame o s (Machine.modTaith f t) :=
  h.trans ⟨rfl, fun _ => rfl, fun _ => rfl⟩

theorem modPart (h : RecordFrame o s t) (p : Part) {f : Partition → Partition} (hf : ∀ x, f x = (f x).withRecordOf x) :
    RecordFrame o s (t.modPart p f) := by
  refine h.trans ⟨rfl, fun q => ?_, fun _ => rfl⟩
  by_cases e : q = p
  · subst e
    rw [part_modPart_same]
    exact hf _
  · rw [part_modPart_other t e]
    rfl

theorem modCq (h : RecordFrame o s t) (p : Option Part) (f : CqState → CqState) : RecordFrame o s (Machine.modCq p f t) := by
  cases p with
  | none => exact h.trans ⟨rfl, fun _ => rfl, fun _ => rfl⟩
  | some p => exact h.modPart p fun _ => rfl

theorem writePart {n : Rgn} (h : RecordFrame (.rgn n) s t) (p : Option Part) (m tier off : Nat) (b : List Byte) :
    RecordFrame (.rgn n) s (Machine.writePart p m tier off b t) := by
  unfold Machine.writePart
  split <;> exact h.trans ⟨rfl, fun _ => rfl, nofun⟩

theorem countRecord (h : RecordFrame o s t) (c : Cmd) (rejected : Bool) : RecordFrame o s (Machine.countRecord c rejected t) := by
  unfold Machine.countRecord
  split
  · exact h
  · refine h.modPart _ fun x => ?_
    dsimp only
    split
    · rfl
    · split <;> rfl

/-! ### The operations that a record is written with -/

theorem irqFold (h : RecordFrame o s t) (count : Bool) (j : Nat) (data : Word) :
    RecordFrame o s (Machine.irqFold count j data t) := by
  unfold Machine.irqFold
  split
  · exact ((ite (h.setFld _ _ _) h).setFlt _).setReg _ _ |>.setReg _ _
  · exact h

theorem drainTx (ms : List TxMsg) : ∀ {t : State}, RecordFrame o s t → RecordFrame o s (Machine.drainTx ms t) := by
  induction ms with
  | nil => intro t h; exact h.modTaith _
  | cons m ms ih => intro t h; exact ite (ih (h.modTaith _)) (h.modTaith _)

theorem writeWindow (h : RecordFrame o s t) (a : Nat) (b : List Byte) : RecordFrame o s (Machine.writeWindow a b t).2 := by
  have tagged := h.modTaith fun x => { x with nextTag := x.nextTag + 1 }
  unfold Machine.writeWindow newTag
  dsimp only
  refine drainTx _ ?_
  split
  · exact tagged.modTaith _
  · exact tagged

theorem rAdvance (h : RecordFrame o s t) (g : RingRegs) : RecordFrame o s (Machine.rAdvance g t) :=
  setFld (ite ((h.setFld _ _ _).setFld _ _ _) (h.setFld _ _ _)) _ _ _

theorem cqVisible (h : RecordFrame o s t) (p : Option Part) (o' : RingOwner) (irq : Bool) :
    RecordFrame o s (Machine.cqVisible p o' irq t) :=
  ite ((h.modCq p _).irqFold _ _ _) (h.modCq p _)

theorem putRecord (h : RecordFrame o s t) (p : Option Part) (rec : Rec) (replayed : Bool) :
    RecordFrame o s (Machine.putRecord p o rec replayed t) := by
  unfold Machine.putRecord
  dsimp only
  split
  · cases o with
    | mgmt => exact h
    | rgn n => exact ((h.writePart _ _ _ _ _).rAdvance _).cqVisible _ _ _
  · exact ((h.writeWindow _ _).modCq p _).rAdvance _

theorem showOutstanding (h : RecordFrame o s t) (r : Ring) : RecordFrame o s (Machine.showOutstanding r t) := by
  unfold Machine.showOutstanding
  split
  · exact h
  · split
    · exact h
    · exact h.setFld _ _ _

theorem showShadow (h : RecordFrame o s t) (p : Option Part) : RecordFrame o s (Machine.showShadow p t) := by
  cases p with
  | none => exact h
  | some q => exact showOutstanding (h.setFld _ _ _) (.part q 0)

theorem replayLoop (p : Option Part) (k : Nat) :
    ∀ {t : State}, RecordFrame o s t → RecordFrame o s (Machine.replayLoop p o k t) := by
  induction k with
  | zero => intro t h; exact h
  | succ k ih =>
    intro t h
    unfold Machine.replayLoop
    dsimp only
    split
    · exact h
    · exact ite (ih ((h.modCq p _).putRecord p _ true)) h

theorem setReplay (h : RecordFrame o s t) (p : Part) (on : Bool) : RecordFrame o s (Machine.setReplay p on t) :=
  (h.modPart p (f := fun x => { x with replay := on }) fun _ => rfl).setFld _ _ _

theorem replayEnds (h : RecordFrame o s t) (p : Option Part) : RecordFrame o s (Machine.replayEnds p t) := by
  cases p with
  | none => exact h
  | some q =>
    exact ite (((h.setReplay q false).modPart q (f := fun x => { x with stopped := false }) fun _ => rfl).setFld _ _ _) h

theorem pumpReplay (h : RecordFrame o s t) (p : Option Part) : RecordFrame o s (Machine.pumpReplay p o t) :=
  ite (((replayLoop p _ h).showShadow p).replayEnds p) h

theorem cmds (h : RecordFrame o s t) : t.cmds = s.cmds := by rw [h.machine]; rfl

theorem cells (h : RecordFrame o s t) : t.cells = s.cells := by rw [h.machine]; rfl

theorem rgns (h : RecordFrame o s t) : t.rgns = s.rgns := by rw [h.machine]; rfl

theorem lead (h : RecordFrame o s t) (q : Part) : (t.part q).lead = (s.part q).lead := by
  rw [h.part q]
  rfl

theorem completion (h : RecordFrame o s t) (r : Ring) : Machine.completion t r = Machine.completion s r := by
  cases r with
  | mgmt => rfl
  | part p k => simp only [Machine.completion, ownerOf, h.lead p]

theorem emitRecord (h : RecordFrame o s t) {r : Ring} (ho : (Machine.completion s r).getD o = o) (rec : Rec) :
    RecordFrame o s (Machine.emitRecord r rec t) := by
  unfold Machine.emitRecord
  rw [h.completion r]
  split
  · exact h
  next x hx =>
    rw [hx] at ho
    obtain rfl : x = o := ho
    exact ite h (ite (((h.modCq _ _).showShadow _).pumpReplay _) (h.putRecord _ _ _))

end RecordFrame

/-- A command leaves the command table; the chip has been active. -/
def takenOut (c : Cmd) (s : State) : State :=
  { s with cmds := s.cmds.filter fun d => d.id != c.id, pwr := { s.pwr with lastActive := s.now } }

/-- The owner of the completion ring of a ring; the management ring stands for none. -/
def completionOf (s : State) (r : Ring) : RingOwner := (completion s r).getD .mgmt

theorem finish_frame (c : Cmd) (rejected : Bool) (s : State) :
    RecordFrame (completionOf s c.ring) (takenOut c s) (finish c rejected s) := by
  have owner : (completion (takenOut c s) c.ring).getD (completionOf s c.ring) = completionOf s c.ring := by
    show (completion s c.ring).getD ((completion s c.ring).getD .mgmt) = (completion s c.ring).getD .mgmt
    cases completion s c.ring <;> rfl
  exact (((RecordFrame.refl _ _).countRecord c rejected).emitRecord owner _).showOutstanding _

theorem cmds_finish (c : Cmd) (rejected : Bool) (s : State) :
    (finish c rejected s).cmds = s.cmds.filter fun d => d.id != c.id :=
  (finish_frame c rejected s).cmds

theorem cmd_eq_none_of_filter {s t : State} {id : Nat} (h : t.cmds = s.cmds.filter fun d => d.id != id) : t.cmd id = none := by
  rw [State.cmd, h, List.find?_eq_none]
  intro d hd
  simpa using (List.mem_filter.mp hd).2

/-- A command as its record shows it when it is rejected (R292). -/
def Cmd.rejected (c : Cmd) (status detail : Nat) : Cmd := { c with status := status, detail := detail, result := [] }

theorem reject_eq {s : State} {id : Nat} {c : Cmd} (h : s.cmd id = some c) (status detail : Nat) :
    reject id status detail s = finish (c.rejected status detail) true s := by
  simp only [reject, h, Cmd.rejected]

/-! ### Rejection -/

theorem ring_of_headEntry {s : State} {r : Ring} {c : Cmd} (h : headEntry s r = some c) : c.ring = r := by
  have := List.find?_some h
  simp only [Bool.and_eq_true, beq_iff_eq] at this
  exact this.1

theorem process_badHeader {op : Nat} {r : Ring} {check : Cmd → State → State × Verdict} {act : Cmd → State → State} {s : State}
    {c : Cmd} {off : Nat} (hhead : headEntry s r = some c) (hop : c.opcode = op) (hturn : myTurn s c = true)
    (hfatal : s.fatal = false) (hallowed : opcodeAllowed s c = true) (hbad : badHeader s c = some off) :
    process op r check act s = reject c.id ST_BAD_PARAM off s := by
  simp [process, hhead, hop, hturn, hfatal, hallowed, hbad]

/-- Settles O22: a rejection is the writing of a record, and the management ring's records go to the window. -/
theorem badHeaderIsRejected : Obligations.BadHeaderIsRejected := by
  unfold Obligations.BadHeaderIsRejected
  intro c off s awake hhead hc hop hfatal hallowed hbad
  have hring := ring_of_headEntry hhead
  have hturn : myTurn s c = true := by simp only [myTurn, hring]
  have run : exec (.quotaSet .mgmt noChoice) s =
      .next (finish (c.rejected ST_BAD_PARAM off) true s) := by
    rw [exec_quotaSet, live_awake _ awake, process_badHeader hhead hop hturn hfatal hallowed hbad, reject_eq hc]
  have frame := finish_frame (c.rejected ST_BAD_PARAM off) true s
  have window : completionOf s (c.rejected ST_BAD_PARAM off).ring = .mgmt := congrArg (completionOf s) hring
  have cmds := cmds_finish (c.rejected ST_BAD_PARAM off) true s
  refine ⟨_, run, cmd_eq_none_of_filter cmds, ?mem, ?cells, ?rgns, cmds, fun q => ?part⟩
  case mem => exact frame.window window
  case cells => exact frame.cells
  case rgns => exact frame.rgns
  case part =>
    rw [frame.part q]
    exact ⟨rfl, rfl, rfl, rfl⟩

end Sys2Proof.Machine
end

section
/-!
PROOFS. Bytes written within a tile under a partition's key, and the record that stands in a completion ring in the herd tier
(R181, R298).
-/

namespace Sys2Proof.Machine

/-! ### Byte strings -/

theorem length_splice {l b : List Byte} {off : Nat} (h : off + b.length ≤ l.length) : (splice l off b).length = l.length := by
  simp only [splice, List.length_append, List.length_take, List.length_drop]
  omega

theorem take_splice {l b : List Byte} {off k : Nat} (hk : k ≤ off) (h : off ≤ l.length) : (splice l off b).take k = l.take k := by
  rw [splice, List.append_assoc, List.take_append_of_le_length (by rw [List.length_take]; omega), List.take_take, Nat.min_eq_left hk]

theorem getElem_splice {l b : List Byte} {off i : Nat} (h : off ≤ l.length) (hi : i < b.length) :
    ∃ hlt, (splice l off b)[off + i]'hlt = b[i] := by
  refine ⟨by simp only [splice, List.length_append, List.length_take]; omega, ?_⟩
  simp only [splice]
  have hoff : (l.take off).length = off := List.length_take_of_le h
  rw [List.getElem_append_left (by rw [List.length_append, hoff]; omega), List.getElem_append_right (by omega)]
  congr 1
  omega

theorem length_load (s : State) (k : Nat) : ∀ a, (s.load a k).length = k := by
  induction k with
  | zero => intro a; rfl
  | succ k ih => intro a; simp [State.load, ih]

theorem load_congr {s t : State} (h : t.mem = s.mem) (k : Nat) : ∀ a, t.load a k = s.load a k := by
  induction k with
  | zero => intro a; rfl
  | succ k ih => intro a; rw [State.load, State.load, byte_of_mem h, ih]

/-- What stands in memory from an address is what is loaded from there. -/
theorem load_eq_take {s : State} (k : Nat) : ∀ {a : Nat} {b : List Byte}, k ≤ b.length → Holds s a b → s.load a k = b.take k := by
  induction k with
  | zero => intro a b _ _; rfl
  | succ k ih =>
    intro a b hk h
    cases b with
    | nil => cases hk
    | cons x xs =>
      have tail : Holds s (a + 1) xs := fun i hi => by
        have := h (i + 1) (Nat.succ_lt_succ hi)
        rwa [← Nat.add_assoc, Nat.add_right_comm] at this
      rw [State.load, List.take_succ_cons, ih (Nat.le_of_succ_le_succ hk) tail]
      exact congrArg (· :: _) (h 0 (Nat.zero_lt_succ _))

/-! ### Tiles and their keys -/

/-- Memory, the keys that its tiles were written under and the keys in force are as before. -/
structure SameTiles (s t : State) : Prop where
  mem : t.mem = s.mem
  keys : t.keys = s.keys
  keyFor : ∀ p tier, Machine.keyFor t p tier = Machine.keyFor s p tier

namespace SameTiles

variable {s t u : State}

theorem trans (h : SameTiles s t) (g : SameTiles t u) : SameTiles s u :=
  ⟨g.mem.trans h.mem, g.keys.trans h.keys, fun p tier => (g.keyFor p tier).trans (h.keyFor p tier)⟩

/-- It rests on memory, its keys and, of the partitions, what encrypts them. -/
theorem of_parts (hm : t.mem = s.mem) (hk : t.keys = s.keys) (hp : ∀ q, (t.part q).encHerd = (s.part q).encHerd ∧
    (t.part q).encFold = (s.part q).encFold ∧ (t.part q).keyHerd = (s.part q).keyHerd ∧ (t.part q).keyFold = (s.part q).keyFold) :
    SameTiles s t := by
  refine ⟨hm, hk, fun p tier => ?_⟩
  cases p with
  | none => rfl
  | some q =>
    obtain ⟨eh, ef, kh, kf⟩ := hp q
    simp only [Machine.keyFor, eh, ef, kh, kf]

theorem refl (s : State) : SameTiles s s := ⟨rfl, rfl, fun _ _ => rfl⟩

theorem setReg (h : SameTiles s t) (a : Nat) (v : Word) : SameTiles s (t.setReg a v) :=
  h.trans (.of_parts rfl rfl fun _ => ⟨rfl, rfl, rfl, rfl⟩)

theorem setFld (h : SameTiles s t) (a : Nat) (f : Fld) (x : Nat) : SameTiles s (t.setFld a f x) := h.setReg a _

theorem ite {c : Prop} [Decidable c] (ht : SameTiles s t) (hu : SameTiles s u) : SameTiles s (if c then t else u) := by
  split
  · exact ht
  · exact hu

theorem modPart (h : SameTiles s t) (p : Part) {f : Partition → Partition} (hf : ∀ x, (f x).encHerd = x.encHerd ∧
    (f x).encFold = x.encFold ∧ (f x).keyHerd = x.keyHerd ∧ (f x).keyFold = x.keyFold) : SameTiles s (t.modPart p f) := by
  refine h.trans (.of_parts rfl rfl fun q => ?_)
  by_cases e : q = p
  · subst e
    rw [part_modPart_same]
    exact hf _
  · rw [part_modPart_other t e]
    exact ⟨rfl, rfl, rfl, rfl⟩

theorem keyOf (h : SameTiles s t) (n tier tile : Nat) : Machine.keyOf t n tier tile = Machine.keyOf s n tier tile := by
  rw [Machine.keyOf, Machine.keyOf, h.keys]

theorem readTile (h : SameTiles s t) (p : Option Part) (n tier tile : Nat) :
    Machine.readTile t p n tier tile = Machine.readTile s p n tier tile := by
  rw [Machine.readTile, Machine.readTile, h.keyOf, h.keyFor, load_congr h.mem]

theorem readPart (h : SameTiles s t) (p : Option Part) (n tier off k : Nat) :
    Machine.readPart t p n tier off k = Machine.readPart s p n tier off k := by
  rw [Machine.readPart, Machine.readPart, h.keyOf, h.keyFor, h.readTile, load_congr h.mem]

theorem store (h : SameTiles s t) (a : Nat) (b : List Byte) : SameTiles (s.store a b) (t.store a b) :=
  ⟨congrArg (putBytes · a b) h.mem, h.keys, h.keyFor⟩

/-- The same bytes written leave the same tiles. -/
theorem writePart (h : SameTiles s t) (p : Option Part) (n tier off : Nat) (b : List Byte) :
    SameTiles (Machine.writePart p n tier off b s) (Machine.writePart p n tier off b t) := by
  unfold Machine.writePart
  rw [h.keyOf, h.keyFor, h.readTile]
  split
  · exact h.store ..
  · obtain ⟨mem, _, keyFor⟩ :=
      h.store (tileAddr n tier (off / 4096)) (splice (Machine.readTile s p n tier (off / 4096)) (off % 4096) b)
    exact ⟨mem, congrArg (Assoc.put keyDefault _ _) h.keys, keyFor⟩

end SameTiles

theorem length_readTile (s : State) (p : Option Part) (n tier tile : Nat) : (readTile s p n tier tile).length = 4096 := by
  unfold readTile recipher
  split
  · exact length_load ..
  · exact length_leBytes ..

/-- An offset lies in its tile. -/
theorem tileAddr_add_mod (n tier off : Nat) : tileAddr n tier (off / 4096) + off % 4096 = spaceAddr (tier - 1) n off := by
  simp only [tileAddr, spaceAddr]
  omega

section
variable (p : Option Part) (n tier off : Nat) (b : List Byte) (s : State)

theorem keyFor_writePart (q : Option Part) (j : Nat) : keyFor (writePart p n tier off b s) q j = keyFor s q j := by
  unfold writePart
  split <;> rfl

/-- A tile that has been written within is under the writer's key. -/
theorem keyOf_writePart : keyOf (writePart p n tier off b s) n tier (off / 4096) = keyFor s p tier := by
  unfold writePart
  split
  next same => exact same
  next => exact Assoc.get_put_same ..

/-- Under the writer's key already, the tile keeps every byte outside those written. -/
theorem sameBytesBut_writePart (hkey : keyOf s n tier (off / 4096) = keyFor s p tier) :
    SameBytesBut (spaceAddr (tier - 1) n off) b.length s (writePart p n tier off b s) := by
  rw [writePart, if_pos hkey]
  exact sameBytesBut_of_store rfl

theorem holds_writePart : Holds (writePart p n tier off b s) (spaceAddr (tier - 1) n off) b := by
  intro i hi
  unfold writePart
  split
  · exact byte_store_inside s _ b hi
  · obtain ⟨hlt, inside⟩ := getElem_splice (l := readTile s p n tier (off / 4096)) (off := off % 4096)
      (by rw [length_readTile]; omega) hi
    rw [← tileAddr_add_mod, Nat.add_assoc, ← inside]
    exact byte_store_inside s _ _ hlt

/-- The writer reads back what it wrote within a tile (R181). -/
theorem readPart_writePart {k : Nat} (hk : k ≤ b.length) : readPart (writePart p n tier off b s) p n tier off k = b.take k := by
  rw [readPart, if_pos (by rw [keyOf_writePart, keyFor_writePart])]
  exact load_eq_take k hk (holds_writePart p n tier off b s)

variable (hfit : off % 4096 + b.length ≤ 4096)
include hfit

/-- Writing within a tile changes no byte outside the tile. -/
theorem sameBytesBut_tile_writePart : SameBytesBut (tileAddr n tier (off / 4096)) 4096 s (writePart p n tier off b s) := by
  have start := tileAddr_add_mod n tier off
  by_cases hkey : keyOf s n tier (off / 4096) = keyFor s p tier
  · exact fun c hc => sameBytesBut_writePart p n tier off b s hkey c (by omega)
  · have length : (splice (readTile s p n tier (off / 4096)) (off % 4096) b).length = 4096 := by
      rw [length_splice] <;> rw [length_readTile]
      exact hfit
    rw [writePart, if_neg hkey]
    exact fun c hc => byte_store_outside s _ _ (by omega)

end

/-! ### The record of a command (Table 11.8) -/

theorem length_recBytes (c : Cmd) (ticks : Nat) : (recBytes c ticks).length = 32 := by
  simp [recBytes, length_leBytes, Config.fit]

/-- What a record says before FLAGS: opcode, status, TAG, CLIENT and ring. -/
def recordHead (c : Cmd) : List Byte :=
  leBytes 1 c.opcode ++ leBytes 1 c.status ++ leBytes 2 c.tag ++ leBytes 2 c.client ++ leBytes 1 (ringSource c.ring)

theorem take_recBytes (c : Cmd) (ticks : Nat) : (recBytes c ticks).take 7 = recordHead c := by
  rw [recBytes, List.take_append_of_le_length, List.take_append_of_le_length, List.take_append_of_le_length,
    List.take_append_of_le_length, List.take_of_length_le, recordHead] <;> simp [length_leBytes]

theorem length_withPhase {b : List Byte} (h : b.length = 32) (phase replayed : Bool) : (withPhase b phase replayed).length = 32 := by
  rw [withPhase, length_splice, h]
  rw [length_leBytes, h]
  decide

theorem take_withPhase {b : List Byte} (h : b.length = 32) (phase replayed : Bool) : (withPhase b phase replayed).take 7 = b.take 7 :=
  take_splice (Nat.le_refl 7) (by omega)

/-! ### A record in the herd tier -/

section
variable (r : RingRegs) (s : State)

theorem sameTiles_rAdvance : SameTiles s (rAdvance r s) := by
  have moved := (SameTiles.refl s).setFld r.tail Reg.CMD_RING_TAIL_INDEX ((rTail s r + 1) % rSize s r)
  exact (SameTiles.ite (moved.setFld _ _ _) moved).setFld _ _ _

theorem sameTiles_modCq (p : Option Part) (f : CqState → CqState) : SameTiles s (modCq p f s) := by
  cases p with
  | none => exact .of_parts rfl rfl fun _ => ⟨rfl, rfl, rfl, rfl⟩
  | some q => exact (SameTiles.refl s).modPart q fun _ => ⟨rfl, rfl, rfl, rfl⟩

theorem sameTiles_irqRaise (j : Nat) (data : Word) : SameTiles s (irqRaise j data s) := by
  unfold irqRaise irqFold
  split <;> exact .of_parts rfl rfl fun _ => ⟨rfl, rfl, rfl, rfl⟩

theorem sameTiles_cqVisible (p : Option Part) (o : RingOwner) (irq : Bool) : SameTiles s (cqVisible p o irq s) :=
  .ite ((sameTiles_modCq s p _).trans (sameTiles_irqRaise ..)) (sameTiles_modCq s p _)

theorem sameTiles_countRecord (c : Cmd) (rejected : Bool) : SameTiles s (countRecord c rejected s) := by
  unfold countRecord
  split
  · exact .refl s
  · refine (SameTiles.refl s).modPart _ fun x => ?_
    dsimp only
    split
    · exact ⟨rfl, rfl, rfl, rfl⟩
    · split <;> exact ⟨rfl, rfl, rfl, rfl⟩

theorem sameTiles_showOutstanding (q : Ring) : SameTiles s (showOutstanding q s) := by
  unfold showOutstanding
  split
  · exact .refl s
  · split
    · exact .refl s
    · exact (SameTiles.refl s).setFld _ _ _

theorem sameTiles_showHold (q : Ring) : SameTiles s (showHold q s) := by
  unfold showHold
  split
  · exact ((SameTiles.refl s).setFld _ _ _).setFld _ _ _
  · exact .refl s

theorem reg_modCq (p : Option Part) (f : CqState → CqState) (a : Nat) : (modCq p f s).reg a = s.reg a := by
  cases p <;> rfl

theorem reg_cqVisible (p : Option Part) (o : RingOwner) (irq : Bool) {a : Nat} (ha : RingReg a) :
    (cqVisible p o irq s).reg a = s.reg a := by
  unfold cqVisible
  dsimp only
  split
  · rw [irqRaise, reg_irqFold _ _ _ _ ha, reg_modCq]
  · exact reg_modCq ..

theorem reg_countRecord (c : Cmd) (rejected : Bool) (a : Nat) : (countRecord c rejected s).reg a = s.reg a := by
  unfold countRecord
  split <;> rfl

theorem reg_writePart (p : Option Part) (n tier off : Nat) (b : List Byte) (a : Nat) : (writePart p n tier off b s).reg a = s.reg a := by
  unfold writePart
  split <;> rfl

theorem reg_showOutstanding (q : Ring) {a : Nat} (ha : RingReg a) : (showOutstanding q s).reg a = s.reg a := by
  have status (n : Rgn) : a ≠ Reg.CMD_STATUS n := by simp only [Reg.CMD_STATUS, rgnBase]; omega
  unfold showOutstanding
  split
  · rfl
  · split
    · rfl
    · exact reg_setFld_other _ (status _) _ _

end

/-- TAIL moves on by one record (R282). -/
theorem rTail_rAdvance (o : RingOwner) (k : Nat) (s : State) : rTail (rAdvance (ringRegs o k) s) (ringRegs o k) =
    (rTail s (ringRegs o k) + 1) % rSize s (ringRegs o k) % 2 ^ Reg.CMD_RING_TAIL_INDEX.w := by
  have apart : (ringRegs o k).tail ≠ (ringRegs o k).stat := by simp only [ringRegs_eq]; omega
  rw [rAdvance, showRing, rTail, fld_setFld_other _ apart]
  split
  · rw [fld_setFld_apart _ _ _ _ _ (by decide) (by decide), fld_setFld_same _ _ _ _ (by decide)]
  · rw [fld_setFld_same _ _ _ _ (by decide)]

/-- A command has left the command table and its client's slot has counted it. -/
def counted (c : Cmd) (rejected : Bool) (s : State) : State := countRecord c rejected (takenOut c s)

theorem finish_eq (c : Cmd) (rejected : Bool) (s : State) : finish c rejected s = showOutstanding c.ring
    (emitRecord c.ring ⟨recBytes c (if rejected then 0 else s.now - c.tick), c.flags.testBit 1⟩ (counted c rejected s)) := rfl

theorem sameTiles_counted (c : Cmd) (rejected : Bool) (s : State) : SameTiles s (counted c rejected s) :=
  have out : SameTiles s (takenOut c s) := .of_parts rfl rfl fun _ => ⟨rfl, rfl, rfl, rfl⟩
  out.trans (sameTiles_countRecord (takenOut c s) c rejected)

theorem lead_counted (c : Cmd) (rejected : Bool) (s : State) (q : Part) :
    ((counted c rejected s).part q).lead = (s.part q).lead :=
  ((RecordFrame.refl .mgmt (takenOut c s)).countRecord c rejected).lead q

section
variable {p : Part} {k : Fin 2} {n : Rgn} {c : Cmd} {s : State} (hring : c.ring = .part p k) (hlead : (s.part p).lead = some n)
  (henabled : rEnabled s (ringRegs (.rgn n) 2) = true) (hloc : rLoc s (ringRegs (.rgn n) 2) = 1)

/-- Where the next record of the lead region's completion ring goes. -/
def recordOff (s : State) (n : Rgn) : Nat := rBase s (ringRegs (.rgn n) 2) + 32 * rTail s (ringRegs (.rgn n) 2)

theorem recordOff_fits (s : State) (n : Rgn) : recordOff s n % 4096 + 32 ≤ 4096 := by
  simp only [recordOff, rBase]
  omega

include hlead henabled hloc in
theorem emitRecord_herd (rec : Rec) : emitRecord (.part p k) rec s =
    cqVisible (some p) (.rgn n) rec.irq (rAdvance (ringRegs (.rgn n) 2) (writePart (some p) n.val 2 (recordOff s n)
      (withPhase rec.bytes (s.flag (ringRegs (.rgn n) 2).tail Reg.CMD_RING_TAIL_PHASE) false) s)) := by
  simp [emitRecord, completion, ownerOf, hlead, henabled, hloc, putRecord, ringPart, recordOff]

include hring hlead henabled hloc

/-- A finished command is counted, and its record goes to the herd tier of its lead region at TAIL. -/
theorem finish_herd (rejected : Bool) : ∃ b phase irq, b.length = 32 ∧ b.take 7 = recordHead c ∧
    finish c rejected s = showOutstanding c.ring (cqVisible (some p) (.rgn n) irq (rAdvance (ringRegs (.rgn n) 2)
      (writePart (some p) n.val 2 (recordOff s n) (withPhase b phase false) (counted c rejected s)))) := by
  have same (a : Nat) : (counted c rejected s).reg a = s.reg a := reg_countRecord ..
  have lead : ((counted c rejected s).part p).lead = some n := (lead_counted c rejected s p).trans hlead
  have enabled : rEnabled (counted c rejected s) (ringRegs (.rgn n) 2) = true := by
    simpa only [rEnabled, State.flag, State.fld, same] using henabled
  have loc : rLoc (counted c rejected s) (ringRegs (.rgn n) 2) = 1 := by simpa only [rLoc, State.fld, same] using hloc
  have off : recordOff (counted c rejected s) n = recordOff s n := by
    simp only [recordOff, rBase, rTail, State.fld, same]
  rw [finish_eq, hring, emitRecord_herd lead enabled loc, off]
  exact ⟨_, _, _, length_recBytes .., take_recBytes .., rfl⟩

/-- The record of a finished command stands at TAIL of its lead region's completion ring (R282, R298). -/
theorem finish_stores (rejected : Bool) : ∃ b phase, b.length = 32 ∧ b.take 7 = recordHead c ∧
    SameTiles (writePart (some p) n.val 2 (recordOff s n) (withPhase b phase false) s) (finish c rejected s) := by
  obtain ⟨b, phase, irq, length, head, eq⟩ := finish_herd hring hlead henabled hloc rejected
  have written := (sameTiles_counted c rejected s).writePart (some p) n.val 2 (recordOff s n) (withPhase b phase false)
  have shown (u : State) : SameTiles u (showOutstanding c.ring (cqVisible (some p) (.rgn n) irq (rAdvance (ringRegs (.rgn n) 2) u))) :=
    (sameTiles_rAdvance _ u).trans ((sameTiles_cqVisible _ (some p) (.rgn n) irq).trans (sameTiles_showOutstanding _ c.ring))
  exact ⟨b, phase, length, head, eq ▸ written.trans (shown _)⟩

theorem readPart_finish (rejected : Bool) :
    readPart (finish c rejected s) (some p) n.val 2 (recordOff s n) 7 = recordHead c := by
  obtain ⟨b, phase, length, head, tiles⟩ := finish_stores hring hlead henabled hloc rejected
  have length' := length_withPhase length phase false
  rw [tiles.readPart, readPart_writePart _ _ _ _ _ _ (by rw [length']; decide),
    take_withPhase length, head]

theorem sameBytesBut_tile_finish (rejected : Bool) :
    SameBytesBut (tileAddr n.val 2 (recordOff s n / 4096)) 4096 s (finish c rejected s) := by
  obtain ⟨b, phase, length, _, tiles⟩ := finish_stores hring hlead henabled hloc rejected
  have fits : recordOff s n % 4096 + (withPhase b phase false).length ≤ 4096 := by
    rw [length_withPhase length]
    exact recordOff_fits s n
  exact fun a ha => (byte_of_mem tiles.mem a).trans (sameBytesBut_tile_writePart _ _ _ _ _ _ fits a ha)

theorem sameBytesBut_finish (rejected : Bool) (hkey : keyOf s n.val 2 (recordOff s n / 4096) = keyFor s (some p) 2) :
    SameBytesBut (herdAddr n.val (recordOff s n)) 32 s (finish c rejected s) := by
  obtain ⟨b, phase, length, _, tiles⟩ := finish_stores hring hlead henabled hloc rejected
  have written := sameBytesBut_writePart _ _ _ _ (withPhase b phase false) s hkey
  rw [length_withPhase length] at written
  exact fun a ha => (byte_of_mem tiles.mem a).trans (written a ha)

theorem rTail_finish (rejected : Bool) : rTail (finish c rejected s) (ringRegs (.rgn n) 2) =
    (rTail s (ringRegs (.rgn n) 2) + 1) % rSize s (ringRegs (.rgn n) 2) % 2 ^ Reg.CMD_RING_TAIL_INDEX.w := by
  obtain ⟨b, phase, irq, _, _, eq⟩ := finish_herd hring hlead henabled hloc rejected
  have same (a : Nat) : (writePart (some p) n.val 2 (recordOff s n) (withPhase b phase false) (counted c rejected s)).reg a = s.reg a :=
    (reg_writePart ..).trans (reg_countRecord ..)
  have advanced := rTail_rAdvance (.rgn n) 2
    (writePart (some p) n.val 2 (recordOff s n) (withPhase b phase false) (counted c rejected s))
  have tail := ringReg_tail (.rgn n) (k := 2) (by decide)
  simp only [rTail, rSize, State.fld, same] at advanced
  rw [eq, rTail, State.fld, reg_showOutstanding _ _ tail, reg_cqVisible _ _ _ _ tail]
  exact advanced

end

/-! ### RESERVED_OPCODE (R292) -/

theorem rejectReserved_head {r : Ring} {c : Cmd} {s : State} (hhead : headEntry s r = some c) (hop : opcodeKnown c.opcode = false)
    (hturn : myTurn s c = true) (hfatal : s.fatal = false) :
    rejectReserved r s = showHold r (reject c.id ST_BAD_OPCODE 0 s) := by
  simp [rejectReserved, hhead, hop, hturn, hfatal]

@[simp] theorem cmds_showHold (r : Ring) (s : State) : (showHold r s).cmds = s.cmds := by
  unfold showHold
  split <;> rfl

/-- What a submission ring shows of its head entry leaves the completion ring's TAIL alone. -/
theorem rTail_showHold (p : Part) (k : Fin 2) (n : Rgn) (s : State) :
    rTail (showHold (.part p k) s) (ringRegs (.rgn n) 2) = rTail s (ringRegs (.rgn n) 2) := by
  unfold showHold
  split
  next o j _ _ _ =>
    have apart : (ringRegs (.rgn n) 2).tail ≠ (ringRegs o j).stat := by
      cases o <;> simp only [ringRegs_eq, ringBase, rgnBase] <;> omega
    rw [rTail, fld_setFld_other _ apart, fld_setFld_other _ apart]
    rfl
  next => rfl

/-- Settles O21: a reserved opcode is rejected, and a rejection in the herd tier is the record of a finished command. -/
theorem reservedOpcodeIsRejected : Obligations.ReservedOpcodeIsRejected := by
  unfold Obligations.ReservedOpcodeIsRejected
  intro p k n c s awake hfatal hhead hc hop hturn
  generalize hd : c.rejected ST_BAD_OPCODE 0 = d
  have run : exec (.reservedOpcode (.part p k)) s = .next (showHold (.part p k) (finish d true s)) := by
    rw [exec_reservedOpcode, live_awake _ awake, rejectReserved_head hhead hop hturn hfatal, reject_eq hc, hd]
  have ring := ring_of_headEntry hhead
  have hring : d.ring = .part p k := (congrArg Cmd.ring hd).symm.trans ring
  have head : recordHead d = leBytes 1 c.opcode ++ leBytes 1 0x10 ++ leBytes 2 c.tag ++ leBytes 2 c.client ++ leBytes 1 k.val := by
    rw [recordHead, hring]
    subst hd
    rfl
  have tiles := sameTiles_showHold (finish d true s) (.part p k)
  refine ⟨_, run, ?gone, fun hlead henabled hloc => ⟨?tile, fun hkey => ?record, ?carries, ?tail⟩⟩
  case gone =>
    refine cmd_eq_none_of_filter (s := s) ?_
    rw [cmds_showHold, cmds_finish, ← hd]
    rfl
  case tile => exact fun a ha => (byte_of_mem tiles.mem a).trans (sameBytesBut_tile_finish hring hlead henabled hloc true a ha)
  case record => exact fun a ha => (byte_of_mem tiles.mem a).trans (sameBytesBut_finish hring hlead henabled hloc true hkey a ha)
  case carries => exact (tiles.readPart ..).trans ((readPart_finish hring hlead henabled hloc true).trans head)
  case tail => exact (rTail_showHold ..).trans (rTail_finish hring hlead henabled hloc true)

end Sys2Proof.Machine
end

section
/-!
PROOFS. What a retirement frees, and the record that it writes (R185, R238, R272, R276, R298).
-/

namespace Sys2Proof.Machine

/-! ### What is freed at a retirement -/

/-- No fold tile of the partition waits to be given back: those that it holds are of TIER_ALLOC or of a park copy. -/
def NoFoldFreed (p : Part) (s : State) : Prop :=
  ∀ a ∈ (s.part p).allocs, a.ext.tier = 3 → a.owner = .alloc ∨ ∃ h, a.owner = .park h

/-- What a retirement frees leaves the commands, the tiles' contents and the partition's sessions alone, and allocates nothing. -/
structure FreeFrame (p : Part) (s t : State) : Prop where
  cmds : t.cmds = s.cmds
  tiles : SameTiles s t
  sessions : (t.part p).sessions = (s.part p).sessions
  allocs : (t.part p).allocs ⊆ (s.part p).allocs

theorem unmapExtents_noFold {l : List Extent} (h : ∀ e ∈ l, e.tier ≠ 3) (s : State) : unmapExtents l s = s := by
  induction l with
  | nil => rfl
  | cons e es ih =>
    rw [unmapExtents, if_neg (h e (List.mem_cons_self ..))]
    exact ih fun x hx => h x (List.mem_cons_of_mem _ hx)

namespace FreeFrame

variable {p : Part} {s t u : State}

theorem refl (p : Part) (s : State) : FreeFrame p s s := ⟨rfl, .refl s, rfl, fun _ h => h⟩

theorem trans (h : FreeFrame p s t) (g : FreeFrame p t u) : FreeFrame p s u :=
  ⟨g.cmds.trans h.cmds, h.tiles.trans g.tiles, g.sessions.trans h.sessions, fun _ ha => h.allocs (g.allocs ha)⟩

theorem setFld (h : FreeFrame p s t) (a : Nat) (f : Fld) (x : Nat) : FreeFrame p s (t.setFld a f x) :=
  h.trans ⟨rfl, (SameTiles.refl t).setFld a f x, rfl, fun _ ha => ha⟩

/-- A partition's versions, costs and adapters may change. -/
theorem modPart (h : FreeFrame p s t) {f : Partition → Partition} (hf : ∀ x, f x =
    { x with versions := (f x).versions, active := (f x).active, costs := (f x).costs, adapters := (f x).adapters }) :
    FreeFrame p s (t.modPart p f) := by
  refine h.trans ⟨rfl, (SameTiles.refl t).modPart p fun x => ?_, ?_, ?_⟩
  · rw [hf x]; exact ⟨rfl, rfl, rfl, rfl⟩
  · rw [part_modPart_same, hf]
  · rw [part_modPart_same, hf]; exact fun _ ha => ha

/-- An owner whose allocations are not those of TIER_ALLOC or of a park copy gives back no fold tile. -/
theorem dropAllocs (hs : NoFoldFreed p s) (h : FreeFrame p s t) {f : Alloc → Bool}
    (hf : ∀ a, f a = true → a.owner ≠ .alloc ∧ ∀ x, a.owner ≠ .park x) : FreeFrame p s (Machine.dropAllocs p f t) := by
  have noFold : ∀ e ∈ ((t.part p).allocs.filter f).map Alloc.ext, e.tier ≠ 3 := by
    intro e he htier
    obtain ⟨a, ha, rfl⟩ := List.mem_map.mp he
    obtain ⟨hmem, hfa⟩ := List.mem_filter.mp ha
    obtain ⟨notAlloc, notPark⟩ := hf a hfa
    obtain alloc | ⟨x, park⟩ := hs a (h.allocs hmem) htier
    · exact notAlloc alloc
    · exact notPark x park
  rw [Machine.dropAllocs, unmapExtents_noFold noFold]
  refine h.trans ⟨rfl, (SameTiles.refl t).modPart p fun _ => ⟨rfl, rfl, rfl, rfl⟩, ?_, ?_⟩
  · rw [part_modPart_same]
  · rw [part_modPart_same]; exact fun _ ha => (List.mem_filter.mp ha).1

theorem showDeferred (h : FreeFrame p s t) : FreeFrame p s (Machine.showDeferred t) := by
  unfold Machine.showDeferred
  exact List.foldlRecOn (motive := FreeFrame p s) allRgns _ h fun _ hu _ _ => (hu.setFld _ _ _).setFld _ _ _

theorem returnDeferred (hs : NoFoldFreed p s) (h : FreeFrame p s t) : FreeFrame p s (Machine.returnDeferred p t) := by
  refine (h.dropAllocs hs fun a ha => ?_).showDeferred
  constructor
  · intro e; simp [e] at ha
  · intro x e; simp [e] at ha

theorem clearDirs (n : Rgn) (l : List Nat) : ∀ {t : State}, FreeFrame p s t → FreeFrame p s (Machine.clearDirs n l t) := by
  induction l with
  | nil => intro t h; exact h
  | cons i is ih =>
    intro t h
    unfold Machine.clearDirs
    exact ih (h.setFld _ _ _)

theorem clearVersionDirs (l : List Nat) :
    ∀ (ds : List (List Nat)) {t : State}, FreeFrame p s t → FreeFrame p s (Machine.clearVersionDirs l ds t) := by
  induction l with
  | nil => intro ds t h; exact h
  | cons n ns ih =>
    intro ds t h
    cases ds with
    | nil => exact h
    | cons d ds =>
      unfold Machine.clearVersionDirs
      exact ih ds (clearDirs _ _ h)

theorem freeVersion (hs : NoFoldFreed p s) (h : FreeFrame p s t) (v : Version) : FreeFrame p s (Machine.freeVersion p v t) := by
  have dropped := ((clearVersionDirs v.targets v.dirs h).dropAllocs hs
    (f := fun a => a.owner == .pkg v.pkg v.ver) fun a ha => by simp [eq_of_beq ha])
  have gone := dropped.modPart (f := fun q => { q with
    versions := q.versions.filter fun w => !(w.pkg == v.pkg && w.ver == v.ver),
    active := q.active.filter fun a => !(a.1 == v.pkg && a.2 == v.ver),
    costs := q.costs.filter fun y => !(y.pkg == v.pkg && y.ver == v.ver) }) fun _ => rfl
  unfold Machine.freeVersion
  dsimp only
  split
  · exact gone
  · exact gone.modPart fun _ => rfl

theorem freeVersions (hs : NoFoldFreed p s) (l : List Version) :
    ∀ {t : State}, FreeFrame p s t → FreeFrame p s (Machine.freeVersions p l t) := by
  induction l with
  | nil => intro t h; exact h
  | cons v vs ih =>
    intro t h
    unfold Machine.freeVersions
    split
    · exact ih (h.freeVersion hs v)
    · exact ih h

theorem freeAdapters (hs : NoFoldFreed p s) (h : FreeFrame p s t) : FreeFrame p s (Machine.freeAdapters p t) := by
  refine (h.dropAllocs hs fun a ha => ?_).modPart fun _ => rfl
  constructor
  · intro e; simp [e] at ha
  · intro x e; simp [e] at ha

theorem freeRetired (hs : NoFoldFreed p s) : FreeFrame p s (Machine.freeRetired p s) :=
  (freeVersions hs _ ((FreeFrame.refl p s).returnDeferred hs)).freeAdapters hs

end FreeFrame

/-! ### COMMAND_RETIRE -/

/-- A committed command leaves nothing to firmware (R301). -/
theorem settleEnd_committed {c : Cmd} (h : c.phase = .committed) (s : State) : settleEnd c s = s := by
  cases hp : c.part <;> simp [settleEnd, endFollowers, scrambleEnd, h, hp]

theorem trimSessions_noTrim {p : Part} {s : State} (h : ∀ x ∈ (s.part p).sessions, x.trim = false) : trimSessions p s = s := by
  have none : ((s.part p).sessions.filter fun x => x.trim && x.st == .opened && !busy s p x.handle) = [] :=
    List.filter_eq_nil_iff.mpr fun x hx => by simp [h x hx]
  rw [trimSessions, none]
  rfl

theorem retireCommand_committed {id : Nat} {c : Cmd} {p : Part} {s : State} (hc : s.cmd id = some c) (hcommitted : c.phase = .committed)
    (hpart : c.part = some p) (hmay : mayRetire s c = true) (hfatal : s.fatal = false) :
    retireCommand id s = showDeferred (trimSessions p (freeRetired p (finish c false s))) := by
  simp [retireCommand, hc, hmay, hfatal, hpart, settleEnd_committed hcommitted]

/-- Settles O32: a retirement is the record of a finished command, and what is freed then is no tile of the record's. -/
theorem retireWritesTheRecord : Obligations.RetireWritesTheRecord := by
  unfold Obligations.RetireWritesTheRecord
  intro id c p k n s awake hfatal hc hid hcommitted hring hpart hmay hallocs htrim
  have run : exec (.commandRetire id) s = .next (showDeferred (trimSessions p (freeRetired p (finish c false s)))) := by
    rw [exec_commandRetire, live_awake _ awake, retireCommand_committed hc hcommitted hpart hmay hfatal]
  have part := (finish_frame c false s).part p
  have noFold : NoFoldFreed p (finish c false s) := by
    rw [NoFoldFreed, part]
    exact hallocs
  have freed := FreeFrame.freeRetired noFold
  have noTrim : ∀ x ∈ ((freeRetired p (finish c false s)).part p).sessions, x.trim = false := by
    rw [freed.sessions, part]
    exact htrim
  rw [trimSessions_noTrim noTrim] at run
  obtain ⟨cmds, tiles, _, _⟩ := freed.showDeferred
  refine ⟨_, run, ?gone, fun hlead henabled hloc => ?record⟩
  case gone =>
    refine cmd_eq_none_of_filter (s := s) ?_
    rw [cmds, cmds_finish, hid]
  case record =>
    have stands := (tiles.readPart (some p) n.val 2 (recordOff s n) 7).trans (readPart_finish hring hlead henabled hloc false)
    rw [recordHead, hring] at stands
    exact stands

end Sys2Proof.Machine
end

section
/-!
PROOFS. A report of a region source: what containment leaves alone, the reports that follow, and that the source is counted once
(R400 to R407, R52).
-/

namespace Sys2Proof.Machine

/-! ### What containment leaves alone -/

/-- A register that stopping plans, breaking barriers and quarantine leave alone. -/
abbrev BesideContainment (a : Nat) : Prop := a < 0x70000 ∧ a ≠ Reg.FLT_RING_CFG ∨ RingReg a

/-- The registers beside containment read as before. -/
def ContainFrame (s t : State) : Prop := ∀ a, BesideContainment a → t.reg a = s.reg a

theorem not_besideContainment_rgn (n : Rgn) {off : Nat} (h : off < 0x20000 ∨ 0x20060 ≤ off) (hoff : off < 0x100000) :
    ¬ BesideContainment (rgnBase n + off) := by
  simp only [rgnBase]
  omega

theorem not_besideContainment_bar {b : Nat} (h : b < 64) : ¬ BesideContainment (Reg.BAR_STATE b) := by
  simp only [Reg.BAR_STATE]
  omega

namespace ContainFrame

variable {s t u : State}

theorem refl (s : State) : ContainFrame s s := fun _ _ => rfl

theorem trans (h : ContainFrame s t) (g : ContainFrame t u) : ContainFrame s u := fun a ha => (g a ha).trans (h a ha)

theorem ite {c : Prop} [Decidable c] (ht : ContainFrame s t) (hu : ContainFrame s u) : ContainFrame s (if c then t else u) := by
  split
  · exact ht
  · exact hu

/-- What lies outside the register map may change. -/
theorem of_regs (h : ContainFrame s t) (hr : u.regs = t.regs) : ContainFrame s u :=
  h.trans fun a _ => congrArg (fun r => Assoc.get regReset r a) hr

theorem setReg (h : ContainFrame s t) {a : Nat} (ha : ¬ BesideContainment a) (v : Word) : ContainFrame s (t.setReg a v) :=
  h.trans fun b hb => reg_setReg_other t (fun e : b = a => ha (e ▸ hb)) v

theorem setFld (h : ContainFrame s t) {a : Nat} (ha : ¬ BesideContainment a) (f : Fld) (x : Nat) : ContainFrame s (t.setFld a f x) :=
  h.setReg ha _

theorem setRgnFld (h : ContainFrame s t) {a off : Nat} {n : Rgn} (ha : a = rgnBase n + off)
    (ho : (off < 0x20000 ∨ 0x20060 ≤ off) ∧ off < 0x100000) (f : Fld) (x : Nat) : ContainFrame s (t.setFld a f x) :=
  h.setFld (ha ▸ not_besideContainment_rgn n ho.1 ho.2) f x

/-! ### Stopping plans and ending commands -/

theorem flushSlot (h : ContainFrame s t) (n : Rgn) (sl : Nat) : ContainFrame s (Machine.flushSlot n sl t) := by
  have ordered := h.setRgnFld (a := Reg.CTX_FLUSH n) rfl (by decide) (flushingFld sl) 1
  unfold Machine.flushSlot
  dsimp only
  split
  · exact ordered.of_regs rfl
  · split
    · refine setRgnFld (a := Reg.CTX_SLOT_STATE n) ?_ rfl (by decide) _ _
      exact ordered.of_regs rfl
    · exact ordered.of_regs rfl

theorem dropArrival (h : ContainFrame s t) (n : Rgn) : ContainFrame s (Machine.dropArrival n t) :=
  ite (h.setFld (not_besideContainment_bar (Nat.mod_lt _ (by decide))) _ _) h

theorem stopPlan (h : ContainFrame s t) (n : Rgn) (id : Nat) : ContainFrame s (Machine.stopPlan n id t) := by
  have cancelled : ContainFrame s (cancelReqs n id t) := h.of_regs rfl
  unfold Machine.stopPlan
  dsimp only
  split
  · refine flushSlot (flushSlot (flushSlot (flushSlot ?_ n 0) n 1) n 2) n 3
    refine setRgnFld ?_ rfl (by decide) _ _
    refine setRgnFld (setRgnFld ?_ rfl (by decide) _ _) rfl (by decide) _ _
    refine setRgnFld ?_ rfl (by decide) _ _
    refine setRgnFld (setRgnFld ?_ rfl (by decide) _ _) rfl (by decide) _ _
    exact (cancelled.dropArrival n).of_regs rfl
  · exact cancelled

theorem stopIn (id : Nat) (l : List Rgn) : ∀ {t : State}, ContainFrame s t → ContainFrame s (Machine.stopIn id t l) := by
  induction l with
  | nil => intro t h; exact h
  | cons n ns ih => intro t h; exact ih (h.stopPlan n id)

theorem restartClock (h : ContainFrame s t) (c : Cmd) : ContainFrame s (Machine.restartClock c t) := by
  unfold Machine.restartClock
  split
  · exact h
  · split
    · exact h.of_regs rfl
    · exact h

theorem endCommand (h : ContainFrame s t) (id status detail : Nat) : ContainFrame s (Machine.endCommand id status detail t) := by
  unfold Machine.endCommand
  split
  · exact h
  · split
    · exact ((stopIn id allRgns h).restartClock _).of_regs rfl
    · exact h

theorem endAll (status : Nat) (ids : List Nat) : ∀ {t : State}, ContainFrame s t → ContainFrame s (Machine.endAll status t ids) := by
  induction ids with
  | nil => intro t h; exact h
  | cons id ids ih => intro t h; exact ih (h.endCommand id status 0)

theorem clearPoison (l : List Nat) : ∀ {t : State}, ContainFrame s t → ContainFrame s (Machine.clearPoison t l) := by
  induction l with
  | nil => intro t h; exact h
  | cons n ns ih => intro t h; exact ih (h.of_regs rfl)

theorem rerunCommand (h : ContainFrame s t) (id : Nat) (kill : Bool) : ContainFrame s (Machine.rerunCommand id kill t) := by
  unfold Machine.rerunCommand
  split
  · exact h
  · split
    · exact (clearPoison _ (stopIn id allRgns h)).of_regs rfl
    · exact h

theorem containRequest (h : ContainFrame s t) (again : Bool) (cmd : Option Nat) (status : Nat) :
    ContainFrame s (Machine.containRequest again cmd status t) := by
  unfold Machine.containRequest
  split
  · exact h
  · split
    · exact h
    · exact ite (h.rerunCommand _ false) (h.endCommand _ status 0)

/-! ### Quarantine -/

theorem breakBar (h : ContainFrame s t) (status : Nat) {b : Nat} (hb : b < 64) : ContainFrame s (Machine.breakBar status b t) :=
  endAll _ _ (setFld (h.of_regs rfl) (not_besideContainment_bar hb) _ _)

theorem breakBars (n : Rgn) (status : Nat) (l : List Nat) :
    ∀ {t : State}, (∀ b ∈ l, b < 64) → ContainFrame s t → ContainFrame s (Machine.breakBars n status t l).1 := by
  induction l with
  | nil => intro t _ h; exact h
  | cons b bs ih =>
    intro t hl h
    have hbs : ∀ x ∈ bs, x < 64 := fun x hx => hl x (List.mem_cons_of_mem _ hx)
    unfold Machine.breakBars
    split
    · exact ih hbs (h.breakBar status (hl b (List.mem_cons_self ..)))
    · exact ih hbs h

theorem quarantine (h : ContainFrame s t) (n : Rgn) : ContainFrame s (Machine.quarantine n t).1 := by
  have ring : ¬ BesideContainment Reg.FLT_RING_CFG := by decide
  have ended (ids : List Nat) := endAll ST_REGION_QUARANTINED ids
    (h.setRgnFld (a := Reg.RGN_BLOCK_STATE n) rfl (by decide) Reg.RGN_BLOCK_STATE_QUARANTINED 1)
  exact breakBars n _ _ (fun b hb => List.mem_range.mp hb) (ite ((ended _).setFld ring _ _) (ended _))

end ContainFrame

/-! ### One report of any source -/

/-- The ring registers and the count of the source `src` read as before. -/
structure ReportFrame (src : Nat) (s t : State) : Prop where
  rings : ∀ a, RingReg a → t.reg a = s.reg a
  tally : SameTally src s t

namespace ReportFrame

variable {src : Nat} {s t u : State}

theorem refl (src : Nat) (s : State) : ReportFrame src s s := ⟨fun _ _ => rfl, ⟨rfl, rfl⟩⟩

theorem trans (h : ReportFrame src s t) (g : ReportFrame src t u) : ReportFrame src s u :=
  ⟨fun a ha => (g.rings a ha).trans (h.rings a ha), h.tally.trans g.tally⟩

theorem of_fault (h : FaultFrame src s t) : ReportFrame src s t :=
  ⟨fun a ha => h.outside a (by omega), h.tally⟩

theorem of_contain (hsrc : src < 1024) (h : ContainFrame s t) : ReportFrame src s t :=
  ⟨fun a ha => h a (.inr ha), .of_reg (h _ (.inl (by simp only [Reg.FLT_SRC_STAT, Reg.FLT_RING_CFG]; omega)))⟩

end ReportFrame

theorem holdAndFlush_frame (s : State) : ContainFrame s (holdAndFlush s) := by
  have held : ContainFrame s { s with pwr := { s.pwr with hold := true, holdFrom := some (s.pwr.holdFrom.getD s.now) } } :=
    (ContainFrame.refl s).of_regs rfl
  unfold holdAndFlush
  refine List.foldlRecOn (motive := ContainFrame s) allRgns _ held fun t ht n _ => ?_
  have region : ContainFrame s (t.modRgn n fun r => { r with fold := { r.fold with hold := true } }) := ht.of_regs rfl
  exact .ite (region.setRgnFld (a := Reg.FOLD_STATUS n) rfl (by decide) _ _) region

theorem chipFatal_frame {src : Nat} (hsrc : src < 1024) (r : Report) (phase : Bool) (s : State) :
    ReportFrame src s (chipFatal r phase s) := by
  have hold := ReportFrame.of_contain hsrc (holdAndFlush_frame s)
  have copied := FaultFrame.copyFatal (r.bytes phase false) (fun k hk => List.mem_range.mp hk) (FaultFrame.refl src (holdAndFlush s))
  exact hold.trans (.of_fault ((copied.setFld (FaultFrame.unitReg_irq src (by decide)) _ _).driveErr _))

/-- The command that the report names is asked to end or to run again at severity 3 and above (R404). -/
def Due.requested (d : Due) (s : State) : State :=
  if 3 ≤ d.eff s ∧ 64 ≤ d.src then containRequest (poisonReport d.src d.forced d.info) d.info.cmd d.status (d.pended s)
  else d.pended s

/-- Its region is quarantined at severity 4 and above (R405); and the reports that this raises. -/
def Due.contained (d : Due) (s : State) : State × List Due :=
  match srcRgn d.src with
  | none => (d.requested s, [])
  | some n =>
    if 4 ≤ d.eff s then
      let q := quarantine n (d.requested s)
      let t := (q.1.setFld (Reg.FLT_RGN_STATUS n) Reg.FLT_RGN_STATUS_CONTAINED 1).setFld (Reg.FLT_RGN_STATUS n)
        Reg.FLT_RGN_STATUS_CAUSE d.src
      (t, (if (d.requested s).quarantined n then [] else [Due.plain (rgnSrc n 40)]) ++ q.2.map (Due.barrier t))
    else (d.requested s, [])

/-- The whole report, with the chip-fatal stop at severity 5 (R406). -/
def Due.settled (d : Due) (s : State) : State :=
  settleErr (if d.eff s = 5 then chipFatal (d.report s) (s.flag Reg.FLT_RING_PTR Reg.FLT_RING_PTR_PHASE) (d.contained s).1
    else (d.contained s).1)

/-- The reports that a report raises in turn. -/
def Due.raised (d : Due) (s : State) : List Due := (d.contained s).2 ++ if (d.logged s).2 then [Due.plain 18] else []

theorem takeReports_cons (d : Due) (k : Nat) (todo : List Due) (s : State) :
    takeReports (k + 1) (d :: todo) s = takeReports k (todo ++ d.raised s) (d.settled s) := by
  unfold Due.raised Due.settled Due.contained
  cases hr : srcRgn d.src with
  | none => simp only [takeReports, hr]; rfl
  | some n =>
    by_cases h4 : 4 ≤ d.eff s
    · have h4' : 4 ≤ d.esc.getD (s.sev d.src) := h4
      simp only [takeReports, hr, h4, h4', if_true]; rfl
    · have h4' : ¬ 4 ≤ d.esc.getD (s.sev d.src) := h4
      simp only [takeReports, hr, h4, h4', if_false]; rfl

/-- A report raises no source but the quarantine of a region, the barriers and source 18. -/
theorem src_of_mem_raised {d e : Due} {s : State} (h : e ∈ d.raised s) :
    e.src = 1 ∨ e.src = 18 ∨ ∃ n : Rgn, e.src = rgnSrc n.val 40 := by
  rcases List.mem_append.mp h with h | h
  · unfold Due.contained at h
    split at h
    · cases h
    · split at h
      · rcases List.mem_append.mp h with h | h
        · split at h
          · cases h
          · obtain rfl := List.mem_singleton.mp h
            exact .inr (.inr ⟨_, rfl⟩)
        · obtain ⟨b, _, rfl⟩ := List.mem_map.mp h
          exact .inl rfl
      · cases h
  · exact .inr (.inl (congrArg Due.src (eq_of_mem_follow h)))

theorem Due.settled_frame {d : Due} (hd : d.src < 1024) {src : Nat} (hsrc : src < 1024) (s : State) :
    ReportFrame src (d.counted s) (d.settled s) := by
  have pended := ReportFrame.of_fault (Due.pended_frame hd src s)
  have requested : ReportFrame src (d.counted s) (d.requested s) := by
    unfold Due.requested
    split
    · exact pended.trans (.of_contain hsrc ((ContainFrame.refl _).containRequest _ _ _))
    · exact pended
  have contained : ReportFrame src (d.counted s) (d.contained s).1 := by
    unfold Due.contained
    split
    · exact requested
    next n _ =>
      split
      · refine requested.trans (.of_contain hsrc ?_)
        exact (((ContainFrame.refl _).quarantine n).setRgnFld (a := Reg.FLT_RGN_STATUS n) rfl (by decide) _ _).setRgnFld
          (a := Reg.FLT_RGN_STATUS n) rfl (by decide) _ _
      · exact requested
  refine ReportFrame.trans ?_ (.of_fault (FaultFrame.settleErr (.refl src _)))
  split
  · exact contained.trans (chipFatal_frame hsrc ..)
  · exact contained

/-! ### The reports of a region source that is raised -/

/-- A source that no report raises in turn. -/
def Unraised (src : Nat) : Prop := src < 1024 ∧ src ≠ 1 ∧ src ≠ 18 ∧ ∀ n : Rgn, src ≠ rgnSrc n.val 40

theorem other_of_mem_raised {src : Nat} (h : Unraised src) {d e : Due} {s : State} (he : e ∈ d.raised s) :
    e.src < 1024 ∧ e.src ≠ src := by
  obtain ⟨_, h1, h18, h40⟩ := h
  rcases src_of_mem_raised he with e1 | e18 | ⟨n, e40⟩
  · omega
  · omega
  · exact ⟨by rw [e40, rgnSrc]; omega, fun e => h40 n (e.symm.trans e40)⟩

/-- Reports of other sources, with all that they raise, leave the ring registers and the count of the source alone. -/
theorem takeReports_others {src : Nat} (h : Unraised src) : ∀ (k : Nat) (todo : List Due) (s : State),
    (∀ d ∈ todo, d.src < 1024 ∧ d.src ≠ src) → ReportFrame src s (takeReports k todo s) := by
  have hsrc := h.1
  intro k
  induction k with
  | zero => intro todo s _; exact .refl src s
  | succ k ih =>
    intro todo s htodo
    cases todo with
    | nil => exact .refl src s
    | cons d todo =>
      obtain ⟨hd, hne⟩ := htodo d (List.mem_cons_self ..)
      have counted := ReportFrame.of_fault (Due.counted_frame hd hne.symm s)
      rw [takeReports_cons]
      refine (counted.trans (Due.settled_frame hd hsrc s)).trans (ih _ _ fun e he => ?_)
      rcases List.mem_append.mp he with he | he
      · exact htodo e (List.mem_cons_of_mem _ he)
      · exact other_of_mem_raised h he

/-- A raised source is counted once, and the ring registers read as before. -/
theorem takeReports_one {d : Due} (h : Unraised d.src) (k : Nat) (s : State) :
    let t := takeReports (k + 1) [d] s
    (∀ a, RingReg a → t.reg a = s.reg a) ∧ t.fld (Reg.FLT_SRC_STAT d.src) Reg.FLT_SRC_STAT_COUNT =
      min (s.fld (Reg.FLT_SRC_STAT d.src) Reg.FLT_SRC_STAT_COUNT + 1) 255 := by
  have hd := h.1
  have others := takeReports_others h k ([] ++ d.raised s) (d.settled s) fun e he => other_of_mem_raised h he
  obtain ⟨rings, count, _⟩ := (Due.settled_frame hd hd s).trans others
  dsimp only
  rw [takeReports_cons, count, d.counted_count]
  refine ⟨fun a ha => ?_, rfl⟩
  rw [rings a ha, Due.counted_reg hd (by simp only [Reg.FLT_STATUS]; omega) (by omega)]

end Sys2Proof.Machine
end

section
/-!
PROOFS. The configuration of a ring: its fields, enabling it, and the refusal of an invalid place or size (R279, R285).
-/

namespace Sys2Proof.Machine

/-! ### Writing the fields of a register -/

/-- An RW field takes the value written, in a register without W1C fields (R446). -/
theorem Fld.get_writeFields {fs : List Fld} {f : Fld} (hm : f ∈ fs) (ha : f.acc = .rw) (hlo : f.lo + f.w ≤ 64)
    (hw1c : accMask .w1c fs = 0) (old v : Word) : f.get (writeFields fs old v) = f.get v := by
  apply Nat.eq_of_testBit_eq
  intro i
  rw [Fld.testBit_get, Fld.testBit_get]
  by_cases hi : i < f.w
  · have inside : f.mask.getLsbD (f.lo + i) = true := by simp [Fld.getLsbD_mask]; omega
    have written := getLsbD_accMask hm ha inside
    have hlt : f.lo + i < 64 := by omega
    simp only [writeFields, hw1c, BitVec.getLsbD_and, BitVec.getLsbD_or, BitVec.getLsbD_not, written, hlt]
    cases v.getLsbD (f.lo + i) <;> simp [hlt]
  · simp [hi]

/-- The fields of a ring's configuration (Table 11.10). -/
def ringCfgFields : List Fld := [Reg.CMD_RING_CFG_LOC, Reg.CMD_RING_CFG_SIZE, Reg.CMD_RING_CFG_BASE, Reg.CMD_RING_CFG_ENABLE]

theorem fieldsAt_ringCfg (o : RingOwner) (k : Fin 3) : fieldsAt (ringRegs o k.val).cfg = ringCfgFields := by
  cases o with
  | mgmt => revert k; decide
  | rgn n => revert n k; decide

/-- A plain write of a ring's configuration takes every field of the value. -/
theorem fld_plainWrite_ringCfg (o : RingOwner) (k : Fin 3) {f : Fld} (hf : f ∈ ringCfgFields) (v : Word) (s : State) :
    (plainWrite (ringRegs o k.val).cfg v s).fld (ringRegs o k.val).cfg f = f.get v := by
  have fields : ∀ g ∈ ringCfgFields, g.acc = .rw ∧ g.lo + g.w ≤ 64 := by decide
  obtain ⟨hacc, hlo⟩ := fields f hf
  rw [plainWrite, State.fld, reg_setReg_same, fieldsAt_ringCfg]
  exact Fld.get_writeFields hf hacc hlo (by decide) _ _

/-! ### A raise of a source whose domain is on, with the chip at stage 2 -/

theorem raise_up {src : Nat} {s : State} (hlisted : srcListed src = true) (hon : srcOff s src = false) (hup : s.chipStage = 2)
    (info : FaultInfo) : raise src info s = takeReports reportFuel [⟨src, none, false, false, info, ST_INTERNAL⟩] s := by
  simp [raise, raiseWith, hlisted, hon, hup]

theorem raise_latched {src : Nat} {s : State} (hlisted : srcListed src = true) (hoff : srcOff s src = true) (info : FaultInfo) :
    raise src info s = latchRaise src info s := by
  simp [raise, raiseWith, hlisted, hoff]

theorem reg_latchRaise {src : Nat} (h : src < 1024) (info : FaultInfo) (s : State) {a : Nat} (ha : RingReg a) :
    (latchRaise src info s).reg a = s.reg a := by
  have apart : a ≠ Reg.IRQ_SRC_CNT src := by simp only [Reg.IRQ_SRC_CNT]; omega
  show (((s.bump (Reg.IRQ_SRC_CNT src) _ 1).setFld (Reg.IRQ_SRC_CNT src) _ 1)).reg a = s.reg a
  rw [reg_setFld_other _ apart, bump_eq, reg_setFld_other _ apart]

section
variable {src : Nat} {s : State} (h : Unraised src) (hlisted : srcListed src = true) (hup : s.chipStage = 2) (info : FaultInfo)
include h hlisted hup

theorem count_raise (hon : srcOff s src = false) : (raise src info s).fld (Reg.FLT_SRC_STAT src) Reg.FLT_SRC_STAT_COUNT =
    min (s.fld (Reg.FLT_SRC_STAT src) Reg.FLT_SRC_STAT_COUNT + 1) 255 := by
  rw [raise_up hlisted hon hup]
  exact (takeReports_one (d := ⟨src, none, false, false, info, ST_INTERNAL⟩) h 71 s).2

/-- A raise leaves the registers of the rings alone. -/
theorem reg_raise {a : Nat} (ha : RingReg a) : (raise src info s).reg a = s.reg a := by
  cases hoff : srcOff s src with
  | true => rw [raise_latched hlisted hoff, reg_latchRaise h.1 info s ha]
  | false =>
    rw [raise_up hlisted hoff hup]
    exact (takeReports_one (d := ⟨src, none, false, false, info, ST_INTERNAL⟩) h 71 s).1 a ha

end

/-- The source of a region's rings is raised by no other report. -/
theorem unraised_ringSrc (n : Rgn) : Unraised (rgnSrc n.val 41) := by
  refine ⟨?_, ?_, ?_, fun m => ?_⟩ <;> simp only [rgnSrc] <;> omega

theorem srcListed_ringSrc : ∀ n : Rgn, srcListed (rgnSrc n.val 41) = true := by decide

/-! ### A ring that is enabled -/

theorem sameButRegs_setFld {l : List Nat} {s t : State} (h : SameButRegs l s t) {a : Nat} (ha : a ∈ l) (f : Fld) (x : Nat) :
    SameButRegs l s (t.setFld a f x) :=
  sameButRegs_trans h (sameButRegs_weaken (sameButRegs_setReg t a _) (List.cons_subset.mpr ⟨ha, List.nil_subset _⟩))

/-- The state in which a ring has been enabled, its indices at 0. -/
def ringEnabledAs (g : RingRegs) (k : Nat) (v : Word) (s : State) : State :=
  let u := ((plainWrite g.cfg v s).setFld g.head Reg.CMD_RING_HEAD_INDEX 0).setFld g.tail Reg.CMD_RING_TAIL_INDEX 0
  showRing g (if k = 2 then u.setFld g.tail Reg.CMD_RING_TAIL_PHASE 1 else u)

/-- The registers of a ring are four. -/
theorem ringRegs_apart (o : RingOwner) (k : Nat) : let g := ringRegs o k
    g.cfg ≠ g.head ∧ g.cfg ≠ g.tail ∧ g.cfg ≠ g.stat ∧ g.head ≠ g.tail ∧ g.head ≠ g.stat ∧ g.tail ≠ g.stat := by
  simp only [ringRegs_eq]
  omega

section
variable (o : RingOwner) (k : Fin 3) (v : Word) (s : State)

theorem ringEnabledAs_frame : let g := ringRegs o k.val
    SameButRegs [g.cfg, g.head, g.tail, g.stat] s (ringEnabledAs g k.val v s) := by
  dsimp only
  have cfg : SameButRegs [(ringRegs o k.val).cfg, (ringRegs o k.val).head, (ringRegs o k.val).tail, (ringRegs o k.val).stat] s
      (plainWrite (ringRegs o k.val).cfg v s) := sameButRegs_weaken (sameButRegs_setReg ..) (by simp)
  have indices := sameButRegs_setFld (sameButRegs_setFld cfg (a := (ringRegs o k.val).head) (by simp) Reg.CMD_RING_HEAD_INDEX 0)
    (a := (ringRegs o k.val).tail) (by simp) Reg.CMD_RING_TAIL_INDEX 0
  refine sameButRegs_setFld ?_ (by simp) _ _
  split
  · exact sameButRegs_setFld indices (by simp) _ _
  · exact indices

theorem fld_ringEnabledAs_cfg {f : Fld} (hf : f ∈ ringCfgFields) :
    (ringEnabledAs (ringRegs o k.val) k.val v s).fld (ringRegs o k.val).cfg f = f.get v := by
  obtain ⟨head, tail, stat, _⟩ := ringRegs_apart o k.val
  rw [← fld_plainWrite_ringCfg o k hf v s]
  unfold ringEnabledAs
  rw [showRing, fld_setFld_other _ stat]
  split <;> simp only [fld_setFld_other _ head, fld_setFld_other _ tail]

theorem rHead_ringEnabledAs : rHead (ringEnabledAs (ringRegs o k.val) k.val v s) (ringRegs o k.val) = 0 := by
  obtain ⟨_, _, _, tail, stat, _⟩ := ringRegs_apart o k.val
  unfold ringEnabledAs
  rw [showRing, rHead, fld_setFld_other _ stat]
  split <;> simp only [fld_setFld_other _ tail] <;> exact fld_setFld_same _ _ _ 0 (by decide)

theorem rTail_ringEnabledAs : rTail (ringEnabledAs (ringRegs o k.val) k.val v s) (ringRegs o k.val) = 0 := by
  obtain ⟨_, _, _, _, _, stat⟩ := ringRegs_apart o k.val
  unfold ringEnabledAs
  rw [showRing, rTail, fld_setFld_other _ stat]
  split
  · rw [fld_setFld_apart _ _ _ _ _ (by decide) (by decide)]
    exact fld_setFld_same _ _ _ 0 (by decide)
  · exact fld_setFld_same _ _ _ 0 (by decide)

theorem phase_ringEnabledAs (hk : k.val = 2) :
    (ringEnabledAs (ringRegs o k.val) k.val v s).flag (ringRegs o k.val).tail Reg.CMD_RING_TAIL_PHASE = true := by
  obtain ⟨_, _, _, _, _, stat⟩ := ringRegs_apart o k.val
  unfold ringEnabledAs
  dsimp only
  rw [if_pos hk, showRing, State.flag, fld_setFld_other _ stat, fld_setFld_same _ _ _ 1 (by decide)]
  rfl

end

/-! ### A completion ring with nothing to replay (R337) -/

theorem cqOf_of_frame {s t : State} (hp : t.parts = s.parts) (hm : t.mgmtCq = s.mgmtCq) (p : Option Part) : cqOf p t = cqOf p s := by
  cases p <;> simp only [cqOf, State.part, hp, hm]

theorem reg_showShadow (p : Option Part) (s : State) {a : Nat} (ha : RingReg a) : (showShadow p s).reg a = s.reg a := by
  cases p with
  | none => rfl
  | some q =>
    have apart : a ≠ Reg.TAITH_SHADOW q.val := by simp only [Reg.TAITH_SHADOW]; omega
    rw [showShadow, reg_showOutstanding _ _ ha, reg_setFld_other _ apart]

theorem reg_replayEnds (p : Option Part) (s : State) {a : Nat} (ha : RingReg a) : (replayEnds p s).reg a = s.reg a := by
  cases p with
  | none => rfl
  | some q =>
    have status : a ≠ Reg.TAITH_STATUS := by simp only [Reg.TAITH_STATUS]; omega
    have resume : a ≠ Reg.TAITH_RESUME := by simp only [Reg.TAITH_RESUME]; omega
    unfold replayEnds
    dsimp only
    split
    · unfold settleLost
      rw [reg_setFld_other _ status]
      exact reg_setFld_other _ resume _ _
    · rfl

theorem reg_pumpReplay_empty {p : Option Part} {o : RingOwner} {s : State} (h : (cqOf p s).shadow = []) {a : Nat} (ha : RingReg a) :
    (pumpReplay p o s).reg a = s.reg a := by
  have loop : replayLoop p o (cqOf p s).shadow.length s = s := by rw [h]; rfl
  unfold pumpReplay
  rw [loop]
  split
  · rw [reg_replayEnds _ _ ha, reg_showShadow _ _ ha]
  · rfl

/-! ### CMD_RING_CFG -/

section
variable {o : RingOwner} {k : Fin 3} {v : Word} {s : State}

/-- Enabling a ring (R279); a completion ring then goes on with its replay. -/
theorem doRingEnable_valid (hoff : rEnabled s (ringRegs o k.val) = false) (hen : Reg.CMD_RING_CFG_ENABLE.get v = 1)
    (hok : ringCfgOk o k.val v s = true) (hmin : s.minimal = false ∨ o = .mgmt) : doRingEnable o k.val v s =
      if k.val = 2 then pumpReplay (ownerPart s o) o (ringEnabledAs (ringRegs o k.val) k.val v s)
      else ringEnabledAs (ringRegs o k.val) k.val v s := by
  have disabled : ¬ rEnabled s (ringRegs o k.val) = true := by simp [hoff]
  have allowed : ¬ (s.minimal = true ∧ o ≠ .mgmt) := by rcases hmin with h | h <;> simp [h]
  unfold doRingEnable ringEnabledAs
  dsimp only
  rw [if_neg fun h => disabled h.1, if_neg fun h => disabled h.1, if_pos hen, if_pos ⟨hok, allowed⟩]

/-- With nothing to replay, the ring's registers show the ring as it has been enabled. -/
theorem reg_enabled (hoff : rEnabled s (ringRegs o k.val) = false) (hen : Reg.CMD_RING_CFG_ENABLE.get v = 1)
    (hok : ringCfgOk o k.val v s = true) (hmin : s.minimal = false ∨ o = .mgmt)
    (hempty : k.val = 2 → (cqOf (ownerPart s o) s).shadow = []) {a : Nat} (ha : RingReg a) :
    (doRingEnable o k.val v s).reg a = (ringEnabledAs (ringRegs o k.val) k.val v s).reg a := by
  have frame := (ringEnabledAs_frame o k v s).1
  rw [doRingEnable_valid hoff hen hok hmin]
  split
  next hk =>
    refine reg_pumpReplay_empty ?_ ha
    rw [cqOf_of_frame (by rw [frame]) (by rw [frame])]
    exact hempty hk
  next => rfl

/-- The state in which an invalid place or size has been refused. -/
def ringRefused (g : RingRegs) (v : Word) (s : State) : State :=
  ((plainWrite g.cfg v s).setFld g.cfg Reg.CMD_RING_CFG_ENABLE 0).setFld g.stat Reg.CMD_RING_STAT_CFG_ERR 1

/-- Who hears of the refusal: a partition's ring reports its region's source 41. -/
def refusalTold (o : RingOwner) (g : RingRegs) (s : State) : State :=
  match o with
  | .rgn n => raiseDetail (rgnSrc n.val 41) none (s.reg g.stat).toNat s
  | .mgmt => s

theorem doRingEnable_invalid (hoff : rEnabled s (ringRegs o k.val) = false) (hen : Reg.CMD_RING_CFG_ENABLE.get v = 1)
    (hbad : ringCfgOk o k.val v s = false) :
    doRingEnable o k.val v s = refusalTold o (ringRegs o k.val) (ringRefused (ringRegs o k.val) v s) := by
  have disabled : ¬ rEnabled s (ringRegs o k.val) = true := by simp [hoff]
  have bad : ¬ ringCfgOk o k.val v s = true := by simp [hbad]
  unfold doRingEnable
  dsimp only
  rw [if_neg fun h => disabled h.1, if_neg fun h => disabled h.1, if_pos hen, if_neg fun h => bad h.1]
  cases o <;> rfl

/-- An enabled ring keeps its place and size (R285). -/
theorem doRingEnable_kept (hon : rEnabled s (ringRegs o k.val) = true) (h : rLoc s (ringRegs o k.val) ≠ Reg.CMD_RING_CFG_LOC.get v ∨
    rSize s (ringRegs o k.val) ≠ 2 ^ Reg.CMD_RING_CFG_SIZE.get v ∨ rBase s (ringRegs o k.val) ≠ 4096 * Reg.CMD_RING_CFG_BASE.get v) :
    doRingEnable o k.val v s = s := by
  have differs : ¬ (Reg.CMD_RING_CFG_LOC.get (s.reg (ringRegs o k.val).cfg) = Reg.CMD_RING_CFG_LOC.get v ∧
      Reg.CMD_RING_CFG_SIZE.get (s.reg (ringRegs o k.val).cfg) = Reg.CMD_RING_CFG_SIZE.get v ∧
      Reg.CMD_RING_CFG_BASE.get (s.reg (ringRegs o k.val).cfg) = Reg.CMD_RING_CFG_BASE.get v) := by
    rintro ⟨loc, size, base⟩
    simp only [rLoc, rSize, rBase, State.fld, loc, size, base, ne_eq, not_true, or_self] at h
  unfold doRingEnable
  dsimp only
  rw [if_pos ⟨hon, by simpa [and_assoc] using differs⟩]

end

/-! ### The refusal of an invalid place or size -/

theorem srcOff_congr {s t : State} (h : t.pwr = s.pwr) (src : Nat) : srcOff t src = srcOff s src := by
  simp only [srcOff, State.domOn, h]

section
variable (o : RingOwner) (k : Fin 3) (v : Word) (s : State)

theorem ringRefused_frame : SameButRegs [(ringRegs o k.val).cfg, (ringRegs o k.val).stat] s (ringRefused (ringRegs o k.val) v s) := by
  have cfg : SameButRegs [(ringRegs o k.val).cfg, (ringRegs o k.val).stat] s (plainWrite (ringRegs o k.val).cfg v s) :=
    sameButRegs_weaken (sameButRegs_setReg ..) (by simp)
  exact sameButRegs_setFld (sameButRegs_setFld cfg (by simp) _ _) (by simp) _ _

/-- Registers that are no ring's read as before. -/
theorem reg_ringRefused {a : Nat} (ha : ¬ RingReg a) : (ringRefused (ringRegs o k.val) v s).reg a = s.reg a := by
  refine (ringRefused_frame o k v s).2 a fun hm => ha ?_
  simp only [List.mem_cons, List.not_mem_nil, or_false] at hm
  rcases hm with rfl | rfl
  · exact ringReg_cfg o k.isLt
  · exact ringReg_stat o k.isLt

theorem rEnabled_ringRefused : rEnabled (ringRefused (ringRegs o k.val) v s) (ringRegs o k.val) = false := by
  obtain ⟨_, _, stat, _⟩ := ringRegs_apart o k.val
  rw [ringRefused, rEnabled, State.flag, fld_setFld_other _ stat, fld_setFld_same _ _ _ 0 (by decide)]
  rfl

theorem cfgErr_ringRefused : (ringRefused (ringRegs o k.val) v s).flag (ringRegs o k.val).stat Reg.CMD_RING_STAT_CFG_ERR = true := by
  rw [ringRefused, State.flag, fld_setFld_same _ _ _ 1 (by decide)]
  rfl

variable {s} (hup : s.chipStage = 2)
include hup

theorem chipStage_ringRefused : (ringRefused (ringRegs o k.val) v s).chipStage = 2 :=
  (congrArg Reg.BOOT_STATUS_CHIP_STAGE.get (reg_ringRefused o k v s (by decide))).trans hup

/-- The report leaves what the ring's registers show. -/
theorem reg_refusalTold {a : Nat} (ha : RingReg a) :
    (refusalTold o (ringRegs o k.val) (ringRefused (ringRegs o k.val) v s)).reg a = (ringRefused (ringRegs o k.val) v s).reg a := by
  cases o with
  | mgmt => rfl
  | rgn n => exact reg_raise (unraised_ringSrc n) (srcListed_ringSrc n) (chipStage_ringRefused (.rgn n) k v hup) _ ha

theorem count_refusalTold (n : Rgn) (hon : srcOff s (rgnSrc n.val 41) = false) :
    (refusalTold (.rgn n) (ringRegs (.rgn n) k.val) (ringRefused (ringRegs (.rgn n) k.val) v s)).fld
      (Reg.FLT_SRC_STAT (rgnSrc n.val 41)) Reg.FLT_SRC_STAT_COUNT =
    min (s.fld (Reg.FLT_SRC_STAT (rgnSrc n.val 41)) Reg.FLT_SRC_STAT_COUNT + 1) 255 := by
  have on : srcOff (ringRefused (ringRegs (.rgn n) k.val) v s) (rgnSrc n.val 41) = false :=
    (srcOff_congr (by rw [(ringRefused_frame (.rgn n) k v s).1]) _).trans hon
  have before : (ringRefused (ringRegs (.rgn n) k.val) v s).fld (Reg.FLT_SRC_STAT (rgnSrc n.val 41)) Reg.FLT_SRC_STAT_COUNT =
      s.fld (Reg.FLT_SRC_STAT (rgnSrc n.val 41)) Reg.FLT_SRC_STAT_COUNT :=
    congrArg Reg.FLT_SRC_STAT_COUNT.get (reg_ringRefused (.rgn n) k v s (by simp only [Reg.FLT_SRC_STAT, rgnSrc]; omega))
  rw [← before]
  exact count_raise (unraised_ringSrc n) (srcListed_ringSrc n) (chipStage_ringRefused (.rgn n) k v hup) _ on

end

/-- Settles O19: a valid write enables the ring with its indices at 0, an invalid one is refused and told, and an enabled ring keeps
its place. -/
theorem ringEnableResetsIndices : Obligations.RingEnableResetsIndices := by
  unfold Obligations.RingEnableResetsIndices
  intro who o k v s ⟨awake, ok⟩
  dsimp only
  have run : exec (.cmdRingCfg who o k v) s = .next (doRingEnable o k.val v s) := by
    rw [exec_cmdRingCfg, live_awake _ awake, guardWrite_ok ok]
  rw [run]
  refine ⟨fun hoff hen hok hmin hempty => ?enabled, fun hoff hen hbad hup => ?refused, fun hon hdiffers => ?kept⟩
  case enabled =>
    have rings {a : Nat} (ha : RingReg a) := reg_enabled hoff hen hok hmin hempty ha
    have cfg := rings (ringReg_cfg o k.isLt)
    have tail := rings (ringReg_tail o k.isLt)
    refine ⟨_, rfl, ?on, ?head, ?tailZero, ?size, ?base, fun hk => ?phase, fun hk => ?frame⟩
    case on =>
      rw [rEnabled, State.flag, State.fld, cfg, ← State.fld, fld_ringEnabledAs_cfg o k v s (by decide), hen]
      rfl
    case head =>
      rw [rHead, State.fld, rings (ringReg_head o k.isLt)]
      exact rHead_ringEnabledAs o k v s
    case tailZero =>
      rw [rTail, State.fld, tail]
      exact rTail_ringEnabledAs o k v s
    case size => rw [rSize, State.fld, cfg, ← State.fld, fld_ringEnabledAs_cfg o k v s (by decide)]
    case base => rw [rBase, State.fld, cfg, ← State.fld, fld_ringEnabledAs_cfg o k v s (by decide)]
    case phase =>
      rw [State.flag, State.fld, tail]
      exact phase_ringEnabledAs o k v s hk
    case frame =>
      rw [doRingEnable_valid hoff hen hok hmin, if_neg (by omega)]
      exact ringEnabledAs_frame o k v s
  case refused =>
    have told {a : Nat} := reg_refusalTold o k v hup (a := a)
    refine ⟨_, congrArg _ (doRingEnable_invalid hoff hen hbad), ?off, ?err, ?mgmt, ?count⟩
    case off =>
      rw [rEnabled, State.flag, State.fld, told (ringReg_cfg o k.isLt)]
      exact rEnabled_ringRefused o k v s
    case err =>
      rw [State.flag, State.fld, told (ringReg_stat o k.isLt)]
      exact cfgErr_ringRefused o k v s
    case mgmt => rintro rfl; exact ringRefused_frame .mgmt k v s
    case count => rintro n rfl hsrc; exact count_refusalTold k v hup n hsrc
  case kept => rw [doRingEnable_kept hon hdiffers]

end Sys2Proof.Machine
end

section
/-!
PROOFS. What a step of the fault and interrupt units leaves alone beside the registers it names, and the acknowledgement of a
source (R408, R411, R454).
-/

namespace Sys2Proof.Machine

/-! ### A step of the fault and interrupt units beside memory -/

/-- Only the registers of the list, the two fault and interrupt units, ERR_N and the counter of free values may differ. -/
structure UnitFrame (l : List Nat) (s t : State) : Prop where
  regs : SameRegsBut l s t
  machine : SameMachine s t

namespace UnitFrame

variable {l : List Nat} {s t u : State}

theorem refl (l : List Nat) (s : State) : UnitFrame l s s := ⟨fun _ _ => rfl, rfl⟩

theorem trans (h : UnitFrame l s t) (g : UnitFrame l t u) : UnitFrame l s u where
  regs a ha := (g.regs a ha).trans (h.regs a ha)
  machine := calc
    u = withUnitsOf u t := g.machine
    _ = withUnitsOf u (withUnitsOf t s) := congrArg (withUnitsOf u) h.machine

theorem ite {p : Prop} [Decidable p] (ht : UnitFrame l s t) (hu : UnitFrame l s u) : UnitFrame l s (if p then t else u) := by
  split
  · exact ht
  · exact hu

theorem setReg (h : UnitFrame l s t) {a : Nat} (ha : a ∈ l) (v : Word) : UnitFrame l s (t.setReg a v) :=
  h.trans ⟨fun _ hb => reg_setReg_other t (ne_of_mem_of_not_mem ha hb).symm v, rfl⟩

theorem setFld (h : UnitFrame l s t) {a : Nat} (ha : a ∈ l) (f : Fld) (x : Nat) : UnitFrame l s (t.setFld a f x) := h.setReg ha _

theorem setFlt (h : UnitFrame l s t) (g : Faults) : UnitFrame l s { t with flt := g } := h.trans ⟨fun _ _ => rfl, rfl⟩

theorem pwr (h : UnitFrame l s t) : t.pwr = s.pwr := calc
  t.pwr = (withUnitsOf t s).pwr := congrArg State.pwr h.machine
  _ = s.pwr := rfl

/-- ERR_N takes the level of MODE, and ERR_PIN_CTRL shows it. -/
theorem settleErr (h : UnitFrame l s t) (ha : Reg.ERR_PIN_CTRL ∈ l) : UnitFrame l s (Machine.settleErr t) := by
  have driven (level : Bool) : UnitFrame l s { t with pins := { t.pins with errN := level } } := h.trans ⟨fun _ _ => rfl, rfl⟩
  exact ite h ((driven _).setFld ha _ _)

end UnitFrame

theorem reg_settleErr {a : Nat} (h : a ≠ Reg.ERR_PIN_CTRL) (s : State) : (settleErr s).reg a = s.reg a :=
  ((UnitFrame.refl [Reg.ERR_PIN_CTRL] s).settleErr (List.mem_singleton_self _)).regs a (by simpa using h)

@[simp] theorem flt_settleErr (s : State) : (settleErr s).flt = s.flt := by
  unfold settleErr
  split <;> rfl

@[simp] theorem reg_stopGrace (src : Nat) (s : State) (a : Nat) : (stopGrace src s).reg a = s.reg a := rfl

/-! ### FLT_ACK -/

/-- The source that a write of FLT_ACK names at an address (R454). -/
def ackSource (addr : Nat) (v : Word) : Nat :=
  match rgnOf addr with
  | none => Reg.FLT_ACK_SOURCE.get v
  | some n => rgnSrc n.val (Reg.FLT_ACK_SOURCE.get v)

/-- The state in which a source has been acknowledged (R408). -/
def faultAcked (src : Nat) (s : State) : State :=
  let st := Reg.FLT_SRC_STAT src
  settleErr (showPending (stopGrace src (((s.setFld st Reg.FLT_SRC_STAT_PENDING 0).setFld st Reg.FLT_SRC_STAT_EFF 0).setFld st
    Reg.FLT_SRC_STAT_ESCALATED 0)))

theorem doFltAck_go {v : Word} (h : Reg.FLT_ACK_GO.get v = 1) (addr : Nat) (s : State) :
    doFltAck addr v s = faultAcked (ackSource addr v) s := by
  unfold doFltAck
  rw [if_pos h]
  rfl

theorem doFltAck_idle {v : Word} (h : Reg.FLT_ACK_GO.get v = 0) (addr : Nat) (s : State) : doFltAck addr v s = s :=
  if_neg (by omega)

theorem unalias_fltAck {a : Nat} {n : Rgn} (hn : rgnOf a = some n) (ha : a - rgnBase n = 0x80008) : unalias a = Reg.FLT_ACK := by
  simp only [unalias, hn, ha, if_true]

theorem ackSource_rgn {a : Nat} {n : Rgn} (hn : rgnOf a = some n) (v : Word) :
    ackSource a v = 64 + 60 * n.val + Reg.FLT_ACK_SOURCE.get v := by
  simp only [ackSource, hn, rgnSrc]

/-- FLT_ACK answers at its own address and in the block of each region (R454). -/
theorem fltAck_at {addr src : Nat} {v : Word} (h : addr = Reg.FLT_ACK ∧ src = Reg.FLT_ACK_SOURCE.get v ∨
    ∃ n : Rgn, addr = rgnBase n + 0x80008 ∧ src = 64 + 60 * n.val + Reg.FLT_ACK_SOURCE.get v) :
    isFltAck addr = true ∧ ackSource addr v = src := by
  rcases h with ⟨rfl, rfl⟩ | ⟨n, rfl, rfl⟩
  · exact ⟨by decide, rfl⟩
  · have region := rgnOf_rgnBase_add n (o := 0x80008) (by decide)
    constructor
    · rw [isFltAck, unalias_fltAck region (Nat.add_sub_cancel_left ..), beq_self_eq_true]
    · exact ackSource_rgn region v

section
variable (src : Nat) (s : State)

theorem faultAcked_frame : UnitFrame [Reg.FLT_SRC_STAT src, Reg.FLT_STATUS, Reg.ERR_PIN_CTRL] s (faultAcked src s) := by
  have cleared := (((UnitFrame.refl [Reg.FLT_SRC_STAT src, Reg.FLT_STATUS, Reg.ERR_PIN_CTRL] s).setFld (List.mem_cons_self ..)
    Reg.FLT_SRC_STAT_PENDING 0).setFld (List.mem_cons_self ..) Reg.FLT_SRC_STAT_EFF 0).setFld (List.mem_cons_self ..)
    Reg.FLT_SRC_STAT_ESCALATED 0
  exact ((cleared.setFlt _).setFld (a := Reg.FLT_STATUS) (by simp) _ _).settleErr (by simp)

theorem reg_faultAcked : (faultAcked src s).reg (Reg.FLT_SRC_STAT src) = Reg.FLT_SRC_STAT_ESCALATED.put (Reg.FLT_SRC_STAT_EFF.put
    (Reg.FLT_SRC_STAT_PENDING.put (s.reg (Reg.FLT_SRC_STAT src)) 0) 0) 0 := by
  have pin : Reg.FLT_SRC_STAT src ≠ Reg.ERR_PIN_CTRL := by simp only [Reg.FLT_SRC_STAT, Reg.ERR_PIN_CTRL]; omega
  have status : Reg.FLT_SRC_STAT src ≠ Reg.FLT_STATUS := by simp only [Reg.FLT_SRC_STAT, Reg.FLT_STATUS]; omega
  rw [faultAcked, reg_settleErr pin, showPending, reg_setFld_other _ status]
  simp only [reg_stopGrace, reg_setFld_same]

theorem grace_faultAcked : (faultAcked src s).flt.grace = s.flt.grace.filter fun g => g.source != src := by
  rw [faultAcked, flt_settleErr]
  rfl

end

/-- Settles O9: an acknowledgement clears three fields of the source's state and drops its timer, at either address of FLT_ACK. -/
theorem fltAckClears : Obligations.FltAckClears := by
  unfold Obligations.FltAckClears
  intro who addr src v s ⟨awake, ok⟩ hat
  obtain ⟨answers, source⟩ := fltAck_at hat
  have run : exec (.fltAck who addr v) s = .next (doFltAck addr v s) := by
    rw [exec_fltAck, live_awake _ awake, if_pos answers, guardWrite_ok ok]
  rw [run]
  refine ⟨fun hgo => ?acknowledged, fun hgo => ?idle⟩
  case acknowledged =>
    obtain ⟨regs, machine⟩ := faultAcked_frame src s
    rw [doFltAck_go hgo, source]
    exact ⟨_, rfl, reg_faultAcked src s, fun g => by simp [grace_faultAcked], regs, machine⟩
  case idle => rw [doFltAck_idle hgo]

end Sys2Proof.Machine
end

section
/-!
PROOFS. The words of enable and pending bits, and the raises of sources that software makes pending or clears (R422).
-/

namespace Sys2Proof.Machine

/-! ### Enable bits -/

/-- The state in which the enable bits of a word are `x`, at both addresses. -/
def withEnables (w : Nat) (x : Word) (s : State) : State := (s.setReg (Reg.IRQ_EN_SET w) x).setReg (Reg.IRQ_EN_CLR w) x

theorem doEnable_set (w : Nat) (v : Word) (s : State) :
    doEnable w v true s = withEnables w (s.reg (Reg.IRQ_EN_SET w) ||| v) s := rfl

theorem doEnable_clear (w : Nat) (v : Word) (s : State) :
    doEnable w v false s = withEnables w (s.reg (Reg.IRQ_EN_SET w) &&& ~~~ v) s := rfl

section
variable (w : Nat) (x : Word) (s : State)

theorem reg_withEnables_clr : (withEnables w x s).reg (Reg.IRQ_EN_CLR w) = x := reg_setReg_same ..

theorem reg_withEnables_set : (withEnables w x s).reg (Reg.IRQ_EN_SET w) = x := by
  have apart : Reg.IRQ_EN_SET w ≠ Reg.IRQ_EN_CLR w := by simp only [Reg.IRQ_EN_SET, Reg.IRQ_EN_CLR]; omega
  rw [withEnables, reg_setReg_other _ apart, reg_setReg_same]

theorem withEnables_frame : SameButRegs [Reg.IRQ_EN_SET w, Reg.IRQ_EN_CLR w] s (withEnables w x s) :=
  sameButRegs_trans (sameButRegs_weaken (sameButRegs_setReg s _ x) (by simp)) (sameButRegs_weaken (sameButRegs_setReg _ _ x) (by simp))

/-- Both enable addresses read the word that the write leaves, and nothing else differs. -/
theorem withEnables_reads : (withEnables w x s).reg (Reg.IRQ_EN_SET w) = x ∧
    (withEnables w x s).reg (Reg.IRQ_EN_CLR w) = (withEnables w x s).reg (Reg.IRQ_EN_SET w) ∧
    SameButRegs [Reg.IRQ_EN_SET w, Reg.IRQ_EN_CLR w] s (withEnables w x s) :=
  ⟨reg_withEnables_set w x s, (reg_withEnables_clr w x s).trans (reg_withEnables_set w x s).symm, withEnables_frame w x s⟩

end

/-! ### Pending bits of one word -/

theorem word_of_source {b : Nat} (hb : b < 64) (w : Nat) : (64 * w + b) / 64 = w ∧ (64 * w + b) % 64 = b := by omega

section
variable {w b c : Nat} (hb : b < 64)
include hb

theorem irqPending_eq (w : Nat) (s : State) : s.irqPending (64 * w + b) = (s.reg (Reg.IRQ_PEND_SET w)).getLsbD b := by
  obtain ⟨hdiv, hmod⟩ := word_of_source hb w
  rw [State.irqPending, hdiv, hmod]

theorem setPend_frame (w : Nat) (on : Bool) (s : State) :
    UnitFrame [Reg.IRQ_PEND_SET w, Reg.IRQ_PEND_CLR w] s (setPend (64 * w + b) on s) := by
  obtain ⟨hdiv, _⟩ := word_of_source hb w
  rw [setPend, hdiv]
  exact ((UnitFrame.refl _ s).setReg (by simp) _).setReg (by simp) _

/-- The pending bits of a word after one of them has been set or cleared. -/
theorem irqPending_setPend_word (hc : c < 64) (on : Bool) (s : State) :
    (setPend (64 * w + b) on s).irqPending (64 * w + c) = if c = b then on else s.irqPending (64 * w + c) := by
  obtain ⟨hdiv, hmod⟩ := word_of_source hb w
  have apart : Reg.IRQ_PEND_SET w ≠ Reg.IRQ_PEND_CLR w := by simp only [Reg.IRQ_PEND_SET, Reg.IRQ_PEND_CLR]; omega
  have one : ((1#64) <<< b).getLsbD c = decide (c = b) := (BitVec.getLsbD_twoPow b c).trans (by simp [hb, eq_comm])
  rw [irqPending_eq hc, irqPending_eq hc, setPend, hdiv, hmod, reg_setReg_other _ apart, reg_setReg_same]
  cases on with
  | true =>
    rw [if_pos rfl, BitVec.getLsbD_or, one]
    by_cases e : c = b <;> simp [e]
  | false =>
    rw [if_neg Bool.false_ne_true, BitVec.getLsbD_and, BitVec.getLsbD_not, one]
    by_cases e : c = b <;> simp [e, hc]

end

/-! ### Raises made by software -/

theorem mem_foldRaise_new {src : Nat} (tick : Nat) (data : Word) (k : Nat) :
    ∀ {l : List Raise}, (∀ r ∈ l, r.source ≠ src) → ⟨src, k, tick, data⟩ ∈ foldRaise src tick data k l := by
  intro l
  induction l with
  | nil => intro _; exact List.mem_singleton_self _
  | cons r rs ih =>
    intro h
    rw [foldRaise, if_neg (h r (List.mem_cons_self ..))]
    exact List.mem_cons_of_mem _ (ih fun q hq => h q (List.mem_cons_of_mem _ hq))

theorem source_of_mem_foldRaise {src tick k : Nat} {data : Word} {q : Raise} :
    ∀ {l : List Raise}, q ∈ foldRaise src tick data k l → q.source = src ∨ q ∈ l := by
  intro l
  induction l with
  | nil => intro h; exact .inl (congrArg Raise.source (List.mem_singleton.mp h))
  | cons r rs ih =>
    intro h
    rw [foldRaise] at h
    split at h
    next hr =>
      rcases List.mem_cons.mp h with rfl | h
      · exact .inl hr
      · exact .inr (List.mem_cons_of_mem _ h)
    next =>
      rcases List.mem_cons.mp h with rfl | h
      · exact .inr (List.mem_cons_self ..)
      · exact (ih h).imp_right (List.mem_cons_of_mem _)

/-- A raise of another source stays in the list as it is. -/
theorem mem_foldRaise_other {src tick k : Nat} {data : Word} {q : Raise} (hne : q.source ≠ src) :
    ∀ {l : List Raise}, q ∈ l → q ∈ foldRaise src tick data k l := by
  intro l
  induction l with
  | nil => intro h; cases h
  | cons r rs ih =>
    intro h
    rw [foldRaise]
    rcases List.mem_cons.mp h with rfl | h
    · rw [if_neg hne]
      exact List.mem_cons_self ..
    · split
      · exact List.mem_cons_of_mem _ h
      · exact List.mem_cons_of_mem _ (ih h)

/-! ### IRQ_PEND_SET -/

/-- What a 1 written to one bit of IRQ_PEND_SET does. -/
def pendBit (w : Nat) (v : Word) (s : State) (b : Nat) : State :=
  if v.getLsbD b ∧ irqListed (64 * w + b) ∧ ¬ s.irqPending (64 * w + b) then pendSource (64 * w + b) s else s

theorem pendBits_cons (w : Nat) (v : Word) (s : State) (b : Nat) (bs : List Nat) :
    pendBits w v s (b :: bs) = pendBits w v (pendBit w v s b) bs := rfl

section
variable {w : Nat} {v : Word} {b : Nat} (hb : b < 64)
include hb

theorem pendBit_frame (s : State) : UnitFrame [Reg.IRQ_PEND_SET w, Reg.IRQ_PEND_CLR w] s (pendBit w v s b) :=
  .ite (((UnitFrame.refl _ s).setFlt _).trans (setPend_frame hb w true _)) (.refl _ s)

theorem irqPending_pendBit {c : Nat} (hc : c < 64) (s : State) : (pendBit w v s b).irqPending (64 * w + c) =
    (s.irqPending (64 * w + c) || (decide (c = b) && (v.getLsbD c && irqListed (64 * w + c)))) := by
  have set : (pendSource (64 * w + b) s).irqPending (64 * w + c) = if c = b then true else s.irqPending (64 * w + c) :=
    irqPending_setPend_word hb hc true _
  unfold pendBit
  by_cases e : c = b
  · subst e
    rw [decide_eq_true rfl, Bool.true_and]
    split
    next h => simp [set, h]
    next h =>
      have already : v.getLsbD c = true → irqListed (64 * w + c) = true → s.irqPending (64 * w + c) = true :=
        fun hv hl => Decidable.byContradiction fun hp => h ⟨hv, hl, hp⟩
      rw [Bool.eq_iff_iff]
      simpa using already
  · split <;> simp [set, e]

end

/-- After its bits have been written, a source is pending if it was or if its bit was among them. -/
theorem irqPending_pendBits (w : Nat) (v : Word) {c : Nat} (hc : c < 64) : ∀ (bs : List Nat) (s : State), (∀ b ∈ bs, b < 64) →
    (pendBits w v s bs).irqPending (64 * w + c) =
      (s.irqPending (64 * w + c) || (decide (c ∈ bs) && (v.getLsbD c && irqListed (64 * w + c)))) := by
  intro bs
  induction bs with
  | nil => intro s _; simp [pendBits]
  | cons b bs ih =>
    intro s hbs
    rw [pendBits_cons, ih _ fun x hx => hbs x (List.mem_cons_of_mem _ hx), irqPending_pendBit (hbs b (List.mem_cons_self ..)) hc]
    rw [Bool.or_assoc, ← Bool.and_or_distrib_right]
    simp

theorem pendBits_frame (w : Nat) (v : Word) : ∀ (bs : List Nat) (s : State), (∀ b ∈ bs, b < 64) →
    UnitFrame [Reg.IRQ_PEND_SET w, Reg.IRQ_PEND_CLR w] s (pendBits w v s bs) := by
  intro bs
  induction bs with
  | nil => intro s _; exact .refl _ s
  | cons b bs ih =>
    intro s hbs
    exact (pendBit_frame (hbs b (List.mem_cons_self ..)) s).trans (ih _ fun x hx => hbs x (List.mem_cons_of_mem _ hx))

/-- A written bit leaves the raises of every other source as they are. -/
theorem mem_raises_pendBit {w : Nat} {v : Word} {b : Nat} {q : Raise} (hne : q.source ≠ 64 * w + b) (s : State) :
    q ∈ (pendBit w v s b).flt.raises ↔ q ∈ s.flt.raises := by
  unfold pendBit
  split
  · exact ⟨fun h => (source_of_mem_foldRaise h).resolve_left hne, mem_foldRaise_other hne⟩
  · rfl

/-- A raise that waits with its bit set is left alone by the whole write. -/
theorem mem_raises_pendBits {w : Nat} {v : Word} {c : Nat} (hc : c < 64) {q : Raise} (hq : q.source = 64 * w + c) :
    ∀ (bs : List Nat) (s : State), (∀ b ∈ bs, b < 64) → s.irqPending (64 * w + c) = true → q ∈ s.flt.raises →
      q ∈ (pendBits w v s bs).flt.raises := by
  intro bs
  induction bs with
  | nil => intro s _ _ h; exact h
  | cons b bs ih =>
    intro s hbs hpend h
    rw [pendBits_cons]
    refine ih _ (fun x hx => hbs x (List.mem_cons_of_mem _ hx)) ?_ ?_
    · rw [irqPending_pendBit (hbs b (List.mem_cons_self ..)) hc, hpend, Bool.true_or]
    · by_cases e : c = b
      · subst e
        rw [pendBit, if_neg (by simp [hpend])]
        exact h
      · exact (mem_raises_pendBit (by omega) s).mpr h

/-- A source made pending that has no raise gets one with ARRIVALS 0. -/
theorem raise_of_pendBits {w : Nat} {v : Word} {c : Nat} (hc : c < 64) (hv : v.getLsbD c = true) (hl : irqListed (64 * w + c) = true) :
    ∀ (bs : List Nat) (s : State), (∀ b ∈ bs, b < 64) → c ∈ bs → s.irqPending (64 * w + c) = false →
      (∀ r ∈ s.flt.raises, r.source ≠ 64 * w + c) →
      ∃ r ∈ (pendBits w v s bs).flt.raises, r.source = 64 * w + c ∧ r.arrivals = 0 := by
  intro bs
  induction bs with
  | nil => intro s _ h; cases h
  | cons b bs ih =>
    intro s hbs hmem hpend hnone
    have hb := hbs b (List.mem_cons_self ..)
    have hrest : ∀ x ∈ bs, x < 64 := fun x hx => hbs x (List.mem_cons_of_mem _ hx)
    have pending := irqPending_pendBit (w := w) (v := v) hb hc s
    rw [pendBits_cons]
    by_cases e : c = b
    · subst e
      have raised : ⟨64 * w + c, 0, s.now, 0⟩ ∈ (pendBit w v s c).flt.raises := by
        rw [pendBit, if_pos ⟨hv, hl, by simp [hpend]⟩]
        exact mem_foldRaise_new s.now 0 0 hnone
      exact ⟨_, mem_raises_pendBits hc rfl bs _ hrest (by simp [pending, hv, hl]) raised, rfl, rfl⟩
    · refine ih _ hrest ((List.mem_cons.mp hmem).resolve_left e) (by simp [pending, e, hpend]) fun r hr hsrc => ?_
      exact hnone r ((mem_raises_pendBit (by omega) s).mp hr) hsrc

/-! ### IRQ_PEND_CLR -/

/-- What a 1 written to one bit of IRQ_PEND_CLR does. -/
def clearBit (w : Nat) (v : Word) (s : State) (b : Nat) : State := if v.getLsbD b then takeRaise (64 * w + b) s else s

theorem clearBits_cons (w : Nat) (v : Word) (s : State) (b : Nat) (bs : List Nat) :
    clearBits w v s (b :: bs) = clearBits w v (clearBit w v s b) bs := rfl

theorem clearBit_frame {w : Nat} {v : Word} {b : Nat} (hb : b < 64) (s : State) :
    UnitFrame [Reg.IRQ_PEND_SET w, Reg.IRQ_PEND_CLR w] s (clearBit w v s b) :=
  .ite (((UnitFrame.refl _ s).setFlt _).trans (setPend_frame hb w false _)) (.refl _ s)

theorem clearBits_frame (w : Nat) (v : Word) : ∀ (bs : List Nat) (s : State), (∀ b ∈ bs, b < 64) →
    UnitFrame [Reg.IRQ_PEND_SET w, Reg.IRQ_PEND_CLR w] s (clearBits w v s bs) := by
  intro bs
  induction bs with
  | nil => intro s _; exact .refl _ s
  | cons b bs ih =>
    intro s hbs
    exact (clearBit_frame (hbs b (List.mem_cons_self ..)) s).trans (ih _ fun x hx => hbs x (List.mem_cons_of_mem _ hx))

theorem irqPending_clearBit {w : Nat} {v : Word} {b c : Nat} (hb : b < 64) (hc : c < 64) (s : State) :
    (clearBit w v s b).irqPending (64 * w + c) = (s.irqPending (64 * w + c) && !(decide (c = b) && v.getLsbD c)) := by
  have taken : (takeRaise (64 * w + b) s).irqPending (64 * w + c) = if c = b then false else s.irqPending (64 * w + c) :=
    irqPending_setPend_word hb hc false _
  unfold clearBit
  by_cases e : c = b
  · subst e; cases hv : v.getLsbD c <;> simp [taken]
  · split <;> simp [taken, e]

/-- A pending bit is cleared if it was among the bits written. -/
theorem irqPending_clearBits (w : Nat) (v : Word) {c : Nat} (hc : c < 64) : ∀ (bs : List Nat) (s : State), (∀ b ∈ bs, b < 64) →
    (clearBits w v s bs).irqPending (64 * w + c) = (s.irqPending (64 * w + c) && !(decide (c ∈ bs) && v.getLsbD c)) := by
  intro bs
  induction bs with
  | nil => intro s _; simp [clearBits]
  | cons b bs ih =>
    intro s hbs
    rw [clearBits_cons, ih _ fun x hx => hbs x (List.mem_cons_of_mem _ hx), irqPending_clearBit (hbs b (List.mem_cons_self ..)) hc]
    rw [Bool.and_assoc, ← Bool.not_or, ← Bool.and_or_distrib_right]
    simp

theorem mem_raises_clearBit (w : Nat) (v : Word) (s : State) (b : Nat) (r : Raise) :
    r ∈ (clearBit w v s b).flt.raises ↔ r ∈ s.flt.raises ∧ ¬ (r.source = 64 * w + b ∧ v.getLsbD b = true) := by
  unfold clearBit
  split
  next h =>
    show r ∈ s.flt.raises.filter _ ↔ _
    simp [h]
  next h => simp [h]

theorem mem_raises_clearBits (w : Nat) (v : Word) (r : Raise) : ∀ (bs : List Nat) (s : State),
    r ∈ (clearBits w v s bs).flt.raises ↔ r ∈ s.flt.raises ∧ ∀ b ∈ bs, ¬ (r.source = 64 * w + b ∧ v.getLsbD b = true) := by
  intro bs
  induction bs with
  | nil => intro s; simp [clearBits]
  | cons b bs ih =>
    intro s
    rw [clearBits_cons, ih, mem_raises_clearBit, List.forall_mem_cons, and_assoc]

/-- The whole word of pending bits after IRQ_PEND_CLR. -/
theorem reg_doPendClr (w : Nat) (v : Word) (s : State) :
    (doPendClr w v s).reg (Reg.IRQ_PEND_SET w) = s.reg (Reg.IRQ_PEND_SET w) &&& ~~~ v := by
  refine BitVec.eq_of_getLsbD_eq fun c hc => ?_
  rw [← irqPending_eq hc, doPendClr, irqPending_clearBits w v hc _ s fun b hb => List.mem_range.mp hb, irqPending_eq hc]
  simp [hc]

theorem mem_raises_doPendClr (w : Nat) (v : Word) (s : State) (r : Raise) : r ∈ (doPendClr w v s).flt.raises ↔
    r ∈ s.flt.raises ∧ ¬ (r.source / 64 = w ∧ v.getLsbD (r.source % 64) = true) := by
  rw [doPendClr, mem_raises_clearBits]
  refine and_congr_right fun _ => ⟨fun h ⟨hw, hv⟩ => ?_, fun h b hb ⟨hsrc, hv⟩ => h ?_⟩
  · exact h (r.source % 64) (List.mem_range.mpr (Nat.mod_lt _ (by decide))) ⟨by omega, hv⟩
  · obtain ⟨hdiv, hmod⟩ := word_of_source (List.mem_range.mp hb) w
    exact ⟨hsrc ▸ hdiv, by rw [hsrc, hmod]; exact hv⟩

/-- Settles O14: both enable addresses hold one word, and the pending bits are written one source after another. -/
theorem interruptWordsSetAndClear : Obligations.InterruptWordsSetAndClear := by
  unfold Obligations.InterruptWordsSetAndClear
  intro who w v s
  have bits : ∀ b ∈ List.range 64, b < 64 := fun b hb => List.mem_range.mp hb
  refine ⟨fun ⟨awake, ok⟩ => ?enableSet, fun ⟨awake, ok⟩ => ?enableClear, fun ⟨awake, ok⟩ => ?pendSet, fun ⟨awake, ok⟩ => ?pendClear⟩
  case enableSet =>
    rw [exec_irqEnSet, live_awake _ awake, guardWrite_ok ok, doEnable_set]
    exact ⟨_, rfl, withEnables_reads ..⟩
  case enableClear =>
    rw [exec_irqEnClr, live_awake _ awake, guardWrite_ok ok, doEnable_clear]
    exact ⟨_, rfl, withEnables_reads ..⟩
  case pendSet =>
    obtain ⟨regs, machine⟩ := pendBits_frame w.val v _ s bits
    rw [exec_irqPendSet, live_awake _ awake, guardWrite_ok ok]
    refine ⟨_, rfl, fun b => ?_, fun b hv hl hpend hnone => ?_, regs, machine⟩
    · rw [doPendSet, irqPending_pendBits w.val v b.isLt _ s bits]
      simp
    · exact raise_of_pendBits b.isLt hv hl _ s bits (List.mem_range.mpr b.isLt) hpend hnone
  case pendClear =>
    obtain ⟨regs, machine⟩ := clearBits_frame w.val v _ s bits
    rw [exec_irqPendClr, live_awake _ awake, guardWrite_ok ok]
    exact ⟨_, rfl, reg_doPendClr w.val v s, mem_raises_doPendClr w.val v s, regs, machine⟩

end Sys2Proof.Machine
end

section
/-!
PROOFS. A report of severity 1 that the ring takes at once, of any source, and the forced report of FLT_SRC_SEV (R401, R410, R413).
-/

namespace Sys2Proof.Machine

/-! ### What writing a record changes -/

/-- The registers that a record in the ring may change: the ring's own, and those of source 1,042 (R413). -/
def ringWriteRegs : List Nat :=
  [Reg.FLT_RING_PTR, Reg.IRQ_SRC_CNT evRing, Reg.IRQ_PEND_SET (evRing / 64), Reg.IRQ_PEND_CLR (evRing / 64)]

theorem not_mem_ringWriteRegs {a : Nat} (h : 0x30000 ≤ a) (hp : a ≠ Reg.FLT_RING_PTR) : a ∉ ringWriteRegs := by
  simp only [ringWriteRegs, List.mem_cons, List.not_mem_nil, or_false, Reg.IRQ_SRC_CNT, Reg.IRQ_PEND_SET, Reg.IRQ_PEND_CLR, evRing]
  omega

namespace UnitFrame

variable {s t : State}

theorem ringRaise (h : UnitFrame ringWriteRegs s t) (data : Word) : UnitFrame ringWriteRegs s (irqRaise evRing data t) := by
  have counted : UnitFrame ringWriteRegs s (t.bump (Reg.IRQ_SRC_CNT evRing) Reg.IRQ_SRC_CNT_COUNT 1) :=
    h.setFld (by simp [ringWriteRegs]) _ _
  unfold irqRaise irqFold
  split
  · exact ((counted.setFlt _).setReg (by simp [ringWriteRegs]) _).setReg (by simp [ringWriteRegs]) _
  · exact h

theorem ringThreshold (h : UnitFrame ringWriteRegs s t) : UnitFrame ringWriteRegs s (Machine.ringThreshold t) :=
  ite (ite h ((h.setFlt _).ringRaise 0)) (h.setFlt _)

end UnitFrame

theorem reg_store (s : State) (a : Nat) (b : List Byte) (c : Nat) : (s.store a b).reg c = s.reg c := rfl

theorem sameRegsBut_ringWrite (r : Report) (kept : Bool) (s : State) : SameRegsBut ringWriteRegs s (ringWrite r kept s) := by
  have ptr : Reg.FLT_RING_PTR ∈ ringWriteRegs := List.mem_cons_self ..
  let stored := s.store (ringTail s) (r.bytes (s.flag Reg.FLT_RING_PTR Reg.FLT_RING_PTR_PHASE) kept)
  have moved (i : Nat) := (UnitFrame.refl ringWriteRegs stored).setFld ptr Reg.FLT_RING_PTR_TAIL i
  have written : UnitFrame ringWriteRegs stored (ringWrite r kept s) :=
    .ringThreshold (.ite ((moved _).setFld ptr _ _) (moved _))
  exact fun a ha => (written.regs a ha).trans (reg_store ..)

/-! ### A report of severity 1 that finds room -/

/-- The report is counted, and its record is written at once. -/
def Due.recorded (d : Due) (s : State) : State := ringWrite (d.report s) false (setSince d.src 0 (d.counted s))

/-- A record and the count of its source leave the other registers of the fault unit alone. -/
theorem Due.reg_recorded (d : Due) (s : State) {a : Nat} (h : 0x30000 ≤ a) (hp : a ≠ Reg.FLT_RING_PTR) :
    (d.recorded s).reg a = (d.counted s).reg a :=
  sameRegsBut_ringWrite _ _ _ a (not_mem_ringWriteRegs h hp)

theorem Due.fatal_recorded {d : Due} (s : State) : (d.recorded s).fatal = s.fatal := by
  have hst : Reg.FLT_STATUS ≠ Reg.FLT_SRC_STAT d.src := by simp only [Reg.FLT_SRC_STAT, Reg.FLT_STATUS]; omega
  unfold State.fatal State.flag State.fld
  rw [d.reg_recorded s (by decide) (by decide), Due.counted, reg_setFld_other _ hst, bump_eq, reg_setFld_other _ hst, reg_setReg_same,
    Fld.get_put_other _ _ _ _ (by decide) (by decide)]

theorem Due.count_recorded (d : Due) (s : State) : (d.recorded s).fld (Reg.FLT_SRC_STAT d.src) Reg.FLT_SRC_STAT_COUNT =
    min (s.fld (Reg.FLT_SRC_STAT d.src) Reg.FLT_SRC_STAT_COUNT + 1) 255 := by
  have ptr : Reg.FLT_SRC_STAT d.src ≠ Reg.FLT_RING_PTR := by simp only [Reg.FLT_SRC_STAT, Reg.FLT_RING_PTR]; omega
  rw [← d.counted_count s, State.fld, d.reg_recorded s (by simp only [Reg.FLT_SRC_STAT]; omega) ptr, State.fld]

section
variable {d : Due} (hd : d.src < 1024) (s : State)
include hd

theorem Due.counted_ring : (d.counted s).reg Reg.FLT_RING_CFG = s.reg Reg.FLT_RING_CFG ∧
    (d.counted s).reg Reg.FLT_RING_PTR = s.reg Reg.FLT_RING_PTR ∧
    ∀ n, (d.counted s).reg (Reg.RGN_BLOCK_STATE n) = s.reg (Reg.RGN_BLOCK_STATE n) :=
  ⟨Due.counted_reg hd (by decide) (by decide) s, Due.counted_reg hd (by decide) (by decide) s, fun n =>
    Due.counted_reg hd (by simp only [Reg.RGN_BLOCK_STATE, Reg.FLT_STATUS, rgnBase]; omega)
      (by simp only [Reg.RGN_BLOCK_STATE, rgnBase]; omega) s⟩

theorem Due.reg_sev_recorded : (d.recorded s).reg (Reg.FLT_SRC_SEV d.src) = s.reg (Reg.FLT_SRC_SEV d.src) := by
  have status : Reg.FLT_SRC_SEV d.src ≠ Reg.FLT_STATUS := by simp only [Reg.FLT_SRC_SEV, Reg.FLT_STATUS]; omega
  have ptr : Reg.FLT_SRC_SEV d.src ≠ Reg.FLT_RING_PTR := by simp only [Reg.FLT_SRC_SEV, Reg.FLT_RING_PTR]; omega
  rw [d.reg_recorded s (by simp only [Reg.FLT_SRC_SEV]; omega) ptr,
    Due.counted_reg hd status (by simp only [Reg.FLT_SRC_SEV]; omega)]

theorem Due.mem_recorded : (d.recorded s).mem =
    (s.store (ringTail s) ((d.report s).bytes (s.flag Reg.FLT_RING_PTR Reg.FLT_RING_PTR_PHASE) false)).mem := by
  obtain ⟨cfg, ptr, _⟩ := Due.counted_ring hd s
  have tail : ringTail (setSince d.src 0 (d.counted s)) = ringTail s := ringTail_congr cfg ptr
  have phase : (setSince d.src 0 (d.counted s)).flag Reg.FLT_RING_PTR Reg.FLT_RING_PTR_PHASE =
      s.flag Reg.FLT_RING_PTR Reg.FLT_RING_PTR_PHASE := congrArg (fun w => Reg.FLT_RING_PTR_PHASE.get w != 0) ptr
  rw [Due.recorded, mem_ringWrite, tail, phase]
  rfl

variable {s} (hroom : ringRoom s = true) (hkept : ∀ x ∈ s.flt.kept, x.source ≠ d.src) (heff : d.eff s = 1)
include hroom hkept heff

theorem Due.logged_recorded : d.logged s = (d.recorded s, false) := by
  obtain ⟨cfg, ptr, blocks⟩ := Due.counted_ring hd s
  have room : ringRoom (d.counted s) = true := (ringRoom_congr cfg ptr blocks).trans hroom
  have none : ((d.counted s).flt.kept.any fun x => x.source == (d.report s).source) = false := by
    simp only [List.any_eq_false, beq_iff_eq]
    exact hkept
  rw [Due.logged, if_pos (by omega), recordReport]
  simp only [room, none]
  rfl

variable (hpin : s.flag (Reg.FLT_SRC_SEV d.src) Reg.FLT_SRC_SEV_PIN = false)
include hpin

/-- Taken alone, with PIN 0, such a report does no more than count and record, and ERR_N follows MODE. -/
theorem takeReports_recorded (k : Nat) : takeReports (k + 1) [d] s = settleErr (d.recorded s) := by
  have logged := Due.logged_recorded hd hroom hkept heff
  have pulsed : d.pulsed s = d.recorded s := by
    have low : (d.recorded s).flag (Reg.FLT_SRC_SEV d.src) Reg.FLT_SRC_SEV_PIN = false := by
      rw [State.flag, State.fld, Due.reg_sev_recorded hd]
      exact hpin
    simp only [Due.pulsed, logged, low, Bool.false_eq_true, and_false, if_false]
  have requested : d.requested s = d.recorded s := by
    rw [Due.requested, if_neg (by omega), Due.pended, if_neg (by omega), pulsed]
  have contained : d.contained s = (d.recorded s, []) := by
    unfold Due.contained
    split
    · rw [requested]
    · rw [if_neg (by omega), requested]
  have raised : d.raised s = [] := by
    rw [Due.raised, contained, logged]
    rfl
  rw [takeReports_cons, raised, Due.settled, if_neg (by omega), contained]
  exact takeReports_nil k _

end

theorem raiseWith_recorded {status src : Nat} {forced : Bool} {info : FaultInfo} {s : State} (hsrc : src < 1024)
    (hlisted : srcListed src = true) (hon : srcOff s src = false) (hsev : s.sev src = 1)
    (hpin : s.flag (Reg.FLT_SRC_SEV src) Reg.FLT_SRC_SEV_PIN = false) (hroom : ringRoom s = true)
    (hkept : ∀ x ∈ s.flt.kept, x.source ≠ src) :
    raiseWith status src forced info s = settleErr (Due.recorded ⟨src, none, forced, false, info, status⟩ s) := by
  have taken := takeReports_recorded (d := ⟨src, none, forced, false, info, status⟩) hsrc hroom hkept hsev hpin 71
  have fatal : (settleErr (Due.recorded ⟨src, none, forced, false, info, status⟩ s)).fatal = s.fatal :=
    (congrArg (fun w => Reg.FLT_STATUS_FATAL.get w != 0) (reg_settleErr (by decide) _)).trans (Due.fatal_recorded s)
  unfold raiseWith
  rw [if_neg (not_not_intro hlisted), if_neg (by simp [hon])]
  dsimp only
  rw [show reportFuel = 71 + 1 from rfl, taken, fatal, if_neg (fun h => h.2.1 h.1)]

/-! ### FORCED in the record -/

/-- Byte 6 of a record holds FORCED in its highest bit (Table 17.4). -/
theorem forced_bytes (r : Report) (phase kept : Bool) (h : r.sev + 8 * r.eff + 64 * bit r.escalated < 128) :
    ((r.bytes phase kept)[6]'(by rw [Report.length_bytes]; decide)).getLsbD 7 = r.forced := by
  have byte : (r.bytes phase kept)[6]'(by rw [Report.length_bytes]; decide) =
      BitVec.ofNat 8 (r.sev + 8 * r.eff + 64 * bit r.escalated + 128 * bit r.forced) := by
    simp only [Report.bytes, leBytes, List.cons_append, List.nil_append, List.getElem_cons_succ, List.getElem_cons_zero]
  have low := Nat.testBit_lt_two_pow (i := 7) h
  rw [byte, BitVec.getLsbD_ofNat]
  cases r.forced with
  | false => exact low
  | true =>
    have top := Nat.testBit_two_pow_add_eq (r.sev + 8 * r.eff + 64 * bit r.escalated) 7
    rw [low, Nat.add_comm] at top
    exact top

/-! ### The write of FLT_SRC_SEV -/

/-- The state in which a write of FLT_SRC_SEV of a source that is not fixed has set SEV and PIN (R399). -/
def sevWritten (a : Nat) (v : Word) (s : State) : State :=
  settleErr ((s.setFld a Reg.FLT_SRC_SEV_SEV (Reg.FLT_SRC_SEV_SEV.get v)).setFld a Reg.FLT_SRC_SEV_PIN (Reg.FLT_SRC_SEV_PIN.get v))

theorem sevWritten_frame (a : Nat) (v : Word) (s : State) : UnitFrame [a, Reg.ERR_PIN_CTRL] s (sevWritten a v s) :=
  (((UnitFrame.refl _ s).setFld (List.mem_cons_self ..) _ _).setFld (List.mem_cons_self ..) _ _).settleErr (by simp)

theorem sevWritten_kept (a : Nat) (v : Word) (s : State) : (sevWritten a v s).flt.kept = s.flt.kept := by
  rw [sevWritten, flt_settleErr]
  rfl

theorem reg_sevWritten (src : Nat) (v : Word) (s : State) : (sevWritten (Reg.FLT_SRC_SEV src) v s).reg (Reg.FLT_SRC_SEV src) =
    Reg.FLT_SRC_SEV_PIN.put (Reg.FLT_SRC_SEV_SEV.put (s.reg (Reg.FLT_SRC_SEV src)) (Reg.FLT_SRC_SEV_SEV.get v))
      (Reg.FLT_SRC_SEV_PIN.get v) := by
  have apart : Reg.FLT_SRC_SEV src ≠ Reg.ERR_PIN_CTRL := by simp only [Reg.FLT_SRC_SEV, Reg.ERR_PIN_CTRL]; omega
  rw [sevWritten, reg_settleErr apart, reg_setFld_same, reg_setFld_same]

/-- The forced report of a source, which names the command of its region's plan (R410). -/
def forcedDue (src : Nat) (s : State) : Due :=
  ⟨src, none, true, false, ⟨(srcRgn src).bind fun n => (s.rgn n).plan, 0, 0⟩, ST_INTERNAL⟩

/-- The state in which a write with FORCE has set SEV and PIN and its report has been recorded. -/
def forceTaken (src : Nat) (v : Word) (s : State) : State :=
  (forcedDue src (sevWritten (Reg.FLT_SRC_SEV src) v s)).recorded (sevWritten (Reg.FLT_SRC_SEV src) v s)

section
variable {src : Nat} (hsrc : src < 1024)
include hsrc

/-- The severities are registers of the chip block, where every address is its own. -/
theorem srcSev_at : unalias (Reg.FLT_SRC_SEV src) = Reg.FLT_SRC_SEV src ∧ isSrcSev (Reg.FLT_SRC_SEV src) = true ∧
    (Reg.FLT_SRC_SEV src - 0x31000) / 8 = src := by
  have range : 0x31000 ≤ Reg.FLT_SRC_SEV src ∧ Reg.FLT_SRC_SEV src < 0x33000 := by simp only [Reg.FLT_SRC_SEV]; omega
  have own : unalias (Reg.FLT_SRC_SEV src) = Reg.FLT_SRC_SEV src := unalias_chip (dif_neg (by omega))
  refine ⟨own, ?_, by simp only [Reg.FLT_SRC_SEV]; omega⟩
  simp only [isSrcSev, own, range, decide_true, Bool.and_self]

theorem doSrcSev_forced {v : Word} {s : State} (hlisted : srcListed src = true)
    (hfree : s.flag (Reg.FLT_SRC_SEV src) Reg.FLT_SRC_SEV_FIXED = false) (hforce : Reg.FLT_SRC_SEV_FORCE.get v = 1) :
    doSrcSev (Reg.FLT_SRC_SEV src) v s =
      let u := sevWritten (Reg.FLT_SRC_SEV src) v s
      raiseWith ST_INTERNAL src true (forcedDue src u).info u := by
  obtain ⟨own, _, index⟩ := srcSev_at hsrc
  unfold doSrcSev
  simp only [own, index, hlisted, hfree, hforce, not_true, Bool.false_eq_true, if_false, if_true]
  rfl

theorem ring_sevWritten (v : Word) (s : State) :
    let u := sevWritten (Reg.FLT_SRC_SEV src) v s
    u.reg Reg.FLT_RING_CFG = s.reg Reg.FLT_RING_CFG ∧ u.reg Reg.FLT_RING_PTR = s.reg Reg.FLT_RING_PTR ∧
      ∀ n, u.reg (Reg.RGN_BLOCK_STATE n) = s.reg (Reg.RGN_BLOCK_STATE n) := by
  have beside {a : Nat} (h : a < 0x30060 ∨ 0x33000 ≤ a) : a ∉ [Reg.FLT_SRC_SEV src, Reg.ERR_PIN_CTRL] := by
    simp only [List.mem_cons, List.not_mem_nil, or_false, Reg.FLT_SRC_SEV, Reg.ERR_PIN_CTRL]
    omega
  have regs := (sevWritten_frame (Reg.FLT_SRC_SEV src) v s).regs
  exact ⟨regs _ (beside (by decide)), regs _ (beside (by decide)), fun n =>
    regs _ (beside (by simp only [Reg.RGN_BLOCK_STATE, rgnBase]; omega))⟩

end

theorem sev_sevWritten {src : Nat} {v : Word} (h : Reg.FLT_SRC_SEV_SEV.get v = 1) (s : State) :
    (sevWritten (Reg.FLT_SRC_SEV src) v s).sev src = 1 := by
  rw [State.sev, State.fld, reg_sevWritten, Fld.get_put_other _ _ _ _ (by decide) (by decide), Fld.get_put _ _ _ (by decide), h]
  rfl

theorem pin_sevWritten {src : Nat} {v : Word} (h : Reg.FLT_SRC_SEV_PIN.get v = 0) (s : State) :
    (sevWritten (Reg.FLT_SRC_SEV src) v s).flag (Reg.FLT_SRC_SEV src) Reg.FLT_SRC_SEV_PIN = false := by
  rw [State.flag, State.fld, reg_sevWritten, Fld.get_put _ _ _ (by decide), h]
  rfl

/-- The count of a source is beside its severity. -/
theorem stat_sevWritten (src : Nat) (v : Word) (s : State) :
    (sevWritten (Reg.FLT_SRC_SEV src) v s).reg (Reg.FLT_SRC_STAT src) = s.reg (Reg.FLT_SRC_STAT src) := by
  refine (sevWritten_frame _ v s).regs _ ?_
  simp only [List.mem_cons, List.not_mem_nil, or_false, Reg.FLT_SRC_STAT, Reg.FLT_SRC_SEV, Reg.ERR_PIN_CTRL]
  omega

section
variable {src : Nat} (v : Word) (s : State)

theorem count_forceTaken : (forceTaken src v s).fld (Reg.FLT_SRC_STAT src) Reg.FLT_SRC_STAT_COUNT =
    min (s.fld (Reg.FLT_SRC_STAT src) Reg.FLT_SRC_STAT_COUNT + 1) 255 := by
  have before : (sevWritten (Reg.FLT_SRC_SEV src) v s).fld (Reg.FLT_SRC_STAT src) Reg.FLT_SRC_STAT_COUNT =
      s.fld (Reg.FLT_SRC_STAT src) Reg.FLT_SRC_STAT_COUNT := congrArg Reg.FLT_SRC_STAT_COUNT.get (stat_sevWritten src v s)
  rw [← before]
  exact (forcedDue src _).count_recorded _

variable (hsrc : src < 1024) {v} (hsev : Reg.FLT_SRC_SEV_SEV.get v = 1)
include hsrc hsev

theorem sev_forceTaken : (forceTaken src v s).sev src = 1 := by
  have same : (forceTaken src v s).reg (Reg.FLT_SRC_SEV src) = (sevWritten (Reg.FLT_SRC_SEV src) v s).reg (Reg.FLT_SRC_SEV src) :=
    Due.reg_sev_recorded (d := forcedDue src _) hsrc _
  rw [State.sev, State.fld, same]
  exact sev_sevWritten hsev s

/-- The record at the ring's TAIL is marked FORCED. -/
theorem forced_forceTaken : ((forceTaken src v s).byte (ringTail s + 6)).getLsbD 7 = true := by
  obtain ⟨cfg, ptr, _⟩ := ring_sevWritten hsrc v s
  have record : Holds (forceTaken src v s) (ringTail (sevWritten (Reg.FLT_SRC_SEV src) v s)) _ :=
    holds_of_store (Due.mem_recorded (d := forcedDue src _) hsrc _)
  have byte := record 6 (by rw [Report.length_bytes]; decide)
  rw [ringTail_congr cfg ptr] at byte
  rw [byte]
  refine forced_bytes _ _ _ ?_
  have severity := sev_sevWritten (src := src) hsev s
  show State.sev _ src + 8 * State.sev _ src + 64 * 0 < 128
  omega

end

/-- Settles O12: after SEV and PIN have been written, the forced report is one record, whose byte 6 has FORCED. -/
theorem forcedReportIsMarked : Obligations.ForcedReportIsMarked := by
  unfold Obligations.ForcedReportIsMarked
  intro who src v s ⟨awake, ok⟩ hlisted hon hfree hforce hsev hpin hroom hkept
  have run : exec (.force who (Reg.FLT_SRC_SEV src.val) v) s = .next (settleErr (forceTaken src.val v s)) := by
    obtain ⟨_, answers, _⟩ := srcSev_at src.isLt
    obtain ⟨cfg, ptr, blocks⟩ := ring_sevWritten src.isLt v s
    rw [exec_force, live_awake _ awake, if_pos answers, guardWrite_ok ok, doSrcSev_forced src.isLt hlisted hfree hforce]
    refine congrArg _ (raiseWith_recorded src.isLt hlisted ?_ (sev_sevWritten hsev s) (pin_sevWritten hpin s) ?_ ?_)
    · exact (srcOff_congr (sevWritten_frame _ v s).pwr _).trans hon
    · exact (ringRoom_congr cfg ptr blocks).trans hroom
    · rw [sevWritten_kept]
      exact hkept
  have unsettled {a : Nat} (h : 0x31000 ≤ a) : (settleErr (forceTaken src.val v s)).reg a = (forceTaken src.val v s).reg a :=
    reg_settleErr (by simp only [Reg.ERR_PIN_CTRL]; omega) _
  refine ⟨_, run, ?severity, ?count, ?forced⟩
  case severity =>
    rw [State.sev, State.fld, unsettled (by simp only [Reg.FLT_SRC_SEV]; omega)]
    exact sev_forceTaken s src.isLt hsev
  case count =>
    rw [State.fld, unsettled (by simp only [Reg.FLT_SRC_STAT]; omega)]
    exact count_forceTaken v s
  case forced =>
    rw [byte_of_mem (mem_settleErr _)]
    exact forced_forceTaken s src.isLt hsev

end Sys2Proof.Machine
end

section
/-!
PROOFS. What the rise of POR_N leaves alone, which commands a held device answers with nothing, and the test hold (R457).
-/

namespace Sys2Proof.Machine

/-! ### What the rise of POR_N leaves alone -/

/-- The stage of the chip, bring-up, the pins, Taith and memory are as before. -/
structure StageFrame (s t : State) : Prop where
  stage : t.chipStage = s.chipStage
  boot : t.boot = s.boot
  pins : t.pins = s.pins
  taith : t.taith = s.taith
  mem : t.mem = s.mem

namespace StageFrame

variable {s t : State}

theorem refl (s : State) : StageFrame s s := ⟨rfl, rfl, rfl, rfl, rfl⟩

theorem ite {p : Prop} [Decidable p] {u : State} (ht : StageFrame s t) (hu : StageFrame s u) :
    StageFrame s (if p then t else u) := by
  split
  · exact ht
  · exact hu

/-- A field outside bits 0 to 2 of BOOT_STATUS is no part of the chip's stage. -/
theorem setFld (h : StageFrame s t) {a : Nat} {f : Fld} (ha : a = Reg.BOOT_STATUS → 3 ≤ f.lo) (x : Nat) :
    StageFrame s (t.setFld a f x) where
  stage := by
    refine Eq.trans ?_ h.stage
    by_cases e : a = Reg.BOOT_STATUS
    · subst e
      exact fld_setFld_apart t _ _ _ x (by decide) (.inr (ha rfl))
    · exact fld_setFld_other t (Ne.symm e) _ _ x
  boot := h.boot
  pins := h.pins
  taith := h.taith
  mem := h.mem

theorem setPwr (h : StageFrame s t) (p : Power) : StageFrame s { t with pwr := p } :=
  ⟨h.stage, h.boot, h.pins, h.taith, h.mem⟩

theorem serviceOff (h : StageFrame s t) (l : List Rgn) :
    StageFrame s (l.foldl (fun u n => u.setFld (Reg.PWR_RGN n.val) Reg.PWR_RGN_SERVICE_ON 0) t) := by
  induction l generalizing t with
  | nil => exact h
  | cons n l ih => exact ih (h.setFld (fun e => absurd e (by simp only [Reg.PWR_RGN, Reg.BOOT_STATUS]; omega)) _)

theorem showPins (h : StageFrame s t) : StageFrame s (Machine.showPins t) :=
  (h.setFld (by decide) _).setFld (by decide) _

theorem enterMinimal (h : StageFrame s t) : StageFrame s (Machine.enterMinimal t) := by
  have minimal := h.setFld (a := Reg.BOOT_STATUS) (f := Reg.BOOT_STATUS_MINIMAL) (by decide) 1
  exact ite ((setPwr (ite (minimal.setFld (by decide) _) minimal) _).serviceOff _) h

end StageFrame

/-- The device at the rise of POR_N, before the straps are shown: the start is now, and TEST_EN decides the hold. -/
def porHigh (testEn : Bool) (s : State) : State :=
  { s with pins := { s.pins with porN := true }, boot := { s.boot with start := s.now, testHold := testEn } }

theorem porRises_low {s : State} (h : s.pins.porN = false) (boot recover testEn : Bool) :
    StageFrame (porHigh testEn s) (porRises boot recover testEn s) := by
  rw [porRises, if_neg (by simp [h])]
  exact ((((StageFrame.refl _).setFld (by decide) _).setFld (by decide) _).showPins).enterMinimal

theorem porRises_high {s : State} (h : s.pins.porN = true) (boot recover testEn : Bool) : porRises boot recover testEn s = s :=
  if_pos h

/-! ### The commands of a held device -/

/-- Every command but the edges of POR_N and the fall of the supplies acts through `live`. -/
theorem exec_eq_live {c : Instr} (hfall : c ≠ .porNFall) (hsupply : c ≠ .supplyFall)
    (hrise : ∀ boot recover testEn, c ≠ .porNRise boot recover testEn) : ∃ f, ∀ s, exec c s = live s f := by
  cases c with
  | porNFall => exact absurd rfl hfall
  | supplyFall => exact absurd rfl hsupply
  | porNRise boot recover testEn => exact absurd rfl (hrise boot recover testEn)
  | _ => exact ⟨_, fun _ => rfl⟩

theorem exec_testHold {s : State} (hpor : s.pins.porN = true) (hhold : s.boot.testHold = true) {c : Instr}
    (hfall : c ≠ .porNFall) (hsupply : c ≠ .supplyFall) : exec c s = .next s := by
  by_cases hrise : ∃ boot recover testEn, c = .porNRise boot recover testEn
  · obtain ⟨boot, recover, testEn, rfl⟩ := hrise
    rw [exec_porNRise, porRises_high hpor]
  · obtain ⟨f, run⟩ := exec_eq_live hfall hsupply fun boot recover testEn e => hrise ⟨boot, recover, testEn, e⟩
    rw [run, live_held f (.inr hhold)]

/-- Settles O4: the rise writes no field of the stage, and a held device answers every command that acts through `live`, or is
another rise, with its own state. -/
theorem testHoldServesNothing : Obligations.TestHoldServesNothing := by
  unfold Obligations.TestHoldServesNothing
  refine ⟨fun boot recover s hlow hstage => ?rise, fun c s hpor hhold hfall hsupply => exec_testHold hpor hhold hfall hsupply⟩
  case rise =>
    have frame := porRises_low hlow boot recover true
    refine ⟨_, exec_porNRise boot recover true s, ?_, ?_, frame.stage.trans hstage, frame.taith, frame.mem⟩
    · rw [frame.boot, porHigh]
    · rw [frame.pins, porHigh]

end Sys2Proof.Machine
end
